-- ==== Sys2Proof/Word.lean ====
section
/-! DEFINITION. The byte and the sparse map: the two plain data types that every other file of the model is written over. -/

namespace Sys2Proof

/-- One octet of a register, a frame, a cell or a memory. -/
abbrev Byte := BitVec 8

/-- A sparse map from numbers (addresses, indices, object numbers) to values: its entries by strictly
rising key. A key that is not listed has the default its reader names. -/
abbrev NMap (β : Type) := List (Nat × β)

end Sys2Proof
end

