-- ==== Sys2Proof/Syntax.lean ====
section
/-! DEFINITION. The commands of the block: one constructor of `Instr` for each row of spec/opcode_table.json, with the operands the row's rule gives it. -/

namespace Sys2Proof

/-- Where a command was posted (02_command_mailbox, *Mailbox rings* and *Origins and rights*). -/
inductive Path where
  | pf0 (ring : Nat)
  | slice (n : Nat)
  | serial
  | debug
  | peer
  | firmware
deriving DecidableEq, Repr

/-- One fetched command entry: the header fields of R39 that the origin writes, and the payload bytes
(the inline area, or the indirect buffer when `flags` has INDIRECT). -/
structure Cmd where
  /-- the ring or path the entry was fetched from -/
  path : Path
  /-- header byte 2: [0] INDIRECT, [1] FENCE, [2] DRY_RUN -/
  flags : Nat
  /-- header byte 3 -/
  version : Nat
  /-- header bytes 4-7 -/
  payloadLen : Nat
  /-- header bytes 8-15 -/
  tag : Nat
  /-- header bytes 16-23 -/
  bufAddr : Nat
  /-- header bytes 24-27 -/
  bufCap : Nat
  /-- header bytes 28-31 -/
  txnId : Nat
  /-- header bytes 32-35 -/
  resource : Nat
  /-- header byte 46 -/
  rsvd : Nat
  /-- header byte 47 -/
  phase : Nat
  /-- the payload as fetched; shorter than `payloadLen` only where the indirect buffer is not readable -/
  payload : List Byte
  /-- the indirect buffer could be read (R49 BAD_ADDRESS otherwise) -/
  readable : Bool
  /-- the result can be written (R49 RESULT_LOST otherwise) -/
  writable : Bool
deriving DecidableEq, Repr

/-- What one read of a ring entry brought: the entry's bytes, or none where the read failed (R34, R367),
and the indirect buffer's bytes where the entry names one. -/
structure Fetched where
  entry : Option (List Byte)
  buffer : Option (List Byte)
  writable : Bool
deriving DecidableEq, Repr

/-- One frame as its PCS or framed de-mapping delivers it, without FCS (R106, R501). -/
structure RxFrame where
  port : Nat
  bytes : List Byte
  /-- the FCS was good -/
  fcsOk : Bool
  /-- an uncorrectable RS codeword touched the frame -/
  fecError : Bool
  /-- the staging buffer of the octet had room (R101) -/
  room : Bool
  /-- the adaptation buffer of a framed port could take it (R114) -/
  adapted : Bool
  /-- what the FEC of the port's lanes counted while the frame came in: lane of the octet, corrected codewords, uncorrectable codewords, corrected symbols (R106) -/
  fec : List (Nat × Nat × Nat × Nat) := []
deriving DecidableEq, Repr

/-- The path monitoring overhead of one received multiframe: the 64 bytes of trace (R115) and the BDI bit beside them (R131). -/
structure Multiframe where
  trace : List Byte
  bdi : Bool
deriving DecidableEq, Repr

/-- The conditions of R118 (and the octet or lane fence). -/
inductive PortCond where
  | lossOfSignal | lossOfLock | localFault | remoteFault | framedActions | fenced
deriving DecidableEq, Repr

/-- The receive defects of R116. -/
inductive Defect where
  | los | lof
deriving DecidableEq, Repr

/-- A queue: a VOQ or an egress queue by number (R12, R250). -/
structure QId where
  egress : Bool
  num : Nat
deriving DecidableEq, Repr

/-- A credit message as it arrives from a device (R292). -/
structure CreditMsg where
  device : Nat
  voq : Nat
  target : Nat
  offset : Nat
  value : Nat
deriving DecidableEq, Repr

/-- A HEARTBEAT of the pair link (R307), with the formation facts of R310. -/
structure Beat where
  role : Nat
  incarnation : Nat
  journalHead : Nat
  applied : Nat
  ports : List Nat
  priority : Nat
  stepping : Nat
  mode : Nat
  pairId : Bool
deriving DecidableEq, Repr

/-- The kinds of DMA read of R367. -/
inductive DmaRead where
  | mailbox (path : Path)
  | descriptor (slice loc : Nat)
  | txFrame (slice loc : Nat)
  | jobSource (engine : Nat) (job : Nat)
deriving DecidableEq, Repr

/-- What a boot finds outside the logic: the straps, the flash and what was done to it and to the fuses
while the device was not running, and which firmware does not come up (R446-R457, R470, R489). -/
structure BootInput where
  hostSplit : Bool
  clkMode : Bool
  bootMode : Bool
  pairId : Bool
  smbAddr : Nat
  /-- a boot flash answers (R457) -/
  flash : Bool
  /-- directory copies that are not valid in this boot: 0 the one that was in force, 1 the older one (R448) -/
  badDirs : List Nat := []
  /-- the boot counter can be read and written (R449) -/
  counterOk : Bool
  /-- the last reset interrupted the write of a record of the boot counter (R449) -/
  counterTorn : Bool := false
  /-- H0 and H1 come up and the journal region is readable (R87) -/
  journalOk : Bool
  /-- slots that are unreadable in this boot (R451), as kind × 2 + slot -/
  badSlots : List Nat
  /-- slots of kind 1 whose firmware does not reach mailbox readiness, 2 for the artefact of a recovery boot (R455) -/
  hangs : List Nat
  /-- slot contents written from outside while the device was not running, by kind × 2 + slot -/
  flashed : List (Nat × List Byte)
  /-- OTP bits blown from outside (at manufacture, R471), by word of the first copy, 64 and above of the second (R470): (word, bits) -/
  otp : List (Nat × Nat)
  /-- the manufacture certificate chain of the identity area, where it was written (R468) -/
  chain : Option (List Byte)
deriving DecidableEq, Repr

/-- One row of spec/opcode_table.json each. Mailbox commands carry their entry; events carry what the rule
that defines them says arrives. -/
inductive Instr where
  -- DEVICE, MBOX, RIGHTS, TXN, JOURNAL
  | deviceInfo (c : Cmd)
  | deviceSetMode (c : Cmd)
  | deviceReset (c : Cmd)
  | mboxNop (c : Cmd)
  | mboxRingSet (c : Cmd)
  | mboxRingDisable (c : Cmd)
  | mboxRingStatus (c : Cmd)
  | rightsGet (c : Cmd)
  | rightsSet (c : Cmd)
  | txnOpen (c : Cmd)
  | txnCommit (c : Cmd)
  | txnAbort (c : Cmd)
  | txnStatus (c : Cmd)
  | journalRead (c : Cmd)
  | journalRelease (c : Cmd)
  | journalCheckpoint (c : Cmd)
  | journalSetRegion (c : Cmd)
  -- PORT, PARSER, TABLE, STAGE
  | portGet (c : Cmd)
  | portConfig (c : Cmd)
  | portEnable (c : Cmd)
  | portDisable (c : Cmd)
  | portProtectSet (c : Cmd)
  | parserGet (c : Cmd)
  | parserLoad (c : Cmd)
  | parserRuleGroupSet (c : Cmd)
  | tableRead (c : Cmd)
  | tableSearch (c : Cmd)
  | tableInsert (c : Cmd)
  | tableUpdate (c : Cmd)
  | tableDelete (c : Cmd)
  | tableBulk (c : Cmd)
  | tableCreate (c : Cmd)
  | tableSetPolicy (c : Cmd)
  | stageGet (c : Cmd)
  | stageLoad (c : Cmd)
  | stagePolicerSet (c : Cmd)
  | stageMirrorSet (c : Cmd)
  | stageSampleSet (c : Cmd)
  -- BUFFER, SCHED, FABRIC, PAIR, TAHR
  | bufferGet (c : Cmd)
  | bufferPoolSet (c : Cmd)
  | schedGet (c : Cmd)
  | schedNodeSet (c : Cmd)
  | schedQueueSet (c : Cmd)
  | schedGateSet (c : Cmd)
  | fabricGet (c : Cmd)
  | fabricLinkSet (c : Cmd)
  | fabricDeviceSet (c : Cmd)
  | pairGet (c : Cmd)
  | pairSet (c : Cmd)
  | pairSwitchover (c : Cmd)
  | tahrGet (c : Cmd)
  | tahrChannelSet (c : Cmd)
  | tahrCounterSet (c : Cmd)
  | tahrCoreReset (c : Cmd)
  -- SLICE, RING, TIME, MONITOR, OBSERVE, FAULT, FIRMWARE, HBM, DEBUG
  | sliceGet (c : Cmd)
  | sliceCreate (c : Cmd)
  | sliceQuiesce (c : Cmd)
  | sliceReset (c : Cmd)
  | sliceRemove (c : Cmd)
  | sliceFreeze (c : Cmd)
  | sliceSave (c : Cmd)
  | sliceRestore (c : Cmd)
  | sliceThaw (c : Cmd)
  | ringGet (c : Cmd)
  | ringSet (c : Cmd)
  | ringEnable (c : Cmd)
  | ringDisable (c : Cmd)
  | ringInvalidate (c : Cmd)
  | timeGet (c : Cmd)
  | timeSetOffset (c : Cmd)
  | timeSetRate (c : Cmd)
  | timePpsSet (c : Cmd)
  | monitorGet (c : Cmd)
  | monitorSet (c : Cmd)
  | monitorDumpSet (c : Cmd)
  | observeSetWindow (c : Cmd)
  | faultGet (c : Cmd)
  | faultClear (c : Cmd)
  | faultSetWindow (c : Cmd)
  | firmwareGet (c : Cmd)
  | firmwareWrite (c : Cmd)
  | firmwareActivate (c : Cmd)
  | firmwareAttest (c : Cmd)
  | hbmGet (c : Cmd)
  | hbmSet (c : Cmd)
  | debugRead (c : Cmd)
  | debugControl (c : Cmd)
  -- the mailbox
  | mbDoorbell (path : Path) (value : Nat)
  | mbRingReset (path : Path) (value : Nat)
  | mailboxFetch (path : Path) (f : Fetched)
  | mbFetchRetry (path : Path) (f : Fetched)
  | mctpRequest (body : List Byte)
  | mboxAddr (value : Nat)
  | mboxDataCapture
  | mboxDataUpdate (value : Nat)
  -- transactions and the journal
  | txnIdleTimeout (txn : Nat)
  | commitResume (id : Nat)
  | epochRetire (egress : Bool)
  | epochDrain (tag : Nat)
  | phaseB (id : Nat)
  | tombstoneExpiry (kind table index : Nat)
  | batchClose (table inst resource : Nat)
  | checkpoint
  | signature (seq : Nat)
  -- ports
  | frameReceive (f : RxFrame)
  | pauseFrame (port : Nat) (bytes : List Byte)
  | pauseExpiry (port prio : Nat)
  | xoffRepeat (port prio : Nat)
  | storm (port prio : Nat)
  | stormEnd (port prio : Nat)
  | portFailure (port : Nat) (cond : PortCond)
  | linkGood (port : Nat)
  | upDelay (port : Nat)
  | holdTime (port : Nat)
  | waitToRestore (group : Nat)
  | linkStateRecord
  | framedDefect (port : Nat) (d : Defect) (declared : Bool)
  | ttiMultiframe (port : Nat) (tti : Multiframe)
  -- parser, stages and buffers
  | parserEntry (source pipeline : Nat)
  | stageVisit (pkt : Nat)
  | endOfIngress (pkt : Nat)
  | voqEnqueue
  | reserveRefill
  | packing (q : QId)
  | blockWriteComplete (block : Nat)
  | refill (q : QId)
  | reclaimSweep
  | voqDequeue (sector : Nat)
  | egressDequeue (target : Nat)
  | ageScan (q : QId)
  | endOfEgress (pkt : Nat)
  | transmit (pkt : Nat)
  | gateAdvance (port : Nat)
  | gateListStart (port : Nat)
  -- credit and fabric
  | grantIssue (target : Nat)
  | requestOn (m : CreditMsg)
  | requestOff (m : CreditMsg)
  | grant (m : CreditMsg)
  | creditReturn (m : CreditMsg)
  | lost (m : CreditMsg)
  | auditGrant (m : CreditMsg)
  | auditReturn (m : CreditMsg)
  | auditSend
  | requestRepeat (voq : Nat)
  | creditCellSend (device : Nat)
  | cellFill (device : Nat)
  | cellReceive (lane : Nat) (bytes : List Byte)
  | reorderTimeout (device : Nat)
  | presence (device seq : Nat) (payload : List Byte)
  | presenceSend
  | presenceTimeout (device : Nat)
  | portStatus (device seq : Nat) (payload : List Byte)
  | deviceDown (device incarnation : Nat)
  | deviceDownFlood
  | laneTrainingDone (lane : Nat)
  | laneLock (lane : Nat)
  | laneMarker (lane device index : Nat) (receiving : Bool)
  | laneFailure (lane cause : Nat)
  | laneRetry (lane : Nat)
  | laneBringupTimeout (lane : Nat)
  -- the pair
  | bondRetrain
  | heartbeat (b : Beat)
  | heartbeatSend
  | pairBeatToggle
  | pairBeatIn (level : Bool)
  | pairActIn (level : Bool)
  | peerFailed
  | takeoverRequest
  | splitBrain
  | pairLinkDown
  | pairDissolve
  | syncPoint
  | snapshot (cmds : List (Nat × Cmd))
  | journalRecord (seq generation opcode status : Nat) (isCommit : Bool) (c : Cmd)
  | commitAck (seq : Nat)
  | deltaSend
  | counterDelta (deltas : Nat × List (Nat × Nat × Nat × Nat))
  | redirectRecord (bytes : List Byte)
  | pairPortMessage (port state change : Nat)
  | switchoverStart
  | switchMsg (head : Nat)
  | switchoverAck
  | timeAlign (t1 t2 t3 t4 : Nat) (activeRate : Int) (activeSteered : Bool)
  | activationArm (kinds atNtime : Nat) (expect : List Byte)
  -- slices, rings and accelerators
  | ringFetch (slice loc : Nat) (entry : Option (List Byte))
  | fetchRetry (slice loc : Nat) (entry : Option (List Byte))
  | submissionDoorbell (slice loc value : Nat)
  | completionDoorbell (slice loc value : Nat)
  | arm (slice loc value : Nat)
  | hostRingReset (slice loc value : Nat)
  | txFrameDispatch (slice loc : Nat) (data : Option (List Byte))
  | txFrameComplete (slice loc : Nat)
  | jobDispatch (engine slice loc : Nat) (src : Option (List Byte))
  | jobComplete (engine job : Nat)
  | coalesceTimeout (slice loc : Nat)
  | dmaReadError (d : DmaRead)
  | quiesceDrainEnd (slice : Nat)
  | quiesceTimeout (slice : Nat)
  | pf0Flr
  | pf1Flr (link : Nat)
  | hotReset (link : Nat)
  | linkLoss (link : Nat)
  | pciePerst (link : Nat)
  -- Tahr threads
  | wfe (t rd rs1 : Nat)
  | wfeReturn (t : Nat)
  | cyc (t rd : Nat)
  | chRsv (t rd rs1 : Nat)
  | chWr (t rs1 rs2 imm : Nat)
  | chCmt (t rd rs1 : Nat)
  | chGet (t rd rs1 : Nat)
  | chRd (t rd rs1 imm : Nat)
  | chRel (t rd rs1 : Nat)
  | pld (t rd rs1 rs2 : Nat)
  | pst (t rd rs1 rs2 rs3 : Nat)
  | pdispRelease (t rd rs1 rs2 : Nat)
  | pdispEgress (t rd rs1 rs2 : Nat)
  | pdispVoq (t rd rs1 rs2 : Nat)
  | pdispReinject (t rd rs1 rs2 : Nat)
  | pdispGive (t rd rs1 rs2 : Nat)
  | tblGo (t rd rs1 rs2 : Nat)
  | fenceI (t : Nat)
  | rv64imac (t : Nat)
  | tcmp (t value : Nat)
  | tsig (t value : Nat)
  | pstatRead (t rd : Nat)
  | timer (t : Nat)
  | graceExpiry (resource : Nat)
  | stall (cluster : Nat)
  | stallRecovery (cluster : Nat)
  | dmiAccess (cluster : Nat) (write : Bool) (addr data : Nat)
  | holdTimeout (t : Nat)
  | tahrDump (cluster : Nat)
  -- table engines
  | tblCmdRead (set value : Nat)
  | tblCmdSearch (set value : Nat)
  | tblCmdInsert (set value : Nat)
  | tblCmdUpdate (set value : Nat)
  | tblCmdDelete (set value : Nat)
  | relClear (table inst : Nat)
  | trieFree (table : Nat)
  | learnEvent (table inst : Nat)
  | sweepStart (table inst : Nat)
  | sweepVisit (table inst : Nat)
  -- HBM
  | hbmTempRead (stack : Nat) (temp : Int)
  | refreshWindow (pc : Nat)
  | hbmActivate (pc bank row : Nat)
  | neighbourRefresh (pc bank : Nat)
  | retrainHold (pc : Nat)
  | retrainPause (pc : Nat)
  | retrainEnd (pc : Nat) (pass : Bool)
  | hbmInitComplete (stack : Nat)
  -- faults
  | faultReport (source resource : Nat) (detail : List Byte)
  | faultRecord
  | collectorCompare (equal : Bool)
  | selfTestComplete (resource : Nat) (pass : Bool)
  -- observation, registers, recovery, dumps, pins
  | observationRead (offset size : Nat)
  | observationWrite (offset size : Nat)
  | registerWrite (addr value : Nat)
  | recoveryGo (b : BootInput)
  | bridgeDepthSample (cls depth : Nat)
  | dumpCapture (stream : Nat)
  | ppsOutRise
  | ppsOutFall
  | ppsIn (rising : Bool)
  | smbusAlertResponse
  | supplySample (mv : Nat)
  | brownOutEnd (b : BootInput)
  | regulatorFault (domain : Nat)
  | refclkLoss
  | laneRefclkLoss (n : Nat)
  | pcieRefclkLoss
  | porstAssert (durationNs : Nat)
  | porstRelease (b : BootInput)
  | bootWatchdog (b : BootInput)
  | warmRstN (durationNs : Nat)
  | warmResetStart
  | warmResetRelease (b : BootInput)
  | activationStart (hangs : Bool)
  | pciePerstRelease (link : Nat)
  | pcieLinkUp (link : Nat)
  | pciePowerState (link fn : Nat) (d3hot : Bool)
  | dumpFrameWritten (stream : Nat)
  | tblCmdBusyClear (set : Nat)
  | domainInRegulation (domain : Nat)
deriving DecidableEq, Repr

end Sys2Proof
end

