-- ==== Sys2Proof/Config.lean ====
section
/-! DEFINITION. What the spec leaves open: free values without a body. Nothing in Lean can evaluate one or prove a value of it. -/

namespace Sys2Proof.Config

/-- The free value number n, w bits wide: one draw of a generator or one output that the spec does not
give. Nothing constrains it (log entry 1, DESIGN CHOICE, safe). -/
opaque freeValue (w n : Nat) : BitVec w

/-- Bits [30:0] of the placement of a resource identifier, its physical block and instance (R21 01_architecture: fixed by the silicon, not listed; log entry 1). -/
opaque placement (resource : Nat) : BitVec 31

/-- Bit [31] of the placement of a resource that stands on neither die alone: the bridge, the device, a destination device, the pair (R21 01_architecture; log entry 1). -/
opaque placementDie (resource : Nat) : Bool

/-- Credits of a class and direction of the die bridge beyond the first (R14 01_architecture gives each class a pool and no size; log entry 81). -/
opaque bridgeCredit (d : Nat) : BitVec 32

/-- Device number by which an EGRESS_INDEX of kind 2 names the pair peer (R251 09_queues_and_scheduling and R326 11_pair_operation let kind 2 reach it and give it no number; log entry 92). -/
opaque pairDevice : BitVec 11

/-- 16-byte words that a message of the pair link takes (R306, R307 11_pair_operation give the messages no coding; log entry 80). -/
opaque pairWords (cls : Nat) (content : List Nat) : BitVec 4

/-- Output of the compression engine for a format and an effort (R392 13_host_interface names the formats and leaves the encoder open; log entry 1). -/
opaque compressed (format effort : Nat) (src : List Byte) : List Byte

/-- Output of decompression, none where the source is not a valid stream (log entry 1). -/
opaque decompressed (format : Nat) (src : List Byte) : Option (List Byte)

/-- SLH-DSA-SHA2-256s verification of FIPS 205 in pure mode with an empty context: key, message, signature (R452 17_firmware_and_trust names the standard; log entry 20). -/
opaque slhVerify (key message signature : List Byte) : Bool

/-- Key generation of SLH-DSA-SHA2-128s (`fast` false) and 128f (`fast` true) from a 48-byte seed: the 32-byte public key (R467 17_firmware_and_trust; log entry 20). -/
opaque slhPublic (fast : Bool) (seed : List Byte) : List Byte

/-- Signing with SLH-DSA-SHA2-128s and 128f by the key of a seed (R468, R469 17_firmware_and_trust; log entry 20). -/
opaque slhSign (fast : Bool) (seed message : List Byte) : List Byte

/-- Whether a trie of these prefixes cannot be built within a table's head units and leaf region (R180 06_lookup_tables states it only for 64 units and 1,024 MiB; log entry 1). -/
opaque trieFull (headUnits leafMib : Nat) (prefixes : List (List Byte)) : Bool

end Sys2Proof.Config
end

