-- ==== Sys2Proof/Machine/Bits.lean ====
section
/-! DEFINITION. Bit fields, sign extension and byte order (R7 00_scope): the helpers every block reads its fields with. -/

namespace Sys2Proof.Machine

/-- Little-endian value of bytes. -/
def leNat : List Byte → Nat
  | [] => 0
  | b :: bs => b.toNat + 256 * leNat bs

/-- `n` little-endian bytes of `v`. -/
def leBytes : Nat → Nat → List Byte
  | 0, _ => []
  | n + 1, v => BitVec.ofNat 8 v :: leBytes n (v / 256)

/-- Big-endian (network order) value of bytes. -/
def beNat (bs : List Byte) : Nat := bs.foldl (fun a b => a * 256 + b.toNat) 0

/-- `n` big-endian bytes of `v`. -/
def beBytes (n v : Nat) : List Byte := (leBytes n v).reverse

/-- `n` zero bytes. -/
def zeros (n : Nat) : List Byte := List.replicate n 0

/-- The first `n` bytes, padded with zeros to length `n`. -/
def fit : Nat → List Byte → List Byte
  | 0, _ => []
  | n + 1, [] => 0 :: fit n []
  | n + 1, b :: bs => b :: fit n bs

/-- `n` bytes at offset `off`; bytes past the end read 0. -/
def slice (bs : List Byte) (off n : Nat) : List Byte := fit n (bs.drop off)

/-- Little-endian number of `n` bytes at `off`. -/
def uN (bs : List Byte) (off n : Nat) : Nat := leNat (slice bs off n)
/-- Byte at `off`. -/
def u8 (bs : List Byte) (off : Nat) : Nat := uN bs off 1
/-- 2 bytes at `off`. -/
def u16 (bs : List Byte) (off : Nat) : Nat := uN bs off 2
/-- 4 bytes at `off`. -/
def u32 (bs : List Byte) (off : Nat) : Nat := uN bs off 4
/-- 8 bytes at `off`. -/
def u64 (bs : List Byte) (off : Nat) : Nat := uN bs off 8

/-- Overwrite bytes at `off`; the list keeps its length. -/
def poke (bs : List Byte) (off : Nat) (new : List Byte) : List Byte :=
  (bs.take off ++ new ++ bs.drop (off + new.length)).take bs.length

/-- Bits [hi:lo] of `v`. -/
def bitsOf (v hi lo : Nat) : Nat := v / 2 ^ lo % 2 ^ (hi + 1 - lo)
/-- Bit `i` of `v`. -/
def bit (v i : Nat) : Bool := v.testBit i
/-- 1 or 0. -/
def b2n (b : Bool) : Nat := if b then 1 else 0
/-- `v` with bit `i` set or cleared. -/
def withBit (v i : Nat) (b : Bool) : Nat :=
  if bit v i = b then v else if b then v + 2 ^ i else v - 2 ^ i
/-- `v` with bits [hi:lo] replaced. -/
def withBits (v hi lo x : Nat) : Nat :=
  v - bitsOf v hi lo * 2 ^ lo + x % 2 ^ (hi + 1 - lo) * 2 ^ lo

/-- Two's complement value of the low `w` bits. -/
def signed (w v : Nat) : Int :=
  let x := v % 2 ^ w
  if x < 2 ^ (w - 1) then (x : Int) else (x : Int) - (2 ^ w : Nat)
/-- Low `w` bits of an integer. -/
def unsigned (w : Nat) (i : Int) : Nat := (i % ((2 ^ w : Nat) : Int)).toNat

/-- Set bits of the low `n` bits of `v`, lowest first. -/
def setBits (n v : Nat) : List Nat := (List.range n).filter (fun i => bit v i)
/-- Number of set bits. -/
def popcount (n v : Nat) : Nat := (setBits n v).length

/-- 2 ** ⌈log2 v⌉ steps: floor of the base-2 logarithm, 0 for 0. -/
def log2 (v : Nat) : Nat := Nat.log2 v

/-- Quotient rounded up. -/
def ceilDiv (a b : Nat) : Nat := (a + b - 1) / b

/-- Saturating subtraction's partner: `v` limited to at most `m`. -/
def cap (v m : Nat) : Nat := if v ≤ m then v else m

end Sys2Proof.Machine
end

