-- ==== Sys2Proof/Machine/Hash.lean ====
section
/-! DEFINITION. SHA-2, HMAC and the cyclic redundancy checks the spec calls by name (R92, R391, R286, R403). Numbers of fixed width are naturals below their modulus; every loop runs over a list, so that the kernel can evaluate it. -/

namespace Sys2Proof.Machine

/-- The primes below 410, of which there are 80. -/
def primes80 : List Nat :=
  (List.range 410).filter (fun n => decide (2 ≤ n) && (List.range 19).all (fun d => decide (n ≤ d + 2) || n % (d + 2) != 0))

/-- The whole part of a `k`-th root below 2 ^ `bits`, bit by bit from the top. -/
def rootBelow (k x : Nat) : Nat → Nat → Nat
  | 0, r => r
  | b + 1, r => rootBelow k x b (if (r + 2 ^ b) ^ k ≤ x then r + 2 ^ b else r)

/-- The first `w` bits of the fraction of the `k`-th root of `p`: the constants of FIPS 180-4. -/
def rootFraction (w k p : Nat) : Nat := rootBelow k (p * 2 ^ (w * k)) (w + 5) 0 % 2 ^ w

/-- Round constants of SHA-256. -/
def sha256K : List Nat := (primes80.take 64).map (rootFraction 32 3)
/-- Initial hash value of SHA-256. -/
def sha256H : List Nat := (primes80.take 8).map (rootFraction 32 2)
/-- Round constants of SHA-384 and SHA-512. -/
def sha512K : List Nat := primes80.map (rootFraction 64 3)
/-- Initial hash value of SHA-512. -/
def sha512H : List Nat := (primes80.take 8).map (rootFraction 64 2)
/-- Initial hash value of SHA-384, from the second eight primes. -/
def sha384H : List Nat := ((primes80.drop 8).take 8).map (rootFraction 64 2)

/-- Rotate right within `w` bits. -/
def rotr (w n x : Nat) : Nat := x / 2 ^ n + x % 2 ^ n * 2 ^ (w - n)

/-- The parameters in which SHA-256 and SHA-512 differ: word width, rotations of Σ0, Σ1, σ0, σ1 (the last of each σ a shift). -/
structure Sha2 where
  w : Nat
  s0 : Nat × Nat × Nat
  s1 : Nat × Nat × Nat
  g0 : Nat × Nat × Nat
  g1 : Nat × Nat × Nat

/-- SHA-256's parameters. -/
def sha2w32 : Sha2 := ⟨32, (2, 13, 22), (6, 11, 25), (7, 18, 3), (17, 19, 10)⟩
/-- SHA-512's parameters. -/
def sha2w64 : Sha2 := ⟨64, (28, 34, 39), (14, 18, 41), (1, 8, 7), (19, 61, 6)⟩

/-- Exclusive or of three rotations. -/
def Sha2.rot3 (p : Sha2) (t : Nat × Nat × Nat) (x : Nat) : Nat :=
  rotr p.w t.1 x ^^^ rotr p.w t.2.1 x ^^^ rotr p.w t.2.2 x
/-- Exclusive or of two rotations and a shift. -/
def Sha2.rot2s (p : Sha2) (t : Nat × Nat × Nat) (x : Nat) : Nat :=
  rotr p.w t.1 x ^^^ rotr p.w t.2.1 x ^^^ x / 2 ^ t.2.2

/-- One round: the window of the last 16 schedule words (oldest first) and the eight working words. -/
def Sha2.round (p : Sha2) (st : List Nat × List Nat) (k : Nat) : List Nat × List Nat :=
  match st with
  | (w0 :: ws, [a, b, c, d, e, f, g, h]) =>
    let m := 2 ^ p.w
    let ch := (e &&& f) ^^^ ((m - 1 - e) &&& g)
    let maj := (a &&& b) ^^^ (a &&& c) ^^^ (b &&& c)
    let t1 := h + p.rot3 p.s1 e + ch + k + w0
    let t2 := p.rot3 p.s0 a + maj
    let next := (w0 + p.rot2s p.g0 (ws.getD 0 0) + ws.getD 8 0 + p.rot2s p.g1 (ws.getD 13 0)) % m
    (ws ++ [next], [(t1 + t2) % m, a, b, c, (d + t1) % m, e, f, g])
  | _ => st

/-- Compress one block of 16 words. -/
def Sha2.block (p : Sha2) (ks : List Nat) (h : List Nat) (ws : List Nat) : List Nat :=
  List.zipWith (fun x y => (x + y) % 2 ^ p.w) h (ks.foldl p.round (ws, h)).2

/-- The big-endian words of a padded message. -/
def wordsBE (bytes : Nat) : Nat → List Byte → List Nat
  | 0, _ => []
  | n + 1, bs => beNat (bs.take bytes) :: wordsBE bytes n (bs.drop bytes)

/-- Compress `n` blocks. -/
def Sha2.blocks (p : Sha2) (ks : List Nat) : Nat → List Nat → List Byte → List Nat
  | 0, h, _ => h
  | n + 1, h, bs =>
    p.blocks ks n (p.block ks h (wordsBE (p.w / 8) 16 (bs.take (2 * p.w)))) (bs.drop (2 * p.w))

/-- SHA-2 of a message, 8 words big-endian. -/
def Sha2.hash (p : Sha2) (ks h0 : List Nat) (msg : List Byte) : List Byte :=
  let blk := 2 * p.w
  let lenB := p.w / 4
  let n := (msg.length + 1 + lenB + blk - 1) / blk
  let padded := msg ++ [0x80] ++ zeros (n * blk - msg.length - 1 - lenB) ++ beBytes lenB (8 * msg.length)
  ((p.blocks ks n h0 padded).map (beBytes (p.w / 8))).flatten

/-- SHA-256, 32 bytes. -/
def sha256 (msg : List Byte) : List Byte := sha2w32.hash sha256K sha256H msg
/-- SHA-512, 64 bytes. -/
def sha512 (msg : List Byte) : List Byte := sha2w64.hash sha512K sha512H msg
/-- SHA-384, 48 bytes. -/
def sha384 (msg : List Byte) : List Byte := (sha2w64.hash sha512K sha384H msg).take 48

/-- HMAC over a hash with the given block size. -/
def hmac (hash : List Byte → List Byte) (blk : Nat) (key msg : List Byte) : List Byte :=
  let k := fit blk (if key.length ≤ blk then key else hash key)
  hash (k.map (· ^^^ 0x5C) ++ hash (k.map (· ^^^ 0x36) ++ msg))

/-- One bit of a reflected CRC. -/
def crcBitR (poly : Nat) (c : Nat) : Nat := if c % 2 = 1 then c / 2 ^^^ poly else c / 2
/-- One byte of a reflected CRC. -/
def crcByteR (poly : Nat) (c : Nat) (b : Byte) : Nat :=
  (List.range 8).foldl (fun c _ => crcBitR poly c) (c ^^^ b.toNat)
/-- A reflected CRC from a start value, without final inversion. -/
def crcR (poly start : Nat) (bs : List Byte) : Nat := bs.foldl (crcByteR poly) start
/-- One byte of a CRC of width `w`, most significant bit first. -/
def crcByteN (w poly : Nat) (c : Nat) (b : Byte) : Nat :=
  (List.range 8).foldl (fun c _ =>
    let d := c * 2 % 2 ^ w
    if bit c (w - 1) then d ^^^ poly else d) (c ^^^ (b.toNat * 2 ^ (w - 8)))
/-- A CRC of width `w`, most significant bit first, from a start value. -/
def crcN (w poly start : Nat) (bs : List Byte) : Nat := bs.foldl (crcByteN w poly) start

/-- CRC-32C with the given seed: reflected 0x1EDC6F41, start seed, final inversion left to the caller. -/
def crc32cRaw (seed : Nat) (bs : List Byte) : Nat := crcR 0x82F63B78 seed bs

/-! ### The frame check sequence of IEEE 802.3 (R221; log entry 20) -/

/-- One bit of the CRC-32 register, least significant bit first. -/
def fcsBit (r : Nat) : Nat := if r % 2 = 1 then r / 2 ^^^ 0xEDB88320 else r / 2
/-- One octet of a frame. -/
def fcsByte (r : Nat) (b : Byte) : Nat := (List.range 8).foldl (fun r _ => fcsBit r) (r ^^^ b.toNat)
/-- A frame with its FCS. -/
def withFcs (bs : List Byte) : List Byte := bs ++ leBytes 4 (bs.foldl fcsByte 0xFFFFFFFF ^^^ 0xFFFFFFFF)

end Sys2Proof.Machine
end

