-- ==== Sys2Proof/Machine/Map.lean ====
section
/-! DEFINITION. The sparse map: reading, writing and erasing keep its keys strictly rising, so that equal maps are equal data. -/

namespace Sys2Proof.Machine

/-- The value at `k`, if listed. -/
def mget {β : Type} : NMap β → Nat → Option β
  | [], _ => none
  | (a, v) :: m, k => if a = k then some v else mget m k

/-- The value at `k`, or the default. -/
def mgetD {β : Type} (m : NMap β) (k : Nat) (d : β) : β := (mget m k).getD d

/-- Write `v` at `k`. -/
def mset {β : Type} : NMap β → Nat → β → NMap β
  | [], k, v => [(k, v)]
  | (a, w) :: m, k, v =>
    if k < a then (k, v) :: (a, w) :: m
    else if k = a then (k, v) :: m
    else (a, w) :: mset m k v

/-- Remove `k`. -/
def mdel {β : Type} : NMap β → Nat → NMap β
  | [], _ => []
  | (a, w) :: m, k => if a = k then m else (a, w) :: mdel m k

/-- Change the value at `k`, from the default where it is not listed. -/
def mmod {β : Type} (m : NMap β) (k : Nat) (d : β) (f : β → β) : NMap β := mset m k (f (mgetD m k d))

/-- Change every listed value. -/
def mmap {β : Type} (m : NMap β) (f : Nat → β → β) : NMap β := m.map (fun p => (p.1, f p.1 p.2))

/-- Write a number where 0 is the value of an unlisted key: writing 0 removes the key. -/
def mput (m : NMap Nat) (k v : Nat) : NMap Nat := if v = 0 then mdel m k else mset m k v

/-- Keys are strictly rising. -/
def mwf {β : Type} : NMap β → Bool
  | [] => true
  | [_] => true
  | (a, _) :: (b, w) :: m => decide (a < b) && mwf ((b, w) :: m)

end Sys2Proof.Machine
end

