-- ==== Sys2Proof/Machine/State.lean ====
section
/-! DEFINITION. The state of the DRV7512 as plain data: one structure for each block of the spec, each field with its width, the rule that names it and its value at reset. A default written at a field is that field's reset value. -/

namespace Sys2Proof.Machine

/-! ### Lookup tables (06_lookup_tables) -/

/-- A table entry of kind 0-3 (R166, R184). -/
structure Entry where
  /-- up to 80 bytes, the padded key; R166 06_lookup_tables; reset none, no entry is held. -/
  key : List Byte := []
  /-- up to 64 bytes, the padded data; R166 06_lookup_tables; reset none, no entry is held. -/
  data : List Byte := []
  /-- 32 bits ENTRY_HANDLE; R168 06_lookup_tables; reset none, no entry is held. -/
  handle : Nat := 0
  /-- 1 bit HIT; R166 06_lookup_tables; reset none, no entry is held. -/
  hit : Bool := false
  /-- 1 bit CLEAR_SEEN; R166 06_lookup_tables; reset none, no entry is held. -/
  clearSeen : Bool := false
  /-- 1 bit STATIC; R166 06_lookup_tables; reset none, no entry is held. -/
  static : Bool := false
  /-- 1 bit LEARNED; R166 06_lookup_tables; reset none, no entry is held. -/
  learned : Bool := false
  /-- 16 bits AGE_EPOCH; R166 06_lookup_tables; reset none, no entry is held. -/
  ageEpoch : Nat := 0
deriving DecidableEq, Repr

/-- A counter pair: HBM value, cached increments, and the peer's copy (R185, R320). -/
structure CounterPair where
  /-- 64 bits, packets held in HBM; R185 06_lookup_tables; reset 0. -/
  packets : Nat := 0
  /-- 64 bits, octets held in HBM; R185 06_lookup_tables; reset 0. -/
  octets : Nat := 0
  /-- packets not yet written back from the counter cache; R185 06_lookup_tables; reset 0. -/
  cachePackets : Nat := 0
  /-- octets not yet written back from the counter cache; R185 06_lookup_tables; reset 0. -/
  cacheOctets : Nat := 0
  /-- 64 bits, packets counted by the pair peer; R320 11_pair_operation; reset 0. -/
  peerPackets : Nat := 0
  /-- 64 bits, octets counted by the pair peer; R320 11_pair_operation; reset 0. -/
  peerOctets : Nat := 0
  /-- packets counted since the last delta message; R320 11_pair_operation; reset 0. -/
  deltaPackets : Nat := 0
  /-- octets counted since the last delta message; R320 11_pair_operation; reset 0. -/
  deltaOctets : Nat := 0
deriving DecidableEq, Repr

/-- Table policy (R164). -/
structure Policy where
  /-- 8 bits FULL_POLICY; R164 06_lookup_tables; reset FULL_POLICY 0, LEARN 0, MISS_POLICY 0, no aging, no counter (at TABLE_CREATE). -/
  full : Nat := 0
  /-- 1 bit LEARN; R164 06_lookup_tables; reset FULL_POLICY 0, LEARN 0, MISS_POLICY 0, no aging, no counter (at TABLE_CREATE). -/
  learn : Bool := false
  /-- 8 bits MISS_POLICY; R164 06_lookup_tables; reset FULL_POLICY 0, LEARN 0, MISS_POLICY 0, no aging, no counter (at TABLE_CREATE). -/
  miss : Nat := 0
  /-- 1 bit TAHR_WRITE; R164 06_lookup_tables; reset FULL_POLICY 0, LEARN 0, MISS_POLICY 0, no aging, no counter (at TABLE_CREATE). -/
  tahrWrite : Bool := false
  /-- 32 bits AGE_PERIOD_MS; R164 06_lookup_tables; reset FULL_POLICY 0, LEARN 0, MISS_POLICY 0, no aging, no counter (at TABLE_CREATE). -/
  ageMs : Nat := 0
  /-- 16 bits MISS_CHANNEL; R164 06_lookup_tables; reset FULL_POLICY 0, LEARN 0, MISS_POLICY 0, no aging, no counter (at TABLE_CREATE). -/
  missChannel : Nat := 0
  /-- 16 bits MISS_COUNTER_TABLE; R164 06_lookup_tables; reset FULL_POLICY 0, LEARN 0, MISS_POLICY 0, no aging, no counter (at TABLE_CREATE). -/
  missCounterTable : Nat := 0xFFFF
  /-- 32 bits MISS_COUNTER; R164 06_lookup_tables; reset FULL_POLICY 0, LEARN 0, MISS_POLICY 0, no aging, no counter (at TABLE_CREATE). -/
  missCounter : Nat := 0
deriving DecidableEq, Repr

/-- A head node of a trie, 8 bytes (R178 06_lookup_tables). -/
structure HeadNode where
  /-- 2 bits KIND: 0 empty, 1 internal, 2 leaf pointer, 3 extension pointer; R178 06_lookup_tables; reset 0. -/
  kind : Nat := 0
  /-- child stride, 1 to 16; the 4-bit field STRIDE holds it minus 1; R178 06_lookup_tables; reset none. -/
  stride : Nat := 1
  /-- 22 bits DEFAULT where DEFAULT_VALID is 1; R178 06_lookup_tables; reset none. -/
  default_ : Option Nat := none
  /-- 32 bits POINTER; R178 06_lookup_tables; reset 0. -/
  pointer : Nat := 0
deriving DecidableEq, Repr

/-- An entry of a leaf block, 34 bits (R178 06_lookup_tables). -/
structure LeafEntry where
  /-- 4 bits LEN; R178 06_lookup_tables; reset none, no leaf block exists. -/
  len : Nat
  /-- 8 bits BITS, left-aligned; R178 06_lookup_tables; reset none, no leaf block exists. -/
  bits : Nat
  /-- 22 bits RESULT; R178 06_lookup_tables; reset none, no leaf block exists. -/
  result : Nat
deriving DecidableEq, Repr

/-- A 32-byte block of a leaf region (R178 06_lookup_tables). -/
inductive TrieBlock where
  /-- a leaf block: COUNT entries in stored order -/
  | leaf (entries : List LeafEntry)
  /-- an extension block: SKIP_LEN, SKIP as a number of SKIP_LEN bits, DEFAULT, CHILD0-CHILD3 -/
  | extension (skipLen skip : Nat) (default_ : Option Nat) (children : List (Option Nat))
deriving DecidableEq, Repr

/-- What only an old trie reached, until the lookups that began before the write have ended (R181 06_lookup_tables). -/
structure TrieOld where
  /-- 64 bits, UPTIME of the write that replaced it; R181 06_lookup_tables; reset none. -/
  since : Nat
  /-- first indices of its runs of head nodes; R181 06_lookup_tables; reset none. -/
  heads : List Nat
  /-- its extension and leaf blocks; R181 06_lookup_tables; reset none. -/
  blocks : List Nat
deriving DecidableEq, Repr

/-- The trie of an Antler table: its head on die, its extension and leaf blocks in the leaf region in HBM (R178-R181 06_lookup_tables). -/
structure Trie where
  /-- head nodes: runs of consecutive nodes by the index of the first; the roots of the VRFs are runs of one node at 0 to 4,095, and an unlisted node is empty; R178 06_lookup_tables; reset none. -/
  head : NMap (List HeadNode) := []
  /-- extension and leaf blocks by block index; R178 06_lookup_tables; reset none. -/
  blocks : NMap TrieBlock := []
  /-- parts of old tries still to be freed; R181 06_lookup_tables; reset none. -/
  old : List TrieOld := []
deriving DecidableEq, Repr

/-- One instance of a table (R162): its entries, stash, REL, sweeper and learn queue. -/
structure TInst where
  /-- kind 0: slot number (4 × bucket + slot); kinds 1, 2: handle; kind 3: index; R166 06_lookup_tables; reset none. -/
  slots : NMap Entry := []
  /-- the 64-entry stash; R173 06_lookup_tables; reset none. -/
  stash : NMap Entry := []
  /-- the relocation register REL and the UPTIME at which its hold began; R176 06_lookup_tables; reset none. -/
  rel : Option (Entry × Nat) := none
  /-- counter pairs of a kind 4 table; R503 06_lookup_tables; reset none. -/
  pairs : NMap CounterPair := []
  /-- 1 bit SWEEPING; R505 06_lookup_tables; reset 0. -/
  sweeping : Bool := false
  /-- next position of the sweep: slots, then stash; R505 06_lookup_tables; reset 0. -/
  sweepPos : Nat := 0
  /-- unpaused time at which the running or last sweep started; R505 06_lookup_tables; reset none. -/
  sweepAt : Option Nat := none
  /-- period in force for the running sweep in ms; R505 06_lookup_tables; reset 0. -/
  sweepMs : Nat := 0
  /-- 16 bits, completed sweeps; R166 06_lookup_tables; reset 0. -/
  sweeps : Nat := 0
  /-- 1 bit LEARN_HELD; R80 03_transactions_and_journal; reset 0. -/
  held : Bool := false
  /-- time not paused under R96 at which LEARN_HELD was last set; R505 06_lookup_tables; reset 0. -/
  heldAt : Nat := 0
  /-- ns for which R80 has paused aging in all, outside pauses under R96; R505 06_lookup_tables; reset 0. -/
  heldNs : Nat := 0
  /-- learn queue of 4,096 events: (key, data); R189 06_lookup_tables; reset none. -/
  learnQ : List (List Byte × List Byte) := []
  /-- the trie of an Antler table; R178-R181 06_lookup_tables; reset none. -/
  trie : Trie := {}
deriving DecidableEq, Repr

/-- A table (R161-R167). -/
structure Table where
  /-- 8 bits KIND; R161 06_lookup_tables; reset none, no table exists. -/
  kind : Nat := 0
  /-- 8 bits MEMORY; R161 06_lookup_tables; reset none, no table exists. -/
  memory : Nat := 0
  /-- 8 bits SCOPE; R161 06_lookup_tables; reset none, no table exists. -/
  scope : Nat := 0
  /-- 8 bits KEY_BYTES; R161 06_lookup_tables; reset none, no table exists. -/
  keyBytes : Nat := 0
  /-- 8 bits DATA_BYTES; R161 06_lookup_tables; reset none, no table exists. -/
  dataBytes : Nat := 0
  /-- 32 bits CAPACITY; R161 06_lookup_tables; reset none, no table exists. -/
  capacity : Nat := 0
  /-- 32 bits SEED0; R161 06_lookup_tables; reset none, no table exists. -/
  seed0 : Nat := 0
  /-- 32 bits SEED1; R161 06_lookup_tables; reset none, no table exists. -/
  seed1 : Nat := 0
  /-- 16 bits RULE_GROUP; R161 06_lookup_tables; reset none, no table exists. -/
  group : Nat := 0
  /-- 8 bits RELEASE; R161 06_lookup_tables; reset none, no table exists. -/
  release : Nat := 0
  /-- 8 bits HEAD_UNITS; R161 06_lookup_tables; reset none, no table exists. -/
  headUnits : Nat := 0
  /-- 32 bits LEAF_MIB; R161 06_lookup_tables; reset none, no table exists. -/
  leafMib : Nat := 0
  /-- bucket count B of kind 0; R167 06_lookup_tables; reset none, no table exists. -/
  buckets : Nat := 0
  /-- 8 bits, units allocated, all instances; R160 06_lookup_tables; reset none, no table exists. -/
  units : Nat := 0
  /-- 16-bit HBM regions allocated: H0 0-24575, H1 24576-49151; R160 06_lookup_tables; reset none, no table exists. -/
  regions : List Nat := []
  /-- its policy; R164 06_lookup_tables; reset that of R164 at TABLE_CREATE. -/
  policy : Policy := {}
  /-- its instances, by sector 0-5 or 0; R162 06_lookup_tables; reset none, no table exists. -/
  insts : NMap TInst := []
  /-- 1 bit, an HBM table that lost a byte; R430 15_hbm_controllers; reset none, no table exists. -/
  lost : Bool := false
  /-- 1 bit, destroyed at a commit point and waiting for phase B or its tombstones; R163 06_lookup_tables; reset none, no table exists. -/
  destroyed : Bool := false
deriving DecidableEq, Repr

/-- A rule of a rule group (R149, R182, R183). -/
structure Rule where
  /-- 160 to 640 bits VALUE; R149 05_parser_and_classification; reset none, no rule is loaded. -/
  value : Nat
  /-- 160 to 640 bits MASK; R149 05_parser_and_classification; reset none, no rule is loaded. -/
  mask : Nat
  /-- 64 bits, the action word; R150 05_parser_and_classification; reset none, no rule is loaded. -/
  action : Nat
  /-- 32 bits PRIORITY of a kind 5 rule; R182 06_lookup_tables; reset none, no rule is loaded. -/
  priority : Nat := 0
  /-- 16 bits, ENTRY_HANDLE of a kind 5 rule; R168 06_lookup_tables; reset none, no rule is loaded. -/
  handle : Nat := 0
  /-- global index of the TCAM entry of its part 0, block × 6,400 + entry; its other parts follow in the same block; R182 06_lookup_tables; reset none, no rule is loaded. -/
  place : Nat := 0
deriving DecidableEq, Repr

/-- A versioned rule group (R145-R148). -/
structure RuleGroup where
  /-- 2 bits KEY_MODE of copy 0; R147 05_parser_and_classification; reset 0. -/
  mode0 : Nat := 0
  /-- 2 bits KEY_MODE of copy 1; R147 05_parser_and_classification; reset 0. -/
  mode1 : Nat := 0
  /-- up to 65,536 rules of copy 0, in rising order of their places; R145, R148 05_parser_and_classification, R182 06_lookup_tables; reset none. -/
  copy0 : List Rule := []
  /-- up to 65,536 rules of copy 1, in rising order of their places; R145, R148 05_parser_and_classification, R182 06_lookup_tables; reset none. -/
  copy1 : List Rule := []
  /-- 1 bit SEL_BANK0; R145 05_parser_and_classification; reset 0. -/
  sel0 : Nat := 0
  /-- 1 bit SEL_BANK1; R145 05_parser_and_classification; reset 0. -/
  sel1 : Nat := 0
deriving DecidableEq, Repr

/-- What a table command register set shows once BUSY clears (R170, R172). -/
structure SetResult where
  /-- 16 bits STATUS; R170, R172 06_lookup_tables; reset none, no operation is running. -/
  status : Nat
  /-- 1 bit EVICTED; R170, R172 06_lookup_tables; reset none, no operation is running. -/
  evicted : Bool
  /-- 1 bit FOUND; R170, R172 06_lookup_tables; reset none, no operation is running. -/
  found : Bool
  /-- 8 bits RELOCATIONS; R170, R172 06_lookup_tables; reset none, no operation is running. -/
  relocations : Nat
  /-- 64 bits HANDLE; R170, R172 06_lookup_tables; reset none, no operation is running. -/
  handle : Nat
  /-- up to 80 bytes, KEY0-KEY9; R170, R172 06_lookup_tables; reset none, no operation is running. -/
  key : List Byte
  /-- up to 64 bytes, DATA0-DATA7; R170, R172 06_lookup_tables; reset none, no operation is running. -/
  data : List Byte
deriving DecidableEq, Repr

/-- A table command register set (R170-R172). -/
structure CmdSet where
  /-- 64 bits TBL_CMD, GO clear; R170 06_lookup_tables; reset 0. -/
  cmd : Nat := 0
  /-- 1 bit BUSY; R170 06_lookup_tables; reset 0. -/
  busy : Bool := false
  /-- 1 bit EVICTED; R170 06_lookup_tables; reset 0. -/
  evicted : Bool := false
  /-- 1 bit FOUND; R170 06_lookup_tables; reset 0. -/
  found : Bool := false
  /-- 16 bits STATUS; R170 06_lookup_tables; reset 0. -/
  status : Nat := 0
  /-- 8 bits RELOCATIONS; R170 06_lookup_tables; reset 0. -/
  relocations : Nat := 0
  /-- 8 bits BUSY_WRITES; R170 06_lookup_tables; reset 0. -/
  busyWrites : Nat := 0
  /-- 64 bits HANDLE; R170 06_lookup_tables; reset 0. -/
  handle : Nat := 0
  /-- 80 bytes, KEY0-KEY9, missing bytes zero; R170 06_lookup_tables; reset 0. -/
  key : List Byte := []
  /-- 64 bytes, DATA0-DATA7, missing bytes zero; R170 06_lookup_tables; reset 0. -/
  data : List Byte := []
  /-- the results that become visible when BUSY clears, or none; R170, R172 06_lookup_tables; reset none. -/
  result : Option SetResult := none
  /-- 1 bit, the changing operation waits for a deferred table; R172 06_lookup_tables; reset 0. -/
  waiting : Bool := false
deriving DecidableEq, Repr

/-! ### Management: mailbox rings, rights, transactions, epochs (02_command_mailbox, 03_transactions_and_journal) -/

/-- What a completion holds (R39, R41, R42). -/
structure HeldDone where
  /-- the command; R39 02_command_mailbox; reset none, no completion waits. -/
  cmd : Cmd
  /-- 16 bits OPCODE; R39 02_command_mailbox; reset none, no completion waits. -/
  opcode : Nat
  /-- 16 bits STATUS; R39 02_command_mailbox; reset none, no completion waits. -/
  status : Nat
  /-- 16 bits DETAIL; R39 02_command_mailbox; reset none, no completion waits. -/
  detail : Nat
  /-- the result; R41 02_command_mailbox; reset none, no completion waits. -/
  result : List Byte
  /-- 64 bits JOURNAL_SEQ; R42 02_command_mailbox; reset none, no completion waits. -/
  seq : Nat
  /-- 64 bits GENERATION; R42 02_command_mailbox; reset none, no completion waits. -/
  gen : Nat
deriving DecidableEq, Repr

/-- One mailbox ring: MGT_MB_DOORBELL, MGT_MB_CONSUMER, MGT_MB_STATUS and MGT_MB_CONFIG. -/
structure MbRing where
  /-- 13 bits; R32, R35 02_command_mailbox; reset 0. -/
  producer : Nat := 0
  /-- 13 bits; R32 02_command_mailbox; reset 0. -/
  consumer : Nat := 0
  /-- 2 bits (0 disabled, 1 running, 2 halted; MGT_MB_STATUS shows a running ring as 3 paused during a firmware restart, R46); R31, R34 02_command_mailbox; reset 0, and 1 for ring 0 and the serial ring; 1 for the debug ring, for which the register's table names no reset value (DESIGN CHOICE, log entry 8). -/
  state : Nat := 0
  /-- 8 bits BAD_DOORBELL; R36 02_command_mailbox; reset 0. -/
  badDoorbell : Nat := 0
  /-- 4 bits HALT_CAUSE; R34 02_command_mailbox; reset 0. -/
  haltCause : Nat := 0
  /-- 4 bits LOG2_ENTRIES; R38 02_command_mailbox; reset 4 for ring 0, 0 otherwise. -/
  log2 : Nat := 0
  /-- 1 bit RESIDENT; R31 02_command_mailbox; reset 1 for ring 0, 0 otherwise. -/
  resident : Bool := false
  /-- 64 bits BASE; R38 02_command_mailbox; reset 0. -/
  base : Nat := 0
  /-- 1 bit, an entry is fetched or executing (IDLE is its inverse); R38, R41 02_command_mailbox; reset 0. -/
  executing : Bool := false
  /-- 5 bits, fetches of the entry that failed the POST_PHASE check; R34 02_command_mailbox; reset 0. -/
  tries : Nat := 0
  /-- UPTIME of the doorbell of each posted entry, oldest first; R411 14_time_and_monitors point 9; reset none. -/
  waits : List Nat := []
  /-- UPTIME of the ring's last completion; R411 14_time_and_monitors point 9; reset 0. -/
  lastDone : Nat := 0
  /-- the MBOX_RING_DISABLE that waits for this ring to become idle; R38 02_command_mailbox; reset none. -/
  disabling : Option Cmd := none
  /-- an entry that has been fetched and is held by a FENCE or by R43: its OPCODE and the command; R39, R43 02_command_mailbox; reset none. -/
  fetched : Option (Nat × Cmd) := none
  /-- a function level reset of PF0 found a command of this ring executing and waits for its end; R368 13_host_interface; reset 0. -/
  resetting : Bool := false
  /-- the completion of its entry, which waits while the function is in D3hot and issues no DMA; R41 02_command_mailbox, R366 13_host_interface; reset none. -/
  done : Option HeldDone := none
deriving DecidableEq, Repr

/-- One staged command of a transaction (R75). -/
structure Staged where
  /-- 16 bits, the staged command's OPCODE; R75 03_transactions_and_journal; reset none, nothing is staged. -/
  opcode : Nat
  /-- the staged command's entry as fetched; R75 03_transactions_and_journal; reset none, nothing is staged. -/
  cmd : Cmd
deriving DecidableEq, Repr

/-- One open transaction (R73-R78). -/
structure Txn where
  /-- 16 bits ORIGIN, set by TXN_OPEN; R74 03_transactions_and_journal; reset none, no transaction is open. -/
  origin : Nat := 0
  /-- 2 bits STATE, 1 open, 2 committing, set by TXN_OPEN; R74 03_transactions_and_journal; reset none, no transaction is open. -/
  state : Nat := 1
  /-- the staged commands in staging order, empty at TXN_OPEN; R75 03_transactions_and_journal; reset none, no transaction is open. -/
  staged : List Staged := []
  /-- 32 bits, entry writes staged, 0 at TXN_OPEN; R77 03_transactions_and_journal; reset none, no transaction is open. -/
  writes : Nat := 0
  /-- 32 bits, bytes staged, 0 at TXN_OPEN; R77 03_transactions_and_journal; reset none, no transaction is open. -/
  bytes : Nat := 0
  /-- 64 bits, UPTIME of its last command; R78 03_transactions_and_journal; reset none, no transaction is open. -/
  last : Nat := 0
deriving DecidableEq, Repr

/-- What a commit leaves for phase B of R80: deletes, releases and the second half of bank switches. -/
inductive Deferred where
  /-- an entry of a table instance marked deleted in the placement pass -/
  | entry (table inst : Nat) (key : List Byte)
  /-- a destroyed table (R163) -/
  | table (table : Nat)
  /-- the old copy of a rule group (R146) -/
  | group (group : Nat)
  /-- a mirror session being disabled (R216) -/
  | mirror (session : Nat)
deriving DecidableEq, Repr

/-- A journal record that a commit will write in its phase B (R89, R188). -/
structure PlanRec where
  /-- 16 bits OPCODE of the record; R88 03_transactions_and_journal; reset none, no commit is under way. -/
  opcode : Nat
  /-- 16 bits OBJECT of the record; R88 03_transactions_and_journal; reset none, no commit is under way. -/
  object : Nat
  /-- 32 bits RESOURCE of the record; R88 03_transactions_and_journal; reset none, no commit is under way. -/
  resource : Nat
  /-- bytes of the payload the record journals; R88, R89 03_transactions_and_journal; reset none, no commit is under way. -/
  payload : List Byte
  /-- 1 bit, the record is sent to the pair peer; R315 11_pair_operation; reset none, no commit is under way. -/
  replicated : Bool := true
deriving DecidableEq, Repr

/-- What a commit answers to when it is complete. -/
inductive CommitGoal where
  /-- the TXN_COMMIT or single C command in `cmd` -/
  | command
  /-- the firmware's pipeline program with this PROGRAM_HASH and artefact header; for an activation, its KINDS with the outcome so far, and the slot to which the directory returns if the program is refused (R223, R463) -/
  | program (hash header : List Byte) (activation : Option (Nat × Nat))
  /-- a replicated transaction whose commit record on the active has this SEQ and generation (R315) -/
  | replay (seq generation : Nat)
  /-- the snapshot of a synchronisation (R314) -/
  | snapshot
deriving DecidableEq, Repr

/-- A commit between its TXN_COMMIT and its completion (R80). -/
structure Commit where
  /-- the model's own number of the commit, any width; R80 03_transactions_and_journal; reset none, no commit is under way. -/
  id : Nat := 0
  /-- the command to complete, TXN_COMMIT or the single C command, or none; R52 02_command_mailbox, R80 03_transactions_and_journal; reset none, no commit is under way. -/
  cmd : Option Cmd := none
  /-- 16 bits, its OPCODE; R88 03_transactions_and_journal; reset none, no commit is under way. -/
  opcode : Nat := 0
  /-- 32 bits TXN_ID, 0 for a single command; R52 02_command_mailbox, R73 03_transactions_and_journal; reset none, no commit is under way. -/
  txn : Nat := 0
  /-- 16 bits ORIGIN of its records; R88 03_transactions_and_journal; reset none, no commit is under way. -/
  origin : Nat := 0
  /-- what it answers to; R80 03_transactions_and_journal, R223 07_stage_programs, R314, R315 11_pair_operation; reset none, no commit is under way. -/
  goal : CommitGoal := .command
  /-- the staged operations in staging order, until the commit point; R80 03_transactions_and_journal; reset none, no commit is under way. -/
  ops : List Staged := []
  /-- the records to write, in staging order; R89 03_transactions_and_journal; reset none, no commit is under way. -/
  recs : List PlanRec := []
  /-- 10-bit table numbers whose learning it defers; R80 03_transactions_and_journal; reset none, no commit is under way. -/
  held : List Nat := []
  /-- 1 bit, its phase A writes entries into HBM tables and has not ended; R80, R81 03_transactions_and_journal; reset none, no commit is under way. -/
  writing : Bool := false
  /-- the tables that its phase A writes, as they were before; R81 03_transactions_and_journal; reset none, no commit is under way. -/
  before : List (Nat × Table) := []
  /-- 1 bit, the commit point has not been reached and it waits; R67, R70 03_transactions_and_journal; reset none, no commit is under way. -/
  waiting : Bool := false
  /-- 1 bit WAITED of the result; R82 03_transactions_and_journal; reset none, no commit is under way. -/
  waited : Bool := false
  /-- 8 bits NEW_EPOCH of the result, 0xFF where the epoch did not advance; R82 03_transactions_and_journal; reset none, no commit is under way. -/
  newEpoch : Nat := 255
  /-- the packets that were in the ingress blocks at the commit point; R68 03_transactions_and_journal; reset none, no commit is under way. -/
  behind : List Nat := []
  /-- what phase B does; R80 03_transactions_and_journal; reset none, no commit is under way. -/
  deferred : List Deferred := []
  /-- bytes of the result of a single command; R52 02_command_mailbox, R80 03_transactions_and_journal; reset none, no commit is under way. -/
  result : List Byte := []
  /-- 32 bits ENTRY_WRITES of the result; R82 03_transactions_and_journal; reset none, no commit is under way. -/
  writes : Nat := 0
  /-- 64 bits, generation of the commit point; R80 03_transactions_and_journal; reset none, no commit is under way. -/
  generation : Nat := 0
  /-- 64 bits, UPTIME of the commit point; R88 03_transactions_and_journal; reset none, no commit is under way. -/
  at_ : Nat := 0
  /-- 64 bits, the SEQ whose acknowledgement by the standby the completion awaits, or none; R318 11_pair_operation; reset none, no commit is under way. -/
  ackSeq : Option Nat := none
deriving DecidableEq, Repr

/-- A tombstone (R84). -/
structure Tomb where
  /-- 1 bit, 0 an index or counter entry of a table, 1 a mirror session; R84 03_transactions_and_journal; reset none, no tombstone. -/
  kind : Nat
  /-- 10 bits, the table; R84 03_transactions_and_journal; reset none, no tombstone. -/
  table : Nat
  /-- 32 bits, the entry's index or the session; R84 03_transactions_and_journal; reset none, no tombstone. -/
  index : Nat
  /-- 64 bits, UPTIME of the release; R84 03_transactions_and_journal; reset none, no tombstone. -/
  at_ : Nat
  /-- the largest queue age limit in force since the release, in ns; R84 03_transactions_and_journal; reset none, no tombstone. -/
  limit : Nat
deriving DecidableEq, Repr

/-- The management block: rings, rights, transactions, generations and epochs. -/
structure Mgt where
  /-- mailbox rings by number: 0-3 PF0, 4 serial, 6 debug, 0x1000 + s slice s; R31 02_command_mailbox; reset per ring. -/
  rings : NMap MbRing := []
  /-- 8 KiB, the mailbox page's entries of ring 0; R31 02_command_mailbox; reset zeros (DESIGN CHOICE, log entry 7). -/
  page : List Host.Cell := []
  /-- 64 bits, rights mask of the management serial origin; R56 02_command_mailbox; reset R of every class, change of DEVICE, FAULT and FIRMWARE. -/
  serialMask : Nat := 0
  /-- 64 bits, rights mask of the debug origin; R56 02_command_mailbox; reset 0. -/
  debugMask : Nat := 0
  /-- 1 bit, a serial command is outstanding; R61 02_command_mailbox; reset 0. -/
  serialBusy : Bool := false
  /-- a serial request received while no command is dispatched: the message body after the vendor identifier; R46, R60 02_command_mailbox; reset none. -/
  serialReq : Option (List Byte) := none
  /-- MCTP messages dropped as malformed; R61 02_command_mailbox; reset 0 (DESIGN CHOICE, log entry 8: the spec gives the count no register). -/
  serialDrops : Nat := 0
  /-- 16 bits, MBOX_ADDR of the debug path; R62 02_command_mailbox; reset 0 (DESIGN CHOICE, log entry 8). -/
  dbgAddr : Nat := 0
  /-- 1 bit, an entry of the debug ring is posted and has not completed; R46, R62 02_command_mailbox; reset 0. -/
  dbgPost : Bool := false
  /-- 2 bits DBG_STATE; R62 02_command_mailbox; reset 0 idle. -/
  dbgState : Nat := 0
  /-- 136 words of 64 bits, the debug ring's entry; R62 02_command_mailbox; reset zeros (DESIGN CHOICE, log entry 8). -/
  dbgWords : NMap Nat := []
  /-- 64 bits, the word the last Capture-DR of MBOX_DATA loaded; R62 02_command_mailbox; reset 0 (DESIGN CHOICE, log entry 8). -/
  dbgShift : Nat := 0
  /-- commands dispatched from the high band since the last one of the low band; R44 02_command_mailbox; reset 0. -/
  highRun : Nat := 0
  /-- last ring of each band that was dispatched (high, low); R44 02_command_mailbox; reset (6, 0x1FFF) (DESIGN CHOICE, log entry 9). -/
  lastRing : Nat × Nat := (6, 0x1FFF)
  /-- open transactions by TXN_ID; R73 03_transactions_and_journal; reset none. -/
  txns : NMap Txn := []
  /-- 32 bits, next TXN_ID handed out; R73 03_transactions_and_journal; reset 1. -/
  nextTxn : Nat := 1
  /-- commits under way; R80 03_transactions_and_journal; reset none. -/
  commits : List Commit := []
  /-- the model's own number of the next commit; R80 03_transactions_and_journal; reset 0 (the model's own, log entry 2). -/
  nextCommit : Nat := 0
  /-- 64 bits; R64 03_transactions_and_journal; reset 1. -/
  generation : Nat := 1
  /-- 3 bits CUR_TAG; R65 03_transactions_and_journal; reset 0. -/
  curTag : Nat := 0
  /-- 8 bits LIVE, the live tags; R66 03_transactions_and_journal; reset tag 0 only. -/
  live : List Nat := [0]
  /-- 1 bit, the epoch before the current one has retired from ingress; R68, R70 03_transactions_and_journal; reset 1. -/
  ingressRetired : Bool := true
  /-- 1 bit, it has retired from egress; R68, R70 03_transactions_and_journal; reset 1. -/
  egressRetired : Bool := true
  /-- per tag of a live epoch that is no longer current, the tables that its stage programs referred to; R163 06_lookup_tables; reset none. -/
  liveRefs : NMap (List Nat) := []
  /-- tombstones; R84 03_transactions_and_journal; reset none. -/
  tombs : List Tomb := []
  /-- phase B work named while the operations of one commit are placed, empty between commands; R80 03_transactions_and_journal; reset none (the model's own, log entry 2). -/
  deferring : List Deferred := []
  /-- evictions made while one operation is placed, empty between commands; R187, R188 06_lookup_tables; reset none (the model's own, log entry 2). -/
  evicting : List PlanRec := []
  /-- cuckoo relocations made while the operations of one commit are placed; 0 between commands; R82 03_transactions_and_journal; reset 0. -/
  moves : Nat := 0
  /-- UPTIME at which a warm reset asked for by DEVICE_RESET starts; R481 18_power_clocks_reset; reset none. -/
  resetAt : Option Nat := none
deriving DecidableEq, Repr

/-- One journal record: bytes 0-47 and CHAIN (R88). -/
structure JRec where
  /-- 64 bits SEQ; R88 03_transactions_and_journal; reset none, the journal is empty. -/
  seq : Nat
  /-- 8 bits TYPE; R88 03_transactions_and_journal; reset none, the journal is empty. -/
  typ : Nat
  /-- 48 bytes, bytes 0-47 of the record; R88 03_transactions_and_journal; reset none, the journal is empty. -/
  body : List Byte
  /-- 128 bits CHAIN; R88 03_transactions_and_journal; reset none, the journal is empty. -/
  chain : Nat
deriving DecidableEq, Repr

/-- An open learning, aging or Tahr batch (R90). -/
structure Batch where
  /-- 10 bits, the table; R90 03_transactions_and_journal; reset none, no batch is open. -/
  table : Nat
  /-- 3 bits, the instance; R90 03_transactions_and_journal; reset none, no batch is open. -/
  inst : Nat
  /-- 32 bits RESOURCE of its record; R90 03_transactions_and_journal; reset none, no batch is open. -/
  resource : Nat
  /-- 1 bit, an aging batch (deletes), else inserts; R90 03_transactions_and_journal; reset none, no batch is open. -/
  delete : Bool
  /-- 64 bits, UPTIME of its first change; R90 03_transactions_and_journal; reset none, no batch is open. -/
  first : Nat
  /-- its entries in the TABLE_BULK entry format, in order; R90 03_transactions_and_journal; reset none, no batch is open. -/
  entries : List (List Byte)
deriving DecidableEq, Repr

/-- The change journal (R85-R97). -/
structure Journal where
  /-- the unreleased records, oldest first; R88 03_transactions_and_journal; reset none. -/
  recs : List JRec := []
  /-- 64 bits MGT_JOURNAL_HEAD, next SEQ; R88 03_transactions_and_journal; reset 1 (SEQ from 1 after power-on reset). -/
  head : Nat := 1
  /-- 64 bits MGT_JOURNAL_RELEASE, oldest unreleased SEQ; R94 03_transactions_and_journal; reset 1. -/
  release : Nat := 1
  /-- SEQ up to which JOURNAL_RELEASE has been asked to release; R94 03_transactions_and_journal, R319 11_pair_operation; reset 0. -/
  relWanted : Nat := 0
  /-- 128 bits, the last CHAIN; R92 03_transactions_and_journal; reset BOOT in 4 bytes, set by the boot. -/
  chain : Nat := 0
  /-- 48 bits, base of the region; R86 03_transactions_and_journal; reset 0x1000_0000_0000, the base of H0. -/
  base : Nat := 0x100000000000
  /-- 14 bits, size of the region in MiB; R86 03_transactions_and_journal; reset 4,096. -/
  sizeMib : Nat := 4096
  /-- 1 bit SRAM_JOURNAL; R87 03_transactions_and_journal; reset 0 (RWS). -/
  sram : Bool := false
  /-- 1 bit LEARN_PAUSED; R95 03_transactions_and_journal; reset 0. -/
  learnPaused : Bool := false
  /-- UPTIME since which learning and aging have been paused; R95 03_transactions_and_journal, R505 06_lookup_tables; reset none. -/
  pauseSince : Option Nat := none
  /-- ns of UPTIME spent in pauses that have ended; R505 06_lookup_tables; reset 0. -/
  pausedNs : Nat := 0
  /-- 1 bit FULL; R95 03_transactions_and_journal; reset 0. -/
  full : Bool := false
  /-- 16 bits DENIED_UNRECORDED; R48 02_command_mailbox, 03_transactions_and_journal; reset 0. -/
  denied : Nat := 0
  /-- 32 bits LEARN_DROPS; R80, R96 03_transactions_and_journal; reset 0. -/
  learnDrops : Nat := 0
  /-- open batches; R90 03_transactions_and_journal; reset none. -/
  batches : List Batch := []
  /-- the payload area's held payloads: (SEQ of the record, offset, bytes); R88 03_transactions_and_journal; reset none. -/
  payloads : List (Nat × Nat × List Byte) := []
  /-- next offset of the payload area; R88 03_transactions_and_journal; reset 0 (DESIGN CHOICE, log entry 10). -/
  payloadNext : Nat := 0
  /-- UPTIME of the last checkpoint; R93 03_transactions_and_journal; reset 0. -/
  ckptAt : Nat := 0
  /-- records since the last checkpoint; R93 03_transactions_and_journal; reset 0. -/
  ckptRecs : Nat := 0
  /-- checkpoints whose signature is being computed: (SEQ, the 64 bytes of the record); R93 03_transactions_and_journal; reset none. -/
  sigPending : List (Nat × List Byte) := []
  /-- link state and switch changes awaiting their record: (UPTIME, OBJECT); R123 04_network_ports; reset none. -/
  linkPending : List (Nat × Nat) := []
deriving DecidableEq, Repr

/-! ### Time (14_time_and_monitors) -/

/-- One port's transmit stamp log (R406). -/
structure StampLog where
  /-- 32 bits TIME_TXTS_COUNT; R406 14_time_and_monitors; reset 0. -/
  count : Nat := 0
  /-- 64 entries of 16 bytes: (NTIME, TS_ID, SEQ); R406 14_time_and_monitors; reset zeros (DESIGN CHOICE, log entry 8). -/
  entries : NMap (Nat × Nat × Nat) := []
deriving DecidableEq, Repr

/-- The timebase. -/
structure Timebase where
  /-- 64 bits UPTIME in ns; R399 14_time_and_monitors; reset 0. -/
  uptime : Nat := 0
  /-- 64 bits NTIME in ns; R400 14_time_and_monitors; reset equal to UPTIME, 0. -/
  ntime : Nat := 0
  /-- 32 bits NTIME fraction; R400 14_time_and_monitors; reset 0. -/
  frac : Nat := 0
  /-- signed, TIME_RATE; R402 14_time_and_monitors; reset 0. -/
  rate : Int := 0
  /-- 1 bit STEERED; R403 14_time_and_monitors; reset 0. -/
  steered : Bool := false
  /-- 16 bits STEPS; R401 14_time_and_monitors; reset 0. -/
  steps : Nat := 0
  /-- the step that the next tick takes: (MODE, VALUE); R401 14_time_and_monitors; reset none. -/
  nextStep : Option (Nat × Int) := none
  /-- the rate that the next tick takes; R402 14_time_and_monitors; reset none. -/
  nextRate : Option Int := none
  /-- signed ns, PEER_OFFSET; R404 14_time_and_monitors; reset 0. -/
  peerOffset : Int := 0
  /-- 1 bit PPS_OUT enable; R407 14_time_and_monitors; reset 0. -/
  ppsOutOn : Bool := false
  /-- 1 bit PPS_IN enable; R408 14_time_and_monitors; reset 0. -/
  ppsInOn : Bool := false
  /-- 1 bit IN_EDGE; R408 14_time_and_monitors; reset 0. -/
  ppsFalling : Bool := false
  /-- 32 bits WIDTH_NS; R407 14_time_and_monitors; reset 100,000,000. -/
  ppsWidth : Nat := 100000000
  /-- 32 bits PHASE_NS; R407 14_time_and_monitors; reset 0. -/
  ppsPhase : Nat := 0
  /-- 1 bit, level of PPS_OUT; R407 14_time_and_monitors; reset low. -/
  ppsHigh : Bool := false
  /-- UPTIME at which PPS_OUT falls; R407 14_time_and_monitors; reset 0. -/
  ppsFallAt : Nat := 0
  /-- NTIME from which an edge time has not yet produced a pulse; R407 14_time_and_monitors; reset 0. -/
  ppsNext : Nat := 0
  /-- 32 bits PPS_GLITCH; R408 14_time_and_monitors; reset 0. -/
  ppsGlitch : Nat := 0
  /-- 64 bits TIME_PPS_IN_NTIME; R408 14_time_and_monitors; reset 0 (DESIGN CHOICE, log entry 8). -/
  ppsInNtime : Nat := 0
  /-- 64 bits TIME_PPS_IN_UPTIME; R408 14_time_and_monitors; reset 0 (DESIGN CHOICE, log entry 8). -/
  ppsInUptime : Nat := 0
  /-- 64 bits TIME_PPS_IN_COUNT; R408 14_time_and_monitors; reset 0 (DESIGN CHOICE, log entry 8). -/
  ppsInCount : Nat := 0
  /-- transmit stamp logs by port; R406 14_time_and_monitors; reset empty. -/
  stamps : NMap StampLog := []
deriving DecidableEq, Repr

/-! ### Network ports (04_network_ports) -/

/-- Physical section of PORT_CONFIG. -/
structure Phys where
  /-- 8 bits SPEED; R99, R102 04_network_ports; reset none, no physical section is committed. -/
  speed : Nat
  /-- 8 bits LANE_RATE; R99, R102 04_network_ports; reset none, no physical section is committed. -/
  rate : Nat
  /-- 8 bits FIRST_LANE; R99, R102 04_network_ports; reset none, no physical section is committed. -/
  firstLane : Nat
  /-- 8 bits FEC; R99, R102 04_network_ports; reset none, no physical section is committed. -/
  fec : Nat
  /-- 8 bits TRAINING; R99, R102 04_network_ports; reset none, no physical section is committed. -/
  training : Nat
  /-- 8 bits FRAMED; R99, R102 04_network_ports; reset none, no physical section is committed. -/
  framed : Nat
  /-- 8 bits TX_INVERT; R99, R102 04_network_ports; reset none, no physical section is committed. -/
  txInvert : Nat
  /-- 8 bits RX_INVERT; R99, R102 04_network_ports; reset none, no physical section is committed. -/
  rxInvert : Nat
deriving DecidableEq, Repr

/-- Forwarding section of PORT_CONFIG; each default is its reset value (04_network_ports, SECTION 1). -/
structure Fwd where
  /-- 16 bits; R106 04_network_ports; reset 9,216. -/
  maxFrame : Nat := 9216
  /-- 2 bits; R124 04_network_ports; reset 0 (DESIGN CHOICE, log entry 8). -/
  flow : Nat := 0
  /-- 8 bits; R124 04_network_ports; reset 0 (it must be 0 unless FLOW is 2). -/
  pfcMask : Nat := 0
  /-- 32 bits; R119 04_network_ports; reset 2,000. -/
  holdUs : Nat := 2000
  /-- 32 bits; R119 04_network_ports; reset 1,000. -/
  upDelayUs : Nat := 1000
  /-- 16 bits; R126 04_network_ports; reset 0. -/
  stormMs : Nat := 0
  /-- 12 bits; R154 05_parser_and_classification; reset 0 (DESIGN CHOICE, log entry 8). -/
  defaultAction : Nat := 0
  /-- 48 bits, first octet lowest; R125 04_network_ports; reset 0. -/
  sourceMac : Nat := 0
deriving DecidableEq, Repr

/-- One MACsec SA (R108-R112). -/
structure Sa where
  /-- 8 bits DIRECTION; R108 04_network_ports; reset none, no SA is set. -/
  direction : Nat
  /-- 8 bits AN, 0 to 3; R108 04_network_ports; reset none, no SA is set. -/
  an : Nat
  /-- 8 bits SC_INDEX, 0 to 15; R108 04_network_ports; reset none, no SA is set. -/
  sc : Nat
  /-- 8 bits MODE; R108 04_network_ports; reset none, no SA is set. -/
  mode : Nat
  /-- 32 bits SSCI; R108 04_network_ports; reset none, no SA is set. -/
  ssci : Nat
  /-- 64 bits SCI; R108 04_network_ports; reset none, no SA is set. -/
  sci : Nat
  /-- 64 bits PN; transmit: next PN; receive: lowest acceptable PN; R108, R112 04_network_ports; reset none, no SA is set. -/
  pn : Nat
  /-- 64 bits; receive: the next PN expected; R112 04_network_ports; reset none, no SA is set. -/
  next : Nat
  /-- 64 bits, PN as last committed, for PORT_GET; R131 04_network_ports; reset none, no SA is set. -/
  setPn : Nat
  /-- 12 bytes SALT; R108 04_network_ports; reset none, no SA is set. -/
  salt : List Byte
  /-- 32 bits REPLAY_WINDOW; R108 04_network_ports; reset none, no SA is set. -/
  window : Nat
  /-- 32 bytes SAK; R108 04_network_ports; reset none, no SA is set. -/
  sak : List Byte
  /-- 1 bit, PN_WARN was raised for this SA; R111 04_network_ports; reset none, no SA is set. -/
  warned : Bool
deriving DecidableEq, Repr

/-- Framed section of PORT_CONFIG (R113, R115). -/
structure Framed where
  /-- 8 bits INTERFACE; R113 04_network_ports; reset none, no framed section is committed. -/
  interface : Nat
  /-- 8 bits TIM_MODE; R115 04_network_ports; reset none, no framed section is committed. -/
  timMode : Nat
  /-- 8 bits TIM_ACT; R115 04_network_ports; reset none, no framed section is committed. -/
  timAct : Nat
  /-- 16 bytes EXP_SAPI; R115 04_network_ports; reset none, no framed section is committed. -/
  expSapi : List Byte
  /-- 16 bytes EXP_DAPI; R115 04_network_ports; reset none, no framed section is committed. -/
  expDapi : List Byte
  /-- 64 bytes TX_TTI; R115 04_network_ports; reset none, no framed section is committed. -/
  txTti : List Byte
deriving DecidableEq, Repr

/-- One network port: NET_PORT_STATUS and what stands behind it. -/
structure Port where
  /-- physical section as last committed; R102 04_network_ports; reset none. -/
  phys : Option Phys := none
  /-- forwarding section in force; R102 04_network_ports; reset values of the section. -/
  fwd : Fwd := {}
  /-- MACsec SAs set; R108 04_network_ports; reset none. -/
  sas : List Sa := []
  /-- framed section as last committed; R113 04_network_ports; reset none. -/
  framed : Option Framed := none
  /-- 1 bit, administratively enabled; R103 04_network_ports; reset 0. -/
  enabled : Bool := false
  /-- 2 bits LINK_STATE; R119 04_network_ports; reset 0 DISABLED. -/
  link : Nat := 0
  /-- 1 bit LIVE; R120 04_network_ports; reset 0. -/
  live : Bool := false
  /-- the conditions of R118 that hold; R118 04_network_ports; reset none. -/
  conds : List PortCond := []
  /-- no condition of R118 holds, as last found (LINK_GOOD); R119 04_network_ports; reset 0. -/
  good : Bool := false
  /-- UPTIME at which the up delay started; R119 04_network_ports; reset none. -/
  upSince : Option Nat := none
  /-- UPTIME of the entry to HOLD; R119 04_network_ports; reset none. -/
  holdSince : Option Nat := none
  /-- 8 bits RX_PAUSED; R124 04_network_ports; reset 0. -/
  rxPaused : Nat := 0
  /-- UPTIME in ns at which each priority resumes; R124 04_network_ports; reset none. -/
  pauseEnd : NMap Nat := []
  /-- UPTIME from which each priority has been paused without interruption; R126 04_network_ports; reset none. -/
  pausedSince : NMap Nat := []
  /-- 8 bits TX_XOFF; R125 04_network_ports; reset 0. -/
  txXoff : Nat := 0
  /-- UPTIME of the last XOFF sent for each priority (0 for link pause); R125 04_network_ports; reset none. -/
  xoffAt : NMap Nat := []
  /-- 8 bits STORM; R126 04_network_ports; reset 0. -/
  storm : Nat := 0
  /-- UPTIME at which the storm of each priority began; R126 04_network_ports; reset none. -/
  stormSince : NMap Nat := []
  /-- 1 bit LOS of R116; R116 04_network_ports; reset 0. -/
  los : Bool := false
  /-- 1 bit LOF; R116 04_network_ports; reset 0. -/
  lof : Bool := false
  /-- 1 bit TIM; R115 04_network_ports; reset 0. -/
  tim : Bool := false
  /-- 1 bit BDI_RX; R117 04_network_ports; reset 0. -/
  bdiRx : Bool := false
  /-- the accepted TTI; R115 04_network_ports; reset none. -/
  tti : Option (List Byte) := none
  /-- the TTI being counted and how often it was received; R115 04_network_ports; reset none. -/
  ttiSeen : List Byte × Nat := ([], 0)
  /-- 1 bit PN_WARN; R111 04_network_ports; reset 0. -/
  pnWarn : Bool := false
  /-- 24 bits DOWN_COUNT; R119 04_network_ports; reset 0. -/
  downCount : Nat := 0
  /-- 8 bits CHANGE of PORT_STATUS messages; R298 10_fabric_interface; reset 0 (DESIGN CHOICE, log entry 8). -/
  change : Nat := 0
deriving DecidableEq, Repr

/-- One protection group (R127-R129, R502). -/
structure ProtGroup where
  /-- 1 bit; R129 04_network_ports; reset 0 (DESIGN CHOICE, log entry 8). -/
  revertive : Bool := false
  /-- 16 bits; R129 04_network_ports; reset 5. -/
  wtrS : Nat := 5
  /-- 32 bits PRIMARY, set by PORT_PROTECT_SET; R127 04_network_ports; reset none, no group is set. -/
  primary : Nat := 0
  /-- 32 bits BACKUP, set by PORT_PROTECT_SET; R127 04_network_ports; reset none, no group is set. -/
  backup : Nat := 0
  /-- 2 bits ACTIVE; R128 04_network_ports; reset 0. -/
  active : Nat := 0
  /-- UPTIME at which the running wait-to-restore ends; R129 04_network_ports; reset none. -/
  wtrEnd : Option Nat := none
  /-- 32 bits SWITCH_COUNT; R128 04_network_ports; reset 0. -/
  switches : Nat := 0
deriving DecidableEq, Repr

/-- A frame that left the staging checks and waits for a header slot, or an injected frame (R27, R101, R351, R387). -/
structure Arrival where
  /-- up to 16,000 octets, the frame without FCS; R101 04_network_ports; reset none, staging and injection queues are empty. -/
  bytes : List Byte
  /-- 64 bits RX_TIME; R142 05_parser_and_classification; reset none, no arrival. -/
  rxTime : Nat := 0
  /-- 1 bit, received under MACsec protection; R142 05_parser_and_classification; reset none, no arrival. -/
  macsec : Bool := false
  /-- 1 bit, received on a framed port; R142 05_parser_and_classification; reset none, no arrival. -/
  framed : Bool := false
  /-- 12 bits, sending slice of a host frame; R142 05_parser_and_classification, R387 13_host_interface; reset none, no arrival. -/
  slice : Nat := 0
  /-- 44 bytes, metadata bytes 84-127 carried by a reinjected packet; R351 12_packet_cores; reset none, no arrival. -/
  carried : List Byte := []
deriving DecidableEq, Repr

/-! ### Parser, stages, packets in the pipelines (05, 07) -/

/-- The parser configuration, one bank (R133-R158). -/
structure ParserCfg where
  /-- state entries, 128 bits each; R133 05_parser_and_classification; reset none. -/
  states : List Nat := []
  /-- start table, 32 bits each, entry 0 first; R137 05_parser_and_classification; reset zeros. -/
  start : List Nat := []
  /-- transition TCAM: (VALUE, MASK, RESULT); R135 05_parser_and_classification; reset none. -/
  tcam : List (Nat × Nat × Nat) := []
  /-- default actions given at load, 128 bits each; R153 05_parser_and_classification; reset none. -/
  defaults : List Nat := []
  /-- hash profiles given at load, 256 bits each; R155 05_parser_and_classification; reset none. -/
  profiles : List Nat := []
deriving DecidableEq, Repr

/-- A lookup binding (R192). -/
structure Binding where
  /-- 16 bits TABLE, 0xFFFF for none; R192 07_stage_programs; reset TABLE 0xFFFF, an empty stage. -/
  table : Nat := 0xFFFF
  /-- up to 8 fragments: (space, offset, length), 3 bytes each; R192 07_stage_programs; reset TABLE 0xFFFF, an empty stage. -/
  frags : List (Nat × Nat × Nat) := []
  /-- 8 bits ACTION_SEL; R192 07_stage_programs; reset TABLE 0xFFFF, an empty stage. -/
  actionSel : Nat := 0
  /-- 16 bits HIT_ACTION; R192 07_stage_programs; reset TABLE 0xFFFF, an empty stage. -/
  hit : Nat := 0
  /-- 16 bits MISS_ACTION, 0xFFFF for none; R192 07_stage_programs; reset TABLE 0xFFFF, an empty stage. -/
  miss : Nat := 0xFFFF
  /-- the 32 bytes as loaded, for STAGE_GET; R222 07_stage_programs; reset empty, read as the reset binding. -/
  raw : List Byte := []
deriving DecidableEq, Repr

/-- A stage image (R222). -/
structure StageImg where
  /-- up to 2,048 action words of 64 bits; R191, R222 07_stage_programs; reset empty stage. -/
  words : List Nat := []
  /-- lookup binding A; R191, R222 07_stage_programs; reset empty stage. -/
  a : Binding := {}
  /-- lookup binding B; R191, R222 07_stage_programs; reset empty stage. -/
  b : Binding := {}
deriving DecidableEq, Repr

/-- Parameters of a policer (R209-R212). -/
structure PolicerCfg where
  /-- 8 bits MODE; R209, R212 07_stage_programs; reset MODE 0. -/
  mode : Nat := 0
  /-- 8 bits LEN_ADJ, signed; R209, R212 07_stage_programs; reset MODE 0. -/
  lenAdj : Int := 0
  /-- 16 bits M of CIR; R209, R212 07_stage_programs; reset MODE 0. -/
  cirM : Nat := 0
  /-- 8 bits E of CIR; R209, R212 07_stage_programs; reset MODE 0. -/
  cirE : Nat := 0
  /-- 16 bits M of PIR; R209, R212 07_stage_programs; reset MODE 0. -/
  pirM : Nat := 0
  /-- 8 bits E of PIR; R209, R212 07_stage_programs; reset MODE 0. -/
  pirE : Nat := 0
  /-- 32 bits CBS in octets; R209, R212 07_stage_programs; reset MODE 0. -/
  cbs : Nat := 0
  /-- 32 bits PBS in octets; R209, R212 07_stage_programs; reset MODE 0. -/
  pbs : Nat := 0
  /-- 16 bits COUNTER_TABLE, 0xFFFF for none; R209, R212 07_stage_programs; reset MODE 0. -/
  counterTable : Nat := 0xFFFF
  /-- 32 bits COUNTER_BASE; R209, R212 07_stage_programs; reset MODE 0. -/
  counterBase : Nat := 0
deriving DecidableEq, Repr

/-- One bank of the double-banked configuration (R69, R144, R191, R212). -/
structure Bank where
  /-- parser configuration; R144 05_parser_and_classification; reset of R154. -/
  parser : ParserCfg := {}
  /-- stage programs, 0-15 ingress, 16-23 egress; R191 07_stage_programs; reset empty. -/
  stages : NMap StageImg := []
  /-- policer parameters; R212 07_stage_programs; reset MODE 0. -/
  policers : NMap PolicerCfg := []
deriving DecidableEq, Repr

/-- Bucket contents of a policer in units of 1/8,000,000 octet (R209, R212). -/
structure Buckets where
  /-- 32 bits of octets, TC in units of 1/8,000,000 octet; R209, R212 07_stage_programs; reset 0. -/
  tc : Nat := 0
  /-- 32 bits of octets, TP in units of 1/8,000,000 octet; R209, R212 07_stage_programs; reset 0. -/
  tp : Nat := 0
  /-- 64 bits, UPTIME of the last charge; R209, R212 07_stage_programs; reset 0. -/
  last : Nat := 0
deriving DecidableEq, Repr

/-- A mirror session (R214-R216). -/
structure Mirror where
  /-- 1 bit ENABLE; R214 07_stage_programs; reset disabled. -/
  enabled : Bool := false
  /-- 8 bits TRUNCATE; R214 07_stage_programs; reset disabled. -/
  truncate : Nat := 0
  /-- 8 bits CLASS; R214 07_stage_programs; reset disabled. -/
  cls : Nat := 0
  /-- 8 bits DEST_KIND; R214 07_stage_programs; reset disabled. -/
  destKind : Nat := 0
  /-- 32 bits EGRESS_INDEX; R214 07_stage_programs; reset disabled. -/
  egressIndex : Nat := 0
  /-- 16 bits CHANNEL; R214 07_stage_programs; reset disabled. -/
  channel : Nat := 0
  /-- 32 bits REWRITE, 0xFFFF_FFFF keeps NEXT_HOP; R214 07_stage_programs; reset disabled. -/
  rewrite : Nat := 0
deriving DecidableEq, Repr

/-- A sampler (R217, R218). -/
structure Sampler where
  /-- 8 bits TRUNCATE; R217 07_stage_programs; reset MODE 0, off. -/
  truncate : Nat := 0
  /-- 8 bits MODE; R217 07_stage_programs; reset MODE 0, off. -/
  mode : Nat := 0
  /-- 32 bits N; R217 07_stage_programs; reset MODE 0, off. -/
  n : Nat := 0
  /-- 16 bits CHANNEL; R217 07_stage_programs; reset MODE 0, off. -/
  channel : Nat := 0
  /-- 32 bits SEED; R218 07_stage_programs; reset 0. -/
  seed : Nat := 0
  /-- 32 bits, packets until the next sample; R217 07_stage_programs; reset 0. -/
  countdown : Nat := 0
deriving DecidableEq, Repr

/-- A packet in the parser and stages, or between a stage pipeline and the buffer or the line (R142, R200). -/
structure Pkt where
  /-- up to 16,000 octets, the frame without FCS; R142 05_parser_and_classification; reset none, no packet is in a pipeline. -/
  frame : List Byte := []
  /-- 256 bytes of metadata; R142 05_parser_and_classification, R200 07_stage_programs; reset none, no packet is in a pipeline. -/
  meta_ : List Byte := []
  /-- 256 bytes of header vector; R141 05_parser_and_classification; reset none, no packet is in a pipeline. -/
  hv : List Byte := []
  /-- 8 bits, source under the start table; R137 05_parser_and_classification; reset none, no packet is in a pipeline. -/
  source : Nat := 0
  /-- 4 bits, ingress or egress pipeline, 0-11; R98 04_network_ports; reset none, no packet is in a pipeline. -/
  pipe : Nat := 0
  /-- 1 bit, the packet is at egress; R69 03_transactions_and_journal, R200 07_stage_programs; reset none, no packet is in a pipeline. -/
  egress : Bool := false
  /-- 5 bits, next stage of its pipeline, 0-16 (0-8 at egress); R191 07_stage_programs; reset none, no packet is in a pipeline. -/
  stage : Nat := 0
  /-- 3 bits, epoch tag taken at parser entry; R144 05_parser_and_classification; reset none, no packet is in a pipeline. -/
  tag : Nat := 0
  /-- 1 bit, BANK of its EPOCH byte; R69 03_transactions_and_journal, R144 05_parser_and_classification; reset none, no packet is in a pipeline. -/
  bank : Nat := 0
  /-- 64 bits, UPTIME of its parser entry; R266 09_queues_and_scheduling; reset none, no packet is in a pipeline. -/
  born : Nat := 0
  /-- operations started: POLICE, COUNT, MIRROR, SAMPLE, LEARN, small counts; R197 07_stage_programs; reset none, no packet is in a pipeline. -/
  used : Nat × Nat × Nat × Nat × Nat := (0, 0, 0, 0, 0)
  /-- signed net growth of the frame at egress in octets; R197, R220 07_stage_programs; reset none, no packet is in a pipeline. -/
  growth : Int := 0
  /-- miss copies due: (10-bit table, 16-bit channel); R165 06_lookup_tables; reset none, no packet is in a pipeline. -/
  missCopies : List (Nat × Nat) := []
  /-- reason code of a drop already due (stale object, rewrite error), or none; R84 03_transactions_and_journal, R220 07_stage_programs; reset none, no packet is in a pipeline. -/
  dropped : Option Nat := none
  /-- head handle of the frame left in the buffer, for an egress packet; R225 08_buffer_manager; reset none, no packet is in a pipeline. -/
  handle : Nat := 0
  /-- 17 bits, egress queue it left; R200 07_stage_programs; reset none, no packet is in a pipeline. -/
  queue : Nat := 0
  /-- 6 bits, the egress mirror session requested, or none; R215 07_stage_programs; reset none, no packet is in a pipeline. -/
  mirror : Option Nat := none
  /-- (channel, kind) of a copy or of TO_CHANNEL decided at the end of ingress, or none; R153 05_parser_and_classification, R207 07_stage_programs; reset none, no packet is in a pipeline. -/
  channel : Option (Nat × Nat) := none
  /-- 17 bits, VOQ group of its destination at the end of ingress, or none; R205 07_stage_programs; reset none, no packet is in a pipeline. -/
  group : Option Nat := none
  /-- 6 bits, the session of which it is an egress mirror copy, or none; R215 07_stage_programs; reset none, no packet is in a pipeline. -/
  mirrorOf : Option Nat := none
  /-- 1 bit, the egress stages are done and the frame stands at the transmitter; R221 07_stage_programs; reset none, no packet is in a pipeline. -/
  ready : Bool := false
  /-- 12 bits, DEFAULT_ACTION of its source in the bank it took at parser entry; R152 05_parser_and_classification; reset none, no packet is in a pipeline. -/
  defaultIdx : Nat := 0
  /-- 16 bits, MAX_FRAME of its port in the bank it took at egress entry; R221 07_stage_programs; reset none, no packet is in a pipeline. -/
  maxFrame : Nat := 0
  /-- ns until its gate next closes, at its dequeue, none where the gate never closes; R276, R277 09_queues_and_scheduling; reset none, no packet is in a pipeline. -/
  gateLeft : Option Nat := none
deriving DecidableEq, Repr

/-- A message in class DC0 of the die bridge (R13, R15). -/
inductive BridgeMsg where
  /-- an ingress packet, by the model's own number -/
  | packet (n : Nat)
  /-- an epoch marker: the tag of the epoch that begins behind it -/
  | marker (tag : Nat)
deriving DecidableEq, Repr

/-! ### Buffer manager (08_buffer_manager) -/

/-- A packet's head segment with the metadata and frame it records (R224, R225, R231). -/
structure Head where
  /-- 8 bits SEQ of the head's allocation; R225 08_buffer_manager; reset none, no packet is held. -/
  seq : Nat := 0
  /-- 5 bits OWNER; R228 08_buffer_manager; reset none, no packet is held. -/
  owner : Nat := 0
  /-- 6 bits POOL charged; R225 08_buffer_manager; reset none, no packet is held. -/
  pool : Nat := 0
  /-- 20 bits, first body segment, where the frame has a body; R225 08_buffer_manager; reset none, no packet is held. -/
  body : Option Nat := none
  /-- 128 bytes of carried metadata; R200 07_stage_programs; reset none, no packet is held. -/
  meta_ : List Byte := []
  /-- the frame octets the packet holds, shared body octets included; R231 08_buffer_manager; reset none, no packet is held. -/
  frame : List Byte := []
  /-- 14 bits REC_LEN, octets recorded; R231 08_buffer_manager, R347 12_packet_cores; reset none, no packet is held. -/
  recLen : Nat := 0
  /-- 256 bytes, header vector from which the excerpt of a descriptor is taken; R347 12_packet_cores; reset none, no packet is held. -/
  hv : List Byte := []
  /-- 64 bits, UPTIME, age origin; it lies before this device's reset where a carried age is longer than UPTIME; R266 09_queues_and_scheduling; reset none, no packet is held. -/
  origin : Int := 0
  /-- 64 bits, UPTIME of the enqueue on the queue that holds it; R266 09_queues_and_scheduling, R411 14_time_and_monitors; reset none, no packet is held. -/
  enq : Nat := 0
  /-- 64 bits, UPTIME of its VOQ enqueue for SOJOURN_NS, none where it passed no VOQ; R200 07_stage_programs; reset none, no packet is held. -/
  voqAt : Option Int := none
  /-- 11 bits, account charged (port × 8 + class), or none; R239 08_buffer_manager; reset none, no packet is held. -/
  account : Option Nat := none
  /-- 9 bits, the thread whose operation last reached it, or none; R233 08_buffer_manager; reset none, no packet is held. -/
  thread : Option Nat := none
deriving DecidableEq, Repr

/-- A body: its segments and reference count (R225, R231). -/
structure Body where
  /-- the segments of 20 bits, first to last; R225, R231 08_buffer_manager; reset none, no body is held. -/
  segs : List Nat := []
  /-- 14 bits, frame octets in the body: FILL of its segments; R225 08_buffer_manager; reset none, no body is held. -/
  octets : Nat := 0
  /-- 12 bits COUNT; R225, R231 08_buffer_manager; reset none, no body is held. -/
  count : Nat := 1
  /-- 5 bits, agent that wrote it; R228 08_buffer_manager; reset none, no body is held. -/
  owner : Nat := 0
  /-- 6 bits, pool charged; R228 08_buffer_manager; reset none, no body is held. -/
  pool : Nat := 0
  /-- 11 bits, account charged, or none; R239 08_buffer_manager; reset none, no body is held. -/
  account : Option Nat := none
deriving DecidableEq, Repr

/-- A spill block (R226). -/
structure Block where
  /-- the queue whose chain it belongs to; R226, R241 08_buffer_manager; reset none, no spill block is held. -/
  queue : QId := ⟨false, 0⟩
  /-- 32 bits SPILL_SEQ; R226, R241 08_buffer_manager; reset none, no spill block is held. -/
  seq : Nat := 0
  /-- 6 bits, pool charged; R226, R241 08_buffer_manager; reset none, no spill block is held. -/
  pool : Nat := 0
  /-- the payload octets used, FILL of them; R226, R241 08_buffer_manager; reset none, no spill block is held. -/
  payload : List Byte := []
  /-- 16 bits RECORDS, records that begin in it; R226 08_buffer_manager; reset none, no spill block is held. -/
  begins : Nat := 0
  /-- records that begin here and are not yet written out: frame, carried metadata, UPTIME at enqueue, age origin; R226, R241 08_buffer_manager; reset none, no spill block is held. -/
  records : List Head := []
  /-- 1 bit, it begins with the rest of a record that began in an earlier block of the chain; R226, R241 08_buffer_manager; reset none, no spill block is held. -/
  contIn : Bool := false
  /-- 1 bit, its last record continues in the next block; R226, R241 08_buffer_manager; reset none, no spill block is held. -/
  continues : Bool := false
  /-- 1 bit, its write has not completed; R226, R241 08_buffer_manager; reset none, no spill block is held. -/
  writing : Bool := false
  /-- heads whose segments are freed when the write completes; R226, R241 08_buffer_manager; reset none, no spill block is held. -/
  freeing : List Nat := []
  /-- 1 bit, orphaned; R246 08_buffer_manager; reset none, no spill block is held. -/
  orphan : Bool := false
deriving DecidableEq, Repr

/-- A pool: BUFFER_POOL_SET section 0, BUF_POOL_STATUS, BUF_POOL_DROPS (R235-R238). -/
structure Pool where
  /-- 8 bits LOW_MASK; R235 08_buffer_manager; reset of R236. -/
  lowMask : Nat := 0
  /-- 32 bits SEG_LIMIT; R235 08_buffer_manager; reset of R236. -/
  segLimit : Nat := 0
  /-- 32 bits WARN; R235, R237 08_buffer_manager; reset of R236. -/
  warn : Nat := 0
  /-- 32 bits PAUSE; R235, R237 08_buffer_manager; reset of R236. -/
  pause : Nat := 0
  /-- 32 bits STOP; R235, R237 08_buffer_manager; reset of R236. -/
  stop : Nat := 0
  /-- 32 bits HYST; R235, R237 08_buffer_manager; reset of R236. -/
  hyst : Nat := 0
  /-- 32 bits BLOCK_LIMIT; R235 08_buffer_manager; reset of R236. -/
  blockLimit : Nat := 0
  /-- 32 bits SPILL_SEG; R235, R241 08_buffer_manager; reset of R236. -/
  spillSeg : Nat := 0
  /-- 32 bits REFILL_SEG; R235, R242 08_buffer_manager; reset of R236. -/
  refillSeg : Nat := 0
  /-- 21 bits SEG_USED; R237 08_buffer_manager; reset 0. -/
  used : Nat := 0
  /-- 25 bits BLK_USED; R237 08_buffer_manager; reset 0. -/
  blocks : Nat := 0
  /-- 1 bit, level WARN in force; R237 08_buffer_manager; reset 0. -/
  warnOn : Bool := false
  /-- 1 bit, level PAUSE in force; R237 08_buffer_manager; reset 0. -/
  pauseOn : Bool := false
  /-- 1 bit, level STOP in force; R237 08_buffer_manager; reset 0. -/
  stopOn : Bool := false
deriving DecidableEq, Repr

/-- An account (R239). -/
structure Account where
  /-- 21 bits, segments charged; R239 08_buffer_manager; reset 0. -/
  used : Nat := 0
  /-- 1 bit, XOFF in force; R239 08_buffer_manager; reset 0. -/
  xoff : Bool := false
  /-- 1 bit, XOFF forced by a level of a pool; R239 08_buffer_manager; reset 0. -/
  forced : Bool := false
  /-- 6 bits, the pool that forces it; R239 08_buffer_manager; reset 0. -/
  forcePool : Nat := 0
deriving DecidableEq, Repr

/-- Account thresholds of a port (BUFFER_POOL_SET section 1, R236). -/
structure AcctCfg where
  /-- 32 bits XOFF_SEG; R236 08_buffer_manager; reset 4,096. -/
  xoffSeg : Nat := 4096
  /-- 32 bits XON_SEG; R236 08_buffer_manager; reset 3,072. -/
  xonSeg : Nat := 3072
  /-- 32 bits HEADROOM_SEG; R236 08_buffer_manager; reset 2,048. -/
  headroom : Nat := 2048
deriving DecidableEq, Repr

/-- The buffer manager. -/
structure Buffers where
  /-- held head segments by number; R225 08_buffer_manager; reset none. -/
  heads : NMap Head := []
  /-- held bodies by first segment; R231 08_buffer_manager; reset none. -/
  bodies : NMap Body := []
  /-- SEQ of each segment last allocated as a head; R225 08_buffer_manager; reset 0 (DESIGN CHOICE, log entry 8). -/
  seqs : NMap Nat := []
  /-- next bank of the rotation; R224 08_buffer_manager; reset 0 (DESIGN CHOICE, log entry 8). -/
  rotor : Nat := 0
  /-- 7 bits RESERVE of each agent; R229 08_buffer_manager; reset 64. -/
  reserves : NMap Nat := []
  /-- held spill blocks; R226 08_buffer_manager; reset none. -/
  blocks : NMap Block := []
  /-- pools; R235 08_buffer_manager; reset of R236. -/
  pools : NMap Pool := []
  /-- accounts, port × 8 + class; R239 08_buffer_manager; reset 0. -/
  accounts : NMap Account := []
  /-- account thresholds by port; R235 08_buffer_manager; reset of R236. -/
  acctCfg : NMap AcctCfg := []
deriving DecidableEq, Repr

/-! ### Queues and scheduling (09_queues_and_scheduling) -/

/-- A queue's settings (SCHED_QUEUE_SET section 0). -/
structure QCfg where
  /-- 8 bits BAND, 0 to 7; R258 09_queues_and_scheduling; reset of R258, set by SCHED_QUEUE_SET. -/
  band : Nat
  /-- 8 bits PROFILE; R258 09_queues_and_scheduling; reset of R258, set by SCHED_QUEUE_SET. -/
  profile : Nat
  /-- 32 bits PARENT; R258 09_queues_and_scheduling; reset of R258, set by SCHED_QUEUE_SET. -/
  parent : Nat
  /-- 16 bits WEIGHT; R258 09_queues_and_scheduling; reset of R258, set by SCHED_QUEUE_SET. -/
  weight : Nat
  /-- 8 bits POOL; R258 09_queues_and_scheduling; reset of R258, set by SCHED_QUEUE_SET. -/
  pool : Nat
deriving DecidableEq, Repr

/-- A VOQ or an egress queue (R240, R259, R261, R264, R272). -/
structure Queue where
  /-- settings where SCHED_QUEUE_SET has set them; R258 09_queues_and_scheduling; reset of R258. -/
  cfg : Option QCfg := none
  /-- head part, first packet first (head segment numbers); R240 08_buffer_manager; reset empty. -/
  head : List Nat := []
  /-- tail part; R240 08_buffer_manager; reset empty. -/
  tail : List Nat := []
  /-- spilled part, first block first; R240 08_buffer_manager; reset empty. -/
  spill : List Nat := []
  /-- packets of the spilled part; R244 08_buffer_manager; reset 0. -/
  spilled : Nat := 0
  /-- octets of the record of the tail part's first packet already packed into blocks; R241 08_buffer_manager; reset 0. -/
  packed : Nat := 0
  /-- SPILL_SEQ of the next block; R226 08_buffer_manager; reset 0. -/
  spillSeq : Nat := 0
  /-- octets of FRAME_LEN in all parts (depth); R264 09_queues_and_scheduling; reset 0. -/
  depth : Nat := 0
  /-- average of R264; R264 09_queues_and_scheduling; reset 0. -/
  avg : Nat := 0
  /-- signed credit balance in octets; R272 09_queues_and_scheduling; reset 0. -/
  credit : Int := 0
  /-- the VOQ has sent REQUEST_ON; R293 10_fabric_interface; reset 0. -/
  requesting : Bool := false
  /-- 48 bits start tag; R261 09_queues_and_scheduling; reset 0. -/
  s : Nat := 0
  /-- 48 bits finish tag; R261 09_queues_and_scheduling; reset 0. -/
  f : Nat := 0
  /-- 1 bit, the queue was ready at the last change (for S of R261); R261 09_queues_and_scheduling; reset 0 (the model's own). -/
  wasReady : Bool := false
  /-- 64 bits, UPTIME + 1 at which requesting began, 0 once the first grant has come; R295 10_fabric_interface, R411 14_time_and_monitors; reset 0. -/
  reqSince : Nat := 0
deriving DecidableEq, Repr

/-- A VOQ group binding (SECTION 1) or an egress group binding (SECTION 2). -/
structure Bind where
  /-- 8 bits DEST_KIND of a VOQ group, TARGET_KIND of an egress group; R251, R252 09_queues_and_scheduling; reset of R254. -/
  kind : Nat := 0
  /-- 16 bits DEVICE of a VOQ group; R251, R252 09_queues_and_scheduling; reset of R254. -/
  device : Nat := 0
  /-- 16 bits TARGET; R251, R252 09_queues_and_scheduling; reset of R254. -/
  target : Nat := 0
  /-- 1 bit MAP of a VOQ group, ARRIVAL of an egress group, as last committed; R251, R252 09_queues_and_scheduling; reset of R254. -/
  mapped : Bool := false
deriving DecidableEq, Repr

/-- A scheduler node (R255-R263). -/
structure Node where
  /-- 8 bits LEVEL; R255, R257 09_queues_and_scheduling; reset of R255. -/
  level : Nat := 0
  /-- 8 bits BAND; R257 09_queues_and_scheduling; reset of R258 (0). -/
  band : Nat := 0
  /-- 8 bits LEN_ADJ, signed; R257 09_queues_and_scheduling; reset 0. -/
  lenAdj : Int := 0
  /-- 32 bits PARENT; R255, R257 09_queues_and_scheduling; reset of R255. -/
  parent : Nat := 0
  /-- 16 bits WEIGHT; R257, R258 09_queues_and_scheduling; reset 1. -/
  weight : Nat := 1
  /-- 64 bits SCH_NODE_RATE; R263 09_queues_and_scheduling; reset CIR_M 0, PIR_UNLIMITED 1. -/
  rate : Nat := 0x10000000000
  /-- 32 bits CBS; R257, R258 09_queues_and_scheduling; reset 65,536. -/
  cbs : Nat := 65536
  /-- 32 bits PBS; R257, R258 09_queues_and_scheduling; reset 65,536. -/
  pbs : Nat := 65536
  /-- 32 bits of octets, signed committed bucket in units of 1/8,000,000 octet; R262 09_queues_and_scheduling; reset 65,536 octets. -/
  committed : Int := 524288000000
  /-- 32 bits of octets, signed peak bucket in the same units; R262 09_queues_and_scheduling; reset 65,536 octets. -/
  peak : Int := 524288000000
  /-- 64 bits, UPTIME of the last refill; R262 09_queues_and_scheduling; reset 0. -/
  last : Nat := 0
  /-- 48 bits, virtual time of each band; R261 09_queues_and_scheduling; reset 0. -/
  v : NMap Nat := []
  /-- 48 bits start tag; R261 09_queues_and_scheduling; reset 0. -/
  s : Nat := 0
  /-- 48 bits finish tag; R261 09_queues_and_scheduling; reset 0. -/
  f : Nat := 0
  /-- 1 bit, the node was ready at the last change; R261 09_queues_and_scheduling; reset 0 (the model's own). -/
  wasReady : Bool := false
deriving DecidableEq, Repr

/-- A drop curve: MIN_KIB, MAX_KIB, MAX_P. -/
structure Curve where
  /-- 24 bits MIN_KIB; R264 09_queues_and_scheduling; reset 0, no early drop (R265). -/
  minKib : Nat := 0
  /-- 24 bits MAX_KIB; R264 09_queues_and_scheduling; reset 0, no early drop (R265). -/
  maxKib : Nat := 0
  /-- 16 bits MAX_P; R264 09_queues_and_scheduling; reset 0, no early drop (R265). -/
  maxP : Nat := 0
deriving DecidableEq, Repr

/-- A queue profile (R264, R265). -/
structure Profile where
  /-- 8 bits AVG_SHIFT; R264, R265 09_queues_and_scheduling; reset 0. -/
  avgShift : Nat := 0
  /-- 32 bits AGE_LIMIT_US; R265, R266 09_queues_and_scheduling; reset 200,000. -/
  ageUs : Nat := 200000
  /-- curve GREEN; R264, R265 09_queues_and_scheduling; reset 0. -/
  green : Curve := {}
  /-- curve YELLOW; R264, R265 09_queues_and_scheduling; reset 0. -/
  yellow : Curve := {}
  /-- curve RED; R264, R265 09_queues_and_scheduling; reset 0. -/
  red : Curve := {}
deriving DecidableEq, Repr

/-- A gate list (R273-R275). -/
structure GateList where
  /-- 64 bits BASE; R273, R274 09_queues_and_scheduling; reset none, no list is installed. -/
  base : Nat
  /-- 32 bits CYCLE_NS; R273, R274 09_queues_and_scheduling; reset none, no list is installed. -/
  cycle : Nat
  /-- 8 bits FIT_ADJ; R273, R274 09_queues_and_scheduling; reset none, no list is installed. -/
  fitAdj : Nat
  /-- up to 1,024 entries: 8 bits STATES, 32 bits INTERVAL_NS; R273, R274 09_queues_and_scheduling; reset none, no list is installed. -/
  entries : List (Nat × Nat)
  /-- 64 bits T, its start time; R274 09_queues_and_scheduling; reset none, no list is installed. -/
  start : Nat
deriving DecidableEq, Repr

/-- The gates of a port. -/
structure Gate where
  /-- 8 bits FIT_ADJ in force; R276 09_queues_and_scheduling; reset 24. -/
  fitAdj : Nat := 24
  /-- the administrative list that waits for its start, or none; R274 09_queues_and_scheduling; reset none. -/
  admin : Option GateList := none
  /-- the operational list, or none; R274 09_queues_and_scheduling; reset none. -/
  oper : Option GateList := none
  /-- 8 bits STATES; R273 09_queues_and_scheduling; reset 0xFF. -/
  states : Nat := 255
  /-- 10 bits INDEX; R273 09_queues_and_scheduling; reset 0. -/
  index : Nat := 0
  /-- the administrative list as last committed, for SCHED_GET; R274 09_queues_and_scheduling; reset none. -/
  last : Option GateList := none
deriving DecidableEq, Repr

/-- A credit target's settings and generator (R269-R271, R293, R294, R301). -/
structure Target where
  /-- 16 bits RATE_M; R269 09_queues_and_scheduling; reset 0, the automatic rate. -/
  rateM : Nat := 0
  /-- 8 bits RATE_E; R269 09_queues_and_scheduling; reset 0. -/
  rateE : Nat := 0
  /-- 32 bits STOP_KIB; R270 09_queues_and_scheduling; reset 1,024. -/
  stopKib : Nat := 1024
  /-- 32 bits RESUME_KIB; R270 09_queues_and_scheduling; reset 768. -/
  resumeKib : Nat := 768
  /-- 1 bit, the depth rule withholds credit; R270 09_queues_and_scheduling; reset 0. -/
  stopped : Bool := false
  /-- request table: (device, VOQ, offset) in order of arrival; R293 10_fabric_interface; reset empty. -/
  requests : List (Nat × Nat × Nat) := []
  /-- credit its rate has earned and it has not issued, in units of 1/512,000,000 octet, at most 0; R269 09_queues_and_scheduling; reset 0 -/
  tokens : Int := 0
  /-- 64 bits, UPTIME of the last grant; R269 09_queues_and_scheduling; reset 0. -/
  last : Nat := 0
  /-- 48-bit start and finish tags of the offsets and whether each was ready; R271 09_queues_and_scheduling; reset 0. -/
  tags : NMap (Nat × Nat × Bool) := []
  /-- 48 bits, virtual time per band; R271 09_queues_and_scheduling; reset 0. -/
  v : NMap Nat := []
  /-- per requesting device, 64-bit counts of issued, consumed and returned octets; R301 10_fabric_interface; reset 0. -/
  books : NMap (Nat × Nat × Nat) := []
  /-- 16 bits, next GSEQ per device; R294 10_fabric_interface; reset 0. -/
  gseq : NMap Nat := []
  /-- the last grants per device, newest first: (GSEQ, UPTIME); R302 10_fabric_interface; reset none. -/
  sent : NMap (List (Nat × Nat)) := []
deriving DecidableEq, Repr

/-- Queues, trees, gates and credit. -/
structure Sched where
  /-- VOQs by number; R250 09_queues_and_scheduling; reset empty. -/
  voqs : NMap Queue := []
  /-- egress queues by number; R250 09_queues_and_scheduling; reset empty. -/
  eqs : NMap Queue := []
  /-- VOQ group bindings that differ from R254; R251 09_queues_and_scheduling; reset of R254. -/
  voqBind : NMap Bind := []
  /-- egress group bindings that differ from R254; R252 09_queues_and_scheduling; reset of R254. -/
  eqBind : NMap Bind := []
  /-- destination map entries that differ from R254 (destination key to group + 1, 0 for none); R251 09_queues_and_scheduling; reset of R254. -/
  destMap : NMap Nat := []
  /-- arrival groups that differ from R254 (target key to group + 1, 0 for none); R252 09_queues_and_scheduling; reset of R254. -/
  arrival : NMap Nat := []
  /-- scheduler nodes that differ from reset; R255 09_queues_and_scheduling; reset of R255 and R258. -/
  nodes : NMap Node := []
  /-- queue profiles; R264 09_queues_and_scheduling; reset of R265. -/
  profiles : NMap Profile := []
  /-- gates by port; R273 09_queues_and_scheduling; reset open. -/
  gates : NMap Gate := []
  /-- credit targets; R269 09_queues_and_scheduling; reset automatic rate. -/
  targets : NMap Target := []
deriving DecidableEq, Repr

/-! ### Fabric and pair (10_fabric_interface, 11_pair_operation) -/

/-- Settings of a fabric octet (R278). -/
structure FabOctet where
  /-- 1 bit ENABLE; R278 10_fabric_interface; reset 0. -/
  enable : Bool := false
  /-- 8 bits LANE_MASK; R278 10_fabric_interface; reset 0xFF (DESIGN CHOICE, log entry 8). -/
  mask : Nat := 255
  /-- 8 bits LANE_RATE; R278 10_fabric_interface; reset 4 (DESIGN CHOICE, log entry 8). -/
  rate : Nat := 4
  /-- 8 bits TX_INVERT; R278 10_fabric_interface; reset 0 (DESIGN CHOICE, log entry 8). -/
  txInvert : Nat := 0
  /-- 8 bits RX_INVERT; R278 10_fabric_interface; reset 0 (DESIGN CHOICE, log entry 8). -/
  rxInvert : Nat := 0
  /-- 8 bits TRAINING; R278 10_fabric_interface; reset 1 (DESIGN CHOICE, log entry 8). -/
  training : Nat := 1
  /-- 16 bits UNCORR_LIMIT; R278, R281 10_fabric_interface; reset 16. -/
  uncorrLimit : Nat := 16
  /-- 16 bits RETRY_MS; R278, R281 10_fabric_interface; reset 100. -/
  retryMs : Nat := 100
deriving DecidableEq, Repr

/-- A fabric or pair lane: FAB_LANE_STATUS (R280, R281). -/
structure Lane where
  /-- 3 bits STATE; R280 10_fabric_interface; reset 0. -/
  state : Nat := 0
  /-- 4 bits CAUSE; R281 10_fabric_interface; reset 0. -/
  cause : Nat := 0
  /-- 16 bits UNCORR; R281 10_fabric_interface; reset 0. -/
  uncorr : Nat := 0
  /-- 32 bits FAIL_COUNT; R281 10_fabric_interface; reset 0. -/
  fails : Nat := 0
  /-- 64 bits, UPTIME at which bring-up (TRAINING), ACTIVE or FAILED began; R280, R281 10_fabric_interface; reset 0. -/
  since : Nat := 0
  /-- consecutive markers received in VERIFY, and consecutive ones with RECEIVING 0 in ACTIVE; R280, R281 10_fabric_interface; reset 0. -/
  markers : Nat := 0
  /-- 1 bit, RECEIVING of the last marker; R280 10_fabric_interface; reset 0. -/
  farEnd : Nat := 0
  /-- 64 bits, UPTIME at which its word stream began; R279 10_fabric_interface; reset 0. -/
  txFrom : Nat := 0
  /-- markers sent since then; R279 10_fabric_interface; reset 0. -/
  txMarkers : Nat := 0
deriving DecidableEq, Repr

/-- A cell held in a reorder store until its turn (R290). -/
structure HeldCell where
  /-- 4 bits TYPE; R290 10_fabric_interface; reset none, no cell is held. -/
  typ : Nat
  /-- 1 bit FIRST_VALID; R290 10_fabric_interface; reset none, no cell is held. -/
  firstValid : Bool
  /-- 8 bits FIRST_OFF; R290 10_fabric_interface; reset none, no cell is held. -/
  firstOff : Nat
  /-- up to 256 bytes, the payload; R290 10_fabric_interface; reset none, no cell is held. -/
  payload : List Byte
  /-- 20 bits VOQ of the header; R290 10_fabric_interface; reset none, no cell is held. -/
  voq : Nat
  /-- 9 bits, fabric lane index it arrived on; R290 10_fabric_interface; reset none, no cell is held. -/
  lane : Nat
  /-- 64 bits, UPTIME of its arrival; R290 10_fabric_interface; reset none, no cell is held. -/
  at_ : Nat
deriving DecidableEq, Repr

/-- A record that waits, whole or in part, in the pending bytes of a stream (R288). -/
structure PendRec where
  /-- 20 bits, head segment; its buffers are released when its last byte is sent; R288 10_fabric_interface; reset none, no record is pending. -/
  head : Nat
  /-- 20 bits, its VOQ; R288 10_fabric_interface; reset none, no record is pending. -/
  voq : Nat
  /-- offset of its first byte in the pending bytes, none once that byte has been sent; R288 10_fabric_interface; reset none, no record is pending. -/
  start : Option Nat
  /-- offset of its end in the pending bytes; R288 10_fabric_interface; reset none, no record is pending. -/
  stop : Nat
  /-- 64 bits, UPTIME at which its bytes joined the pending ones; R288 10_fabric_interface; reset none, no record is pending. -/
  since : Nat
deriving DecidableEq, Repr

/-- A fabric peer: FAB_PEER_STATUS, streams, port states (R289-R302). -/
structure Peer where
  /-- 1 bit PRESENT; R297 10_fabric_interface; reset 0. -/
  present : Bool := false
  /-- 16 bits INCARNATION; R297 10_fabric_interface; reset 0. -/
  incarnation : Nat := 0
  /-- 24 bits NEXT_SEQ; R290 10_fabric_interface; reset 0. -/
  nextSeq : Nat := 0
  /-- 64 bits, UPTIME of the last PRESENCE; R297 10_fabric_interface; reset 0. -/
  seen : Nat := 0
  /-- 1 bit per port, port states applied; R298, R299 10_fabric_interface; reset none. -/
  ports : NMap Nat := []
  /-- 8 bits per port, the last CHANGE applied; R298 10_fabric_interface; reset none. -/
  changes : NMap Nat := []
  /-- the port states of the last PRESENCE; R297, R299 10_fabric_interface; reset none. -/
  lastPresence : List Nat := []
  /-- reorder store: held cells by SEQ; R290 10_fabric_interface; reset none. -/
  held : NMap HeldCell := []
  /-- 20 bits, VOQ that the first cell of the record in reassembly named; R291 10_fabric_interface; reset 0. -/
  partialVoq : Nat := 0
  /-- bytes of the record in reassembly; R291 10_fabric_interface; reset none. -/
  partialRec : List Byte := []
  /-- 1 bit, cells are skipped until FIRST_VALID; R291 10_fabric_interface; reset 0. -/
  skipping : Bool := false
  /-- 24 bits, next SEQ of the stream to it; R289 10_fabric_interface; reset 0. -/
  txSeq : Nat := 0
  /-- pending record bytes; R288 10_fabric_interface; reset none. -/
  pend : List Byte := []
  /-- the records that the pending bytes hold; R288 10_fabric_interface; reset none. -/
  pendRecs : List PendRec := []
  /-- 64-bit credit messages waiting, each with the UPTIME at which it joined; R292 10_fabric_interface; reset none. -/
  msgs : List (Nat × Nat) := []
  /-- per target: next expected GSEQ (16 bits), cumulative octets returned, exchanged since the last audit; R302 10_fabric_interface; reset none. -/
  audit : NMap (Nat × Nat × Bool) := []
deriving DecidableEq, Repr

/-- The fabric interface. -/
structure Fabric where
  /-- 1 bit, operating mode (CONNECTED); R3 00_scope; reset 0 fabric-less. -/
  connected : Bool := false
  /-- 11 bits DEVICE; R282 10_fabric_interface; reset 0. -/
  device : Nat := 0
  /-- 8 bits CARRY; R286 10_fabric_interface; reset 0. -/
  carry : Nat := 0
  /-- 8 bits REORDER_US; R290 10_fabric_interface; reset 4. -/
  reorderUs : Nat := 4
  /-- 16 bits FILL_NS; R288 10_fabric_interface; reset 100. -/
  fillNs : Nat := 100
  /-- 2,048 bits EXPECTED; R282 10_fabric_interface; reset 0 (DESIGN CHOICE, log entry 8). -/
  expected : Nat := 0
  /-- fabric octets by octet code; R278 10_fabric_interface; reset of R278. -/
  octets : NMap FabOctet := []
  /-- fabric and pair lanes by lane index of R19; R280 10_fabric_interface; reset DISABLED. -/
  lanes : NMap Lane := []
  /-- next lane of the spray rotation; R289 10_fabric_interface; reset 0 (DESIGN CHOICE, log entry 8). -/
  spray : Nat := 0
  /-- peers by device; R297 10_fabric_interface; reset none present. -/
  peers : NMap Peer := []
  /-- 24 bits SEQ of flooded cells; R289 10_fabric_interface; reset 0. -/
  floodSeq : Nat := 0
deriving DecidableEq, Repr

/-- PAIR_SET. -/
structure PairCfg where
  /-- 1 bit ENABLE; R309 11_pair_operation; reset 0. -/
  enable : Bool := false
  /-- 8 bits PRIORITY; R309 11_pair_operation; reset 0. -/
  priority : Nat := 0
  /-- 1 bit SYNC_COMMIT; R309, R318 11_pair_operation; reset 0. -/
  syncCommit : Bool := false
  /-- 1 bit STANDBY_LEARN; R309, R316 11_pair_operation; reset 0. -/
  standbyLearn : Bool := false
  /-- 8 bits CARRY; R309 11_pair_operation; reset 0. -/
  carry : Nat := 0
  /-- 8 bits LANE_RATE; R309 11_pair_operation; reset 4. -/
  rate : Nat := 4
  /-- 16 bits TX_INVERT; R309 11_pair_operation; reset 0 (DESIGN CHOICE, log entry 8). -/
  txInvert : Nat := 0
  /-- 16 bits RX_INVERT; R309 11_pair_operation; reset 0 (DESIGN CHOICE, log entry 8). -/
  rxInvert : Nat := 0
deriving DecidableEq, Repr

/-- A journal record of the active as the member received it (R315). -/
structure PeerRec where
  /-- 64 bits SEQ; R315 11_pair_operation; reset none, no record is held. -/
  seq : Nat
  /-- 64 bits GENERATION; R315 11_pair_operation; reset none, no record is held. -/
  generation : Nat
  /-- 16 bits OPCODE; R315 11_pair_operation; reset none, no record is held. -/
  opcode : Nat
  /-- 16 bits STATUS; R315, R317 11_pair_operation; reset none, no record is held. -/
  status : Nat
  /-- 1 bit, it is the commit record of a transaction; R315 11_pair_operation; reset none, no record is held. -/
  isCommit : Bool
  /-- the command the record tells of; R315 11_pair_operation; reset none, no record is held. -/
  cmd : Cmd
deriving DecidableEq, Repr

/-- The pair (R306-R327). -/
structure Pair where
  /-- PAIR_SET as committed; R309 11_pair_operation; reset of R309. -/
  cfg : PairCfg := {}
  /-- 3 bits ROLE; R312 11_pair_operation; reset 0 ALONE. -/
  role : Nat := 0
  /-- 2 bits LINK; R306 11_pair_operation; reset 0 DOWN. -/
  link : Nat := 0
  /-- the bond is retraining since this UPTIME; R306 11_pair_operation; reset none. -/
  retrain : Option Nat := none
  /-- UPTIME of the last HEARTBEAT; R307 11_pair_operation; reset none. -/
  beatAt : Option Nat := none
  /-- UPTIME of the last change of PAIR_BEAT_IN, and its level; R321 11_pair_operation; reset none, low. -/
  sideAt : Option Nat := none
  /-- 1 bit, last level of PAIR_BEAT_IN; R321 11_pair_operation; reset 0. -/
  beatIn : Bool := false
  /-- level of PAIR_BEAT_OUT; R308 11_pair_operation; reset low. -/
  beatOut : Bool := false
  /-- level of PAIR_ACT_OUT; R308 11_pair_operation; reset low. -/
  actOut : Bool := false
  /-- ACT_IN and the UPTIME since which it has been high; R324 11_pair_operation; reset low. -/
  actIn : Bool := false
  /-- 64 bits, UPTIME since which PAIR_ACT_IN has been high; R324 11_pair_operation; reset 0. -/
  actInSince : Nat := 0
  /-- MISMATCH; R310 11_pair_operation; reset 0. -/
  mismatch : Bool := false
  /-- 16 bits PEER_INCARNATION; R310 11_pair_operation; reset 0. -/
  peerInc : Nat := 0
  /-- role of the peer in its last HEARTBEAT; R307 11_pair_operation; reset 0. -/
  peerRole : Nat := 0
  /-- 16 bits TAKEOVERS; R322 11_pair_operation; reset 0 (RWS). -/
  takeovers : Nat := 0
  /-- PAIR_APPLIED_SEQ; R315 11_pair_operation; reset 0. -/
  appliedSeq : Nat := 0
  /-- PAIR_ACKED_SEQ; R315 11_pair_operation; reset 0. -/
  ackedSeq : Nat := 0
  /-- APPLIED_GEN; R315 11_pair_operation; reset 0. -/
  appliedGen : Nat := 0
  /-- the peer's applied SEQ of our journal (its HEARTBEAT); R319 11_pair_operation; reset 0. -/
  peerApplied : Nat := 0
  /-- peer port states and last CHANGE applied; R327 11_pair_operation; reset none. -/
  ports : NMap Nat := []
  /-- 8 bits per port, last CHANGE applied of the peer's ports; R327 11_pair_operation; reset none. -/
  changes : NMap Nat := []
  /-- records received and not yet applied, in SEQ order; R315 11_pair_operation; reset none. -/
  received : List PeerRec := []
  /-- a takeover has begun and what has been received in full is being applied; R322 11_pair_operation; reset 0. -/
  takingOver : Bool := false
  /-- the SEQ of a SWITCH whose acknowledgement waits for the records up to it; R325 11_pair_operation; reset none. -/
  switchHead : Option Nat := none
  /-- next sequence number of each reliable class of the pair link, by class; R307 11_pair_operation; reset 0 (DESIGN CHOICE, log entry 80). -/
  txSeq : NMap Nat := []
  /-- next sequence number expected of each reliable class of the peer, by class; R307 11_pair_operation; reset 0 (DESIGN CHOICE, log entry 80). -/
  rxSeq : NMap Nat := []
  /-- messages of the reliable classes sent and not acknowledged, oldest first: (class, sequence number, content); R307 11_pair_operation; reset none. -/
  unacked : List (Nat × Nat × List Nat) := []
  /-- 4 bits, position of the next 16-byte word in the rotation over the bonded lanes; R306 11_pair_operation; reset 0 (DESIGN CHOICE, log entry 80). -/
  bond : Nat := 0
  /-- sync point taken for the peer; R314 11_pair_operation; reset none. -/
  syncPoint : Option Nat := none
  /-- the snapshot has been applied; R314 11_pair_operation; reset 0. -/
  snapped : Bool := false
  /-- a switchover is armed at this NTIME; R325 11_pair_operation; reset none. -/
  armed : Option Nat := none
  /-- switchover stage: 0 none, 1 SWITCH sent by the old active, 2 acknowledged by the new active; R325 11_pair_operation; reset 0. -/
  switching : Nat := 0
  /-- last SEQ sent to the peer; R315 11_pair_operation; reset 0. -/
  sentSeq : Nat := 0
  /-- every network port is held disabled; R312, R314 11_pair_operation; reset 0. -/
  holding : Bool := false
  /-- ports that the replicated state holds enabled while they are held disabled; R314 11_pair_operation; reset none. -/
  held : List Nat := []
deriving DecidableEq, Repr

/-! ### Tahr packet cores (12_packet_cores) -/

/-- One hardware thread (R331-R342, R353). -/
structure Thread where
  /-- x1-x31, 64 bits each; R331 12_packet_cores; reset 0 (DESIGN CHOICE, log entry 11). -/
  regs : NMap Nat := []
  /-- 64 bits pc; R338 12_packet_cores; reset ENTRYt of the image, 0 before one is loaded. -/
  pc : Nat := 0
  /-- machine mode (else user); R331 12_packet_cores; reset machine. -/
  machine : Bool := true
  /-- 64 bits each, machine CSRs by number, and the debug registers: dcsr 0x7B0, dpc 0x7B1, tselect 0x7A0, trigger i as 0x10000 + 2 i (tdata1) and 0x10001 + 2 i (tdata2); R331, R357 12_packet_cores; reset 0 (PRESUMED, log entry 35). -/
  csrs : NMap Nat := []
  /-- LR/SC reservation; R333 12_packet_cores; reset none. -/
  reservation : Option Nat := none
  /-- waits in WFE: mask and destination register; R341 12_packet_cores; reset none. -/
  waiting : Option (Nat × Nat) := none
  /-- waits for a TBL.GO: set and destination register; R352 12_packet_cores; reset none. -/
  blocked : Option (Nat × Nat) := none
  /-- halted by the debugger; R357 12_packet_cores; reset 0. -/
  halted : Bool := false
  /-- UPTIME of the halt; R358 12_packet_cores; reset 0. -/
  haltSince : Nat := 0
  /-- faulted; R353 12_packet_cores; reset 0. -/
  faulted : Bool := false
  /-- between a trap entry and its MRET; R353 12_packet_cores; reset 0. -/
  inTrap : Bool := false
  /-- 4 bits EVPEND; R337, R342 12_packet_cores; reset 0. -/
  evpend : Nat := 0
  /-- TCMP; R337 12_packet_cores; reset 0. -/
  tcmp : Nat := 0
  /-- PSTAT; R337 12_packet_cores; reset 0. -/
  pstat : Nat := 0
  /-- reservation: (channel key, slot, voided); R344 12_packet_cores; reset none. -/
  resv : Option (Nat × Nat × Bool) := none
  /-- taken slots: (channel key, slot); R345 12_packet_cores; reset none. -/
  taken : List (Nat × Nat) := []
  /-- METERED and PRIORITY; R338 12_packet_cores; reset 0. -/
  metered : Bool := false
  /-- 2 bits PRIORITY of the thread's MODE byte; R338 12_packet_cores; reset 0. -/
  priority : Nat := 0
  /-- 64 bits, one more than the CK_TAHR cycle of the last spare slot received; R339 12_packet_cores; reset 0. -/
  spareAt : Nat := 0
  /-- 64 bits, the CK_TAHR cycle before which a metered DIV or REM holds the thread; R340 12_packet_cores; reset 0. -/
  busyUntil : Nat := 0
  /-- UPTIME since which the thread can issue after a wait, until it issues; R411 14_time_and_monitors (point 11); reset none. -/
  runnable : Option Nat := none
  /-- result of a TBL.GO that completed while the thread was halted, delivered at resume; R357 12_packet_cores; reset none. -/
  arrived : Option Nat := none
  /-- havereset of the debug module; R357 12_packet_cores (RISC-V External Debug Support 0.13.2); reset 1 (PRESUMED, log entry 35). -/
  haveReset : Bool := true
  /-- resumeack of the debug module; R357 12_packet_cores; reset 0 (PRESUMED, log entry 35). -/
  resumeAck : Bool := false
deriving DecidableEq, Repr

/-- One core (R338, R359-R361, TAHR_CORE_STATUS). -/
structure Core where
  /-- 32 bits RESETS; R354 12_packet_cores; reset 0. -/
  resets : Nat := 0
  /-- 2 bits RESET_CAUSE; R354 12_packet_cores; reset 0. -/
  cause : Nat := 0
  /-- 1 bit USER_READ; R360 12_packet_cores; reset 0. -/
  userRead : Bool := false
  /-- 32 bits each, SELECT0-7; R360 12_packet_cores; reset 0. -/
  selects : List Nat := []
  /-- 64 bits each, programmable counters; R360, R361 12_packet_cores; reset 0. -/
  pmc : NMap Nat := []
  /-- 64 bits RETIRED; R359 12_packet_cores; reset 0 (CYCLES is the sum of the five). -/
  retired : Nat := 0
  /-- 64 bits WASTED; R359 12_packet_cores; reset 0. -/
  wasted : Nat := 0
  /-- 64 bits FE_STARVED; R359 12_packet_cores; reset 0. -/
  feStarved : Nat := 0
  /-- 64 bits BE_STARVED; R359 12_packet_cores; reset 0. -/
  beStarved : Nat := 0
  /-- 64 bits IDLE; R359 12_packet_cores; reset 0. -/
  idle : Nat := 0
  /-- 64 bits, UPTIME of the core's last reset (origin of the fixed cycle counter); R337 12_packet_cores; reset 0. -/
  resetAt : Nat := 0
  /-- 64 bits each, ENTRY0-7 of the image; R338 12_packet_cores; reset none, no image is loaded. -/
  entries : List Nat := []
  /-- 8 bits each, MODE bytes of the image; R338 12_packet_cores; reset none, no image is loaded. -/
  modes : List Nat := []
  /-- the instruction cache: lines of 64 bytes by line number of cluster memory; R335 12_packet_cores; reset none -/
  icache : NMap (List Byte) := []
  /-- 32 bits LOCK_OFF of the image's core entry; R338 12_packet_cores; reset 0, no image is loaded. -/
  lockOff : Nat := 0
  /-- 32 bits LOCK_LEN of the image's core entry; R338 12_packet_cores; reset 0, no image is loaded. -/
  lockLen : Nat := 0
  /-- 64 bits each, CK_TAHR cycles not yet classified in which an instruction issued; R339, R359 12_packet_cores; reset none. -/
  issued : List Nat := []
  /-- 64 bits, the CK_TAHR cycle after the last in which an instruction issued; R339 12_packet_cores; reset 0. -/
  nextCycle : Nat := 0
  /-- 1 bit, the core has been released by a loaded image; R338 12_packet_cores; reset 0. -/
  released : Bool := false
  /-- 1 bit, reset since the last counter record (FLAGS bit 0); R362 12_packet_cores; reset 0. -/
  resetSince : Bool := false
deriving DecidableEq, Repr

/-- One cluster (R355, R358, R362). -/
structure Cluster where
  /-- 32 bits LAST_SEQ; R362 12_packet_cores; reset 0. -/
  lastSeq : Nat := 0
  /-- 16 bits MISSED; R362 12_packet_cores; reset 0. -/
  missed : Nat := 0
  /-- 16 bits STALLS; R355 12_packet_cores; reset 0 (RWS). -/
  stalls : Nat := 0
  /-- 8 bits DEST; R361 12_packet_cores; reset 0, off. -/
  dumpDest : Nat := 0
  /-- 32 bits PERIOD_US; R361 12_packet_cores; reset 0 (DESIGN CHOICE, log entry 8). -/
  dumpPeriod : Nat := 0
  /-- 32 bits BASE; R361 12_packet_cores; reset 0 (DESIGN CHOICE, log entry 8). -/
  dumpBase : Nat := 0
  /-- 32 bits DEPTH; R361 12_packet_cores; reset 0 (DESIGN CHOICE, log entry 8). -/
  dumpDepth : Nat := 0
  /-- 64 bits, UPTIME of the commit point from which periods are counted; R362 12_packet_cores; reset 0. -/
  dumpAt : Nat := 0
  /-- number of the next period due; R362 12_packet_cores; reset 0. -/
  dumpNext : Nat := 0
  /-- 32 bits HOLD_TIMEOUT_US; R357, R358 12_packet_cores; reset 0. -/
  holdTimeout : Nat := 0
  /-- 1 bit, a stall waits for its recovery; R356 12_packet_cores; reset 0. -/
  stalled : Bool := false
  /-- consecutive CK_TAHR cycles, up to 65,536, for which every thread of every unfenced core has been unarmed; R355 12_packet_cores; reset 0. -/
  quiet : Nat := 0
  /-- an activation skipped this cluster while it was fenced; R463 17_firmware_and_trust; reset 0. -/
  imageDue : Bool := false
  /-- 64 bits, UPTIME at which the load of an activation's image into this cluster ends, or none; R463 17_firmware_and_trust; reset none. -/
  loading : Option Nat := none
  /-- 32 bits each, debug module registers by DMI address; R357 12_packet_cores; reset 0 (PRESUMED, log entry 35). -/
  dmi : NMap Nat := []
deriving DecidableEq, Repr

/-- One slot of a channel (R343). -/
structure Slot where
  /-- 2 bits: 1 RESERVED, 2 COMMITTED, 3 TAKEN (FREE slots are not listed); R343 12_packet_cores; reset FREE (not listed). -/
  state : Nat
  /-- 64 bytes, the descriptor; R343 12_packet_cores; reset FREE (not listed). -/
  data : List Byte
  /-- 9 bits, the thread that reserved or took it; R343 12_packet_cores; reset FREE (not listed). -/
  thread : Nat
  /-- 1 bit, voided; R344 12_packet_cores; reset FREE (not listed). -/
  void : Bool
deriving DecidableEq, Repr

/-- One channel (R343-R348). -/
structure Channel where
  /-- 1 bit ENABLE; R348 12_packet_cores; reset 1. -/
  enable : Bool := true
  /-- 8 bits POOL; R348 12_packet_cores; reset 0. -/
  pool : Nat := 0
  /-- 8 bits PRODUCERS; R348 12_packet_cores; reset 7. -/
  producers : Nat := 7
  /-- 8 bits HV_OFF; R347, R348 12_packet_cores; reset 0. -/
  hvOff : Nat := 0
  /-- 16 bits NOTIFY; R348 12_packet_cores; reset 0x8000, none. -/
  notify : Nat := 0x8000
  /-- the 16 slots that are not FREE, by number; R343 12_packet_cores; reset none, all FREE. -/
  slots : NMap Slot := []
  /-- order queue of RESERVED and COMMITTED slots, 4 bits each; R343 12_packet_cores; reset empty. -/
  order : List Nat := []
deriving DecidableEq, Repr

/-- A TAHR_CORE_RESET under way (R354). -/
structure CoreReset where
  /-- the TAHR_CORE_RESET to complete, or none; R354 12_packet_cores; reset none, no core reset is under way. -/
  cmd : Option Cmd
  /-- 32 bits, core or cluster named; R354 12_packet_cores; reset none, no core reset is under way. -/
  resource : Nat
  /-- 6 bits each, cores to reset; R354 12_packet_cores; reset none, no core reset is under way. -/
  cores : List Nat
  /-- 64 bits, UPTIME at which the grace ends; R354 12_packet_cores; reset none, no core reset is under way. -/
  graceUntil : Nat
  /-- 1 bit RECLAIM; R354 12_packet_cores; reset none, no core reset is under way. -/
  reclaim : Bool
  /-- 2 bits RESET_CAUSE to set; R354 12_packet_cores; reset none, no core reset is under way. -/
  cause : Nat
deriving DecidableEq, Repr

/-- The packet cores. -/
structure Tahr where
  /-- threads, core × 8 + thread; R331 12_packet_cores; reset per thread. -/
  threads : NMap Thread := []
  /-- cores; R338 12_packet_cores; reset per core. -/
  cores : NMap Core := []
  /-- clusters A 0 and B 1; R355 12_packet_cores; reset per cluster. -/
  clusters : NMap Cluster := []
  /-- channels, cluster × 1,024 + channel; R343 12_packet_cores; reset of R348. -/
  channels : NMap Channel := []
  /-- core resets under way; R354 12_packet_cores; reset none. -/
  resets : List CoreReset := []
deriving DecidableEq, Repr

/-! ### Host interface (13_host_interface) -/

/-- A slice (R371, R372, HOST_SLICE_STATUS). -/
structure Slice where
  /-- 3 bits STATE; R371 13_host_interface; reset 0 ABSENT (an absent slice is not listed). -/
  state : Nat := 0
  /-- 1 bit LINK; R371, R372 13_host_interface; reset ABSENT, no slice exists. -/
  link : Nat := 0
  /-- 20 bits PASID; R371, R372 13_host_interface; reset ABSENT, no slice exists. -/
  pasid : Nat := 0
  /-- 8 bits MAX_QP; R371, R372 13_host_interface; reset ABSENT, no slice exists. -/
  maxQp : Nat := 0
  /-- 8 bits each, RX_FIRST; R371, R372 13_host_interface; reset ABSENT, no slice exists. -/
  rxFirst : List Nat := []
  /-- 8 bits each, RX_SPREAD; R371, R372 13_host_interface; reset ABSENT, no slice exists. -/
  rxSpread : List Nat := []
  /-- 64 bits, rights mask; R56 02_command_mailbox; reset ABSENT, no slice exists. -/
  mask : Nat := 0
  /-- 1 bit FORCED; R393 13_host_interface; reset ABSENT, no slice exists. -/
  forced : Bool := false
  /-- 32 bits FENCE_DISCARD; R393 13_host_interface; reset ABSENT, no slice exists. -/
  fenceDiscard : Nat := 0
  /-- bytes of the SLICE_CREATE payload, as created; R372 13_host_interface; reset ABSENT, no slice exists. -/
  created : List Byte := []
  /-- the quiesce or freeze under way: command, UPTIME of the fence point, timeout in µs, freezing; R393 13_host_interface; reset none. -/
  quiesce : Option (Option Cmd × Nat × Nat × Bool) := none
  /-- 7 bits each, rings that were enabled at the fence point; R398 13_host_interface; reset none. -/
  wasEnabled : List Nat := []
  /-- 32 bits LOST of the quiesce under way; R393 13_host_interface; reset 0. -/
  lost : Nat := 0
  /-- 32 bits FENCED_JOBS of the quiesce under way; R393 13_host_interface; reset 0. -/
  fencedJobs : Nat := 0
deriving DecidableEq, Repr

/-- A dispatched frame of a TX ring (R380, R387). -/
structure TxFrame where
  /-- its octets, as read; R387 13_host_interface; reset none, no frame is dispatched. -/
  bytes : List Byte
  /-- 32 bits, its length by its descriptors; R385 13_host_interface; reset none, no frame is dispatched. -/
  len : Nat
  /-- 16 bits, its descriptors; R385 13_host_interface; reset none, no frame is dispatched. -/
  ndesc : Nat
  /-- reservations that it holds; R381 13_host_interface; reset none, no frame is dispatched. -/
  held : Nat
  /-- 16 bits TAG; R385 13_host_interface; reset none, no frame is dispatched. -/
  tag : Nat
  /-- 16 bits STATUS settled at dispatch, 0 for a frame that is read; R386 13_host_interface; reset none, no frame is dispatched. -/
  status : Nat
deriving DecidableEq, Repr

/-- A data ring (R373-R383). -/
structure Ring where
  /-- 8 bits KIND; R373, R374 13_host_interface; reset none, no ring is configured. -/
  kind : Nat := 0
  /-- 8 bits LOG2_ENTRIES; R373, R374 13_host_interface; reset none, no ring is configured. -/
  log2 : Nat := 0
  /-- 8 bits CQ; R373, R374 13_host_interface; reset none, no ring is configured. -/
  cq : Nat := 0
  /-- 8 bits PIPELINE; R373, R374 13_host_interface; reset none, no ring is configured. -/
  pipeline : Nat := 0
  /-- 64 bits BASE; R373, R374 13_host_interface; reset none, no ring is configured. -/
  base : Nat := 0
  /-- 64 bits MSG_ADDR; R383 13_host_interface; reset none, no ring is configured. -/
  msgAddr : Nat := 0
  /-- 32 bits MSG_DATA; R383 13_host_interface; reset none, no ring is configured. -/
  msgData : Nat := 0
  /-- 32 bits COAL_NS; R383 13_host_interface; reset none, no ring is configured. -/
  coalNs : Nat := 0
  /-- 16 bits COAL_COUNT; R383 13_host_interface; reset none, no ring is configured. -/
  coalCount : Nat := 0
  /-- 2 bits STATE: 0 disabled, 1 running, 2 halted, 3 frozen; R374 13_host_interface; reset 0. -/
  state : Nat := 0
  /-- 3 bits HALT_CAUSE; R374 13_host_interface; reset 0. -/
  haltCause : Nat := 0
  /-- 8 bits BAD_DOORBELL; R374 13_host_interface; reset 0. -/
  badDoorbell : Nat := 0
  /-- 16 bits CONSUMER; R374 13_host_interface; reset 0. -/
  consumer : Nat := 0
  /-- 16 bits PRODUCER; R374 13_host_interface; reset 0. -/
  producer : Nat := 0
  /-- 16 bits FETCHED, next index to fetch; R374 13_host_interface; reset 0. -/
  fetched : Nat := 0
  /-- fetched entries not dispatched, by index: 32 or 64 bytes each; R376, R378 13_host_interface; reset none. -/
  entries : NMap (List Byte) := []
  /-- 5 bits each, fetches that failed their PHASE check by index of the entry; R378 13_host_interface; reset 0. -/
  tries : NMap Nat := []
  /-- dispatched entries whose completion is not produced; R381 13_host_interface; reset 0. -/
  outstanding : Nat := 0
  /-- 1 bit ARMED; R383 13_host_interface; reset 0. -/
  armed : Bool := false
  /-- 1 bit STALLED; R382 13_host_interface; reset 0. -/
  stalled : Bool := false
  /-- up to 32 completions of 32 bytes waiting for room; R382 13_host_interface; reset none. -/
  backlog : List (List Byte) := []
  /-- completion entries written since the last message; R383 13_host_interface; reset 0. -/
  unreported : Nat := 0
  /-- 64 bits, UPTIME from which the COAL_NS wait runs, or none; R383 13_host_interface; reset none. -/
  waitFrom : Option Nat := none
  /-- completions of 32 bytes produced while the slice's function can do no DMA; R366 13_host_interface; reset none. -/
  held : List (List Byte) := []
  /-- RING_DISABLE waiting for the ring to be idle, or none; R375 13_host_interface; reset none. -/
  disabling : Option Cmd := none
  /-- frames of a TX ring dispatched and not completed, in ring order; R380, R387 13_host_interface; reset none. -/
  inFlight : List TxFrame := []
  /-- a frame of more descriptors than are fetched ahead, being passed over: its descriptors and octets so far, and its TAG; R387 13_host_interface; reset none. -/
  passing : Option (Nat × Nat × Nat) := none
deriving DecidableEq, Repr

/-- A crypto session (R391). -/
structure Session where
  /-- 8 bits ALG; R391 13_host_interface; reset none, no session is loaded. -/
  alg : Nat
  /-- 8 bits KEY_LEN; R391 13_host_interface; reset none, no session is loaded. -/
  keyLen : Nat
  /-- 8 bits FLAGS; R391 13_host_interface; reset none, no session is loaded. -/
  flags : Nat
  /-- 32 bits SPI; R391 13_host_interface; reset none, no session is loaded. -/
  spi : Nat
  /-- 64 bits SEQ; R391 13_host_interface; reset none, no session is loaded. -/
  seq : Nat
  /-- 32 bits SALT; R391 13_host_interface; reset none, no session is loaded. -/
  salt : Nat
  /-- 32 bits WINDOW; R391 13_host_interface; reset none, no session is loaded. -/
  window : Nat
  /-- up to 64 bytes KEY, none after a restore; R397 13_host_interface; reset none, no session is loaded. -/
  key : Option (List Byte)
  /-- first 8 bytes of the SHA-256 of the key, for SLICE_SAVE; R396 13_host_interface; reset none, no session is loaded. -/
  digest : List Byte
  /-- sequence numbers received within the window (the replay bitmap); R391 13_host_interface; reset none, no session is loaded. -/
  seen : List Nat
deriving DecidableEq, Repr

/-- A job in an engine (R390). -/
structure Job where
  /-- 12 bits, its slice; R389, R390 13_host_interface; reset none, no job is in an engine. -/
  slice : Nat
  /-- 7 bits, its local JOB ring; R389, R390 13_host_interface; reset none, no job is in an engine. -/
  loc : Nat
  /-- 64 bytes, its descriptor; R389, R390 13_host_interface; reset none, no job is in an engine. -/
  desc : List Byte
  /-- its source bytes once read, or none; R389, R390 13_host_interface; reset none, no job is in an engine. -/
  src : Option (List Byte)
  /-- 16 bits, STATUS settled at dispatch: that of a SESSION_LOAD; R391 13_host_interface; reset none. -/
  preset : Option Nat := none
deriving DecidableEq, Repr

/-- The PCIe host interface. -/
structure HostIf where
  /-- slices that exist; R371 13_host_interface; reset none. -/
  slices : NMap Slice := []
  /-- data rings, slice × 128 + local; R373 13_host_interface; reset none. -/
  rings : NMap Ring := []
  /-- sessions, slice × 1,024 + session; R391 13_host_interface; reset none. -/
  sessions : NMap Session := []
  /-- jobs in the engines, engine × 2^32 + number; R390 13_host_interface; reset none. -/
  jobs : NMap Job := []
  /-- the model's own number of the next job; R390 13_host_interface; reset 0 (the model's own). -/
  nextJob : Nat := 0
  /-- deficit counters, engine × 2^32 + ring; R390 13_host_interface; reset 0. -/
  deficits : NMap Nat := []
  /-- JOB ring whose turn it is, by engine; R390 13_host_interface; reset 0 (DESIGN CHOICE, log entry 9). -/
  turn : NMap Nat := []
  /-- TX ring served last; R387 13_host_interface; reset 0 (DESIGN CHOICE, log entry 9). -/
  txTurn : Nat := 0
  /-- 48 bits HOST_OBS_HBM_BASE; R26 01_architecture; reset 0x1000_0000_0000. -/
  obsBase : Nat := 0x100000000000
  /-- 32 bits UNREACH_COUNT; R25 01_architecture; reset 0. -/
  unreach : Nat := 0
  /-- 16 bits WRITE_DROP_COUNT; R25 01_architecture; reset 0. -/
  writeDrops : Nat := 0
  /-- links that are up and configuration-ready; R364 13_host_interface; reset none. -/
  linkUp : List Nat := []
  /-- links held in fundamental reset by PCIE_PERSTn_N; R488 19_package_and_electrical; reset none. -/
  perst : List Nat := []
  /-- functions in D3hot, link × 8 + function; R366 13_host_interface; reset none. -/
  d3hot : List Nat := []
  /-- functions whose Device Control enables relaxed ordering, link × 8 + function; R367 13_host_interface; reset all of them (PRESUMED, log entry 97: PCI Express sets the bit at reset, and no row writes it). -/
  relaxed : List Nat := [0, 1, 8]
  /-- MSI-X table, 8 entries: (address, data) with mask; R370 13_host_interface; reset zeros. -/
  msix : NMap Nat := []
  /-- injection queues of the pipelines, by pipeline and source 192 or 193; R351 12_packet_cores, R387 13_host_interface; reset empty. -/
  inject : NMap (List Arrival) := []
deriving DecidableEq, Repr

/-! ### Monitors and dumps (14_time_and_monitors) -/

/-- A monitor instance (R410-R414). -/
structure Monitor where
  /-- 8 bits POINT; R410 14_time_and_monitors; reset that of the table of R414. -/
  point : Nat := 0
  /-- 8 bits SHIFT; R410 14_time_and_monitors; reset that of the table of R414. -/
  shift : Nat := 0
  /-- 32 bits MATCH; R410 14_time_and_monitors; reset that of the table of R414. -/
  matchV : Nat := 0
  /-- 32 bits MASK; R410 14_time_and_monitors; reset that of the table of R414. -/
  mask : Nat := 0
  /-- the clock of the last event recorded: the UPTIME, for point 11 the CK_TAHR cycle; R410 14_time_and_monitors; reset none, no event is recorded. -/
  last : Option Nat := none
  /-- 64 bits COUNT; R412 14_time_and_monitors; reset 0. -/
  count : Nat := 0
  /-- 64 bits SUM; R412 14_time_and_monitors; reset 0. -/
  sum : Nat := 0
  /-- 32 bits MIN; R412 14_time_and_monitors; reset 0xFFFF_FFFF. -/
  min : Nat := 0xFFFFFFFF
  /-- 32 bits MAX; R412 14_time_and_monitors; reset 0. -/
  max : Nat := 0
  /-- 32 bits SKIPPED; R410, R411 14_time_and_monitors; reset 0. -/
  skipped : Nat := 0
  /-- 64 bits SINCE; R412 14_time_and_monitors; reset 0. -/
  since : Nat := 0
  /-- 32 bits each, BUCKET0-63; R412 14_time_and_monitors; reset 0. -/
  buckets : NMap Nat := []
deriving DecidableEq, Repr

/-- A dump stream (R416-R418). -/
structure Dump where
  /-- 8 bits DEST; R416 14_time_and_monitors; reset 0, off. -/
  dest : Nat := 0
  /-- 1 bit CLEAR; R416 14_time_and_monitors; reset 0. -/
  clear : Bool := false
  /-- 32 bits PERIOD_US; R416 14_time_and_monitors; reset 0 (DESIGN CHOICE, log entry 8). -/
  period : Nat := 0
  /-- 64 bits BASE; R416 14_time_and_monitors; reset 0 (DESIGN CHOICE, log entry 8). -/
  base : Nat := 0
  /-- 32 bits DEPTH; R416 14_time_and_monitors; reset 0 (DESIGN CHOICE, log entry 8). -/
  depth : Nat := 0
  /-- 32 bits SECTIONS; R416 14_time_and_monitors; reset 0 (DESIGN CHOICE, log entry 8). -/
  sections : Nat := 0
  /-- 64 bits, UPTIME of the commit point from which periods are counted; R418 14_time_and_monitors; reset 0. -/
  start : Nat := 0
  /-- number of the next period due; R418 14_time_and_monitors; reset 0. -/
  next : Nat := 0
  /-- 32 bits LAST_SEQ; R418 14_time_and_monitors; reset 0. -/
  lastSeq : Nat := 0
  /-- 16 bits MISSED; R418 14_time_and_monitors; reset 0. -/
  missed : Nat := 0
  /-- the period being written (WRITING is its presence), or none; R418 14_time_and_monitors; reset none. -/
  writing : Option Nat := none
  /-- 64 bytes, the header of the frame being written, whose SEQ is all ones; R417 14_time_and_monitors; reset empty. -/
  header : List Byte := []
deriving DecidableEq, Repr

/-! ### HBM (15_hbm_controllers) -/

/-- A stack: HBM_STACK_STATUS and its settings (R420-R423, R431). -/
structure Stack where
  /-- TEMP, signed °C; R423 15_hbm_controllers; reset 0. -/
  temp : Int := 0
  /-- STEP; R423 15_hbm_controllers; reset 0. -/
  step : Nat := 0
  /-- READY; R431 15_hbm_controllers; reset 0. -/
  ready : Bool := false
  /-- 8 bits MAX_TEMP, signed; R423 15_hbm_controllers; reset 0 (RWS). -/
  maxTemp : Int := 0
  /-- RH_THRESHOLD; R422 15_hbm_controllers; reset 2,048. -/
  rh : Nat := 2048
  /-- XMASK0-3; R420 15_hbm_controllers; reset 0. -/
  xmask : List Nat := [0, 0, 0, 0]
  /-- mapping orders that differ from R421, 2 bits per 1 GiB window; R420, R421 15_hbm_controllers; reset none. -/
  orders : NMap Nat := []
deriving DecidableEq, Repr

/-- A pseudo-channel: HBM_PC_STATUS and its protection (R424-R428). -/
structure PChan where
  /-- MODE 0 START-UP, 1 TEST, 2 RECOVERY, 3 IN_SERVICE; R425 15_hbm_controllers; reset 0. -/
  mode : Nat := 0
  /-- a refresh window has started since the mode was entered; R425 15_hbm_controllers; reset 0. -/
  window : Bool := false
  /-- 16 bits, RH_THRESHOLD in force in its running refresh window; R422, R424 15_hbm_controllers; reset 2,048. -/
  rhNow : Nat := 2048
  /-- 1 bit PAUSED; R427 15_hbm_controllers; reset 0. -/
  paused : Bool := false
  /-- 16 bits CE_COUNT; R429 15_hbm_controllers; reset 0. -/
  ce : Nat := 0
  /-- 8 bits UE_COUNT; R429 15_hbm_controllers; reset 0. -/
  ue : Nat := 0
  /-- UPTIME at which its running refresh window started, none before the first; R423 15_hbm_controllers; reset none, no window has started. -/
  windowAt : Option Nat := none
  /-- ns, length of its running refresh window: 32, 16 or 8 ms by the step at its start; R423 15_hbm_controllers; reset 32,000,000. -/
  windowNs : Nat := 32000000
  /-- 1 bit, an uncorrectable burst stands in it and no fence keeps readers off, as in the safe state, and in H0 and H1 after the warm reset that follows; which burst is not known; R429 15_hbm_controllers, R444 16_fault_handling; reset 0. -/
  bad : Bool := false
  /-- 32 bits NRR_COUNT; R424, R425 15_hbm_controllers; reset 0. -/
  nrr : Nat := 0
  /-- activate-count tables per bank: 16 entries (entry number to (row, count)); R424 15_hbm_controllers; reset empty. -/
  act : NMap (NMap (Nat × Nat)) := []
  /-- neighbour refreshes queued per bank; R424 15_hbm_controllers; reset empty. -/
  queue : NMap (List Nat) := []
deriving DecidableEq, Repr

/-! ### Faults (16_fault_handling) -/

/-- A unit fenced by a report, kept for the clock it was fenced in (R437). -/
structure FenceNow where
  /-- 64 bits, UPTIME of the fence; R437 16_fault_handling; reset none, no unit is fenced. -/
  at_ : Nat
  /-- the fence came from a count that reached its threshold, not from a contained event; R437 16_fault_handling; reset none, no unit is fenced. -/
  counted : Bool
  /-- 32 bits, the unit; R437 16_fault_handling; reset none, no unit is fenced. -/
  unit : Nat
deriving DecidableEq, Repr

/-- An open window: source, instance, count, start (R437). -/
structure Window where
  /-- 16 bits SOURCE; R437 16_fault_handling; reset none, no window is open. -/
  source : Nat
  /-- 32 bits, the unit whose reports are counted; R437 16_fault_handling; reset none, no window is open. -/
  inst : Nat
  /-- 32 bits COUNT; R437 16_fault_handling; reset none, no window is open. -/
  count : Nat
  /-- 64 bits, UPTIME at which it opened; R437 16_fault_handling; reset none, no window is open. -/
  start : Nat
deriving DecidableEq, Repr

/-- A fault record, 64 bytes (R433). -/
structure FRec where
  /-- 64 bits SEQ; R433 16_fault_handling; reset none, the log is empty. -/
  seq : Nat
  /-- 64 bits UPTIME; R433 16_fault_handling; reset none, the log is empty. -/
  uptime : Nat
  /-- 32 bits BOOT; R433 16_fault_handling; reset none, the log is empty. -/
  boot : Nat
  /-- 32 bits RESOURCE; R433 16_fault_handling; reset none, the log is empty. -/
  resource : Nat
  /-- 32 bits PLACEMENT; R21 01_architecture; reset none, the log is empty. -/
  placement : Nat
  /-- 16 bits SOURCE; R433 16_fault_handling; reset none, the log is empty. -/
  source : Nat
  /-- 8 bits CLASS; R433 16_fault_handling; reset none, the log is empty. -/
  cls : Nat
  /-- 8 bits ACTION; R433 16_fault_handling; reset none, the log is empty. -/
  action : Nat
  /-- 32 bits COUNT; R433 16_fault_handling; reset none, the log is empty. -/
  count : Nat
  /-- 32 bits TARGET; R433 16_fault_handling; reset none, the log is empty. -/
  target : Nat
  /-- 16 bytes DETAIL; R436 16_fault_handling; reset none, the log is empty. -/
  detail : List Byte
  /-- 64 bits JOURNAL_SEQ; R433 16_fault_handling; reset none, the log is empty. -/
  journalSeq : Nat
deriving DecidableEq, Repr

/-- A self-test under way (R442): its unit, the FAULT_CLEAR, a report that failed it, and the domain whose trial power-up it waits for (R474). -/
structure SelfTest where
  /-- 32 bits, resource identifier of its unit; R442 16_fault_handling; reset none, no self-test is under way. -/
  unit : Nat
  /-- its FAULT_CLEAR, or none; R442 16_fault_handling; reset none, no self-test is under way. -/
  cmd : Option Cmd
  /-- 1 bit, a report has failed it; R442 16_fault_handling; reset none, no self-test is under way. -/
  failed : Bool := false
  /-- 5 bits, the domain whose trial power-up it waits for; R474 18_power_clocks_reset; reset none. -/
  trial : Option Nat := none
deriving DecidableEq, Repr

/-- The fault collector. -/
structure Faults where
  /-- thresholds and windows that differ from R435: source to (N, T_MS); R438 16_fault_handling; reset of R435. -/
  cfg : NMap (Nat × Nat) := []
  /-- open windows; R437 16_fault_handling; reset none. -/
  windows : List Window := []
  /-- fenced units by resource identifier (accelerator engine e as 0xC000_0000 + e); R439 16_fault_handling; reset none. -/
  fenced : List Nat := []
  /-- fences of the last clock in which a report fenced a unit; R437 16_fault_handling; reset none. -/
  fencedNow : List FenceNow := []
  /-- 64 bits, UPTIME of the fatal event that entered the safe state; R437 16_fault_handling; reset none, no fatal event has come. -/
  fatalAt : Option Nat := none
  /-- 64 bits, UPTIME of the last comparison of the collector's halves; R443 16_fault_handling; reset none, none has been made. -/
  comparedAt : Option Nat := none
  /-- units fenced by escalation; R440 16_fault_handling; reset none. -/
  escalated : List Nat := []
  /-- fault log, oldest first, at most 4,096; R433 16_fault_handling; reset empty. -/
  log : List FRec := []
  /-- FLT_LOG_HEAD; R433 16_fault_handling; reset 1. -/
  next : Nat := 1
  /-- records waiting for the management firmware; R433 16_fault_handling; reset none. -/
  pending : List FRec := []
  /-- 16 bits LOST_RECORDS; R433 16_fault_handling; reset 0. -/
  lostRecords : Nat := 0
  /-- SAFE; R444 16_fault_handling; reset 0. -/
  safe : Bool := false
  /-- COLLECTOR_OK; R443 16_fault_handling; reset 1. -/
  collectorOk : Bool := true
  /-- Stag is held in reset after STAG_LOCKSTEP or STAG_UE; R444 16_fault_handling; reset 0. -/
  stagHeld : Bool := false
  /-- SAFE_CAUSE SOURCE, VALID, RESOURCE; R444 16_fault_handling; reset 0 (RWS). -/
  causeSource : Nat := 0
  /-- 1 bit VALID of FLT_SAFE_CAUSE; R444 16_fault_handling; reset 0 (RWS). -/
  causeValid : Bool := false
  /-- 32 bits RESOURCE of FLT_SAFE_CAUSE; R444 16_fault_handling; reset 0 (RWS). -/
  causeResource : Nat := 0
  /-- self-tests under way; R442 16_fault_handling; reset none. -/
  tests : List SelfTest := []
  /-- SMB_ALERT_N asserted; R495 19_package_and_electrical; reset not asserted. -/
  alert : Bool := false
  /-- messages lost by a fence of the die bridge, per class and direction; R439 16_fault_handling; reset 0. -/
  bridgeLost : NMap Nat := []
deriving DecidableEq, Repr

/-! ### Boot and trust (17_firmware_and_trust) -/

/-- One slot of an artefact kind in the boot flash (R447, R458, R459). -/
structure BootSlot where
  /-- 2 bits STATE: 0 empty, 1 writing, 2 valid, 3 invalid; R459 17_firmware_and_trust; reset 0. -/
  state : Nat := 0
  /-- contents of the slot from its start; R447, R458 17_firmware_and_trust; reset empty (DESIGN CHOICE, log entry 12). -/
  data : List Byte := []
  /-- 32 bits each, the check area: CRC-32C of the slot's blocks, those not listed 0; R451 17_firmware_and_trust; reset empty (DESIGN CHOICE, log entry 12). -/
  check : List Nat := []
  /-- bytes written since OFFSET 0; R458 17_firmware_and_trust; reset 0. -/
  point : Nat := 0
deriving DecidableEq, Repr

/-- One 16-byte record of the boot counter (R449). -/
structure BootRec where
  /-- 32 bits BOOT; R449 17_firmware_and_trust; reset none, no record is written. -/
  boot : Nat
  /-- 32 bits, the complement of BOOT; R449 17_firmware_and_trust; reset none, no record is written. -/
  inverse : Nat
  /-- 32 bits CRC-32C of bytes 0-11; R449 17_firmware_and_trust; reset none, no record is written. -/
  crc : Nat
deriving DecidableEq, Repr

/-- An activation under way (R463, R464). -/
structure Activating where
  /-- KINDS in [2:0], bit 8 for a kind 1 that was reverted; R463 17_firmware_and_trust; reset none, no activation is under way. -/
  outcome : Nat
  /-- slot of kind 3 that was active before; R463 17_firmware_and_trust; reset none, no activation is under way. -/
  oldProgram : Nat
  /-- what comes next: 2 the restart, 3 its end, 4 and 5 clusters A and B, 6 the program; R463 17_firmware_and_trust; reset none, no activation is under way. -/
  step : Nat
  /-- the new firmware does not reach readiness; R464 17_firmware_and_trust; reset none, no activation is under way. -/
  hangs : Bool
deriving DecidableEq, Repr

/-- An armed activation (R462). -/
structure Activation where
  /-- 8 bits KINDS; R462 17_firmware_and_trust; reset none, no activation is armed. -/
  kinds : Nat
  /-- 64 bits AT_NTIME; R462 17_firmware_and_trust; reset none, no activation is armed. -/
  at_ : Nat
  /-- 96 bytes EXPECT; R462 17_firmware_and_trust; reset none, no activation is armed. -/
  expect : List Byte
  /-- 1 bit WITH_PEER; R462 17_firmware_and_trust; reset none, no activation is armed. -/
  withPeer : Bool
deriving DecidableEq, Repr

/-- One copy of the flash directory (R448). -/
structure Directory where
  /-- 64 bits SEQ; R448 17_firmware_and_trust; reset 0 (DESIGN CHOICE, log entry 12). -/
  seq : Nat := 0
  /-- 2 bits, active slot per kind; R448 17_firmware_and_trust; reset slot 0 of every kind (DESIGN CHOICE, log entry 12). -/
  active : NMap Nat := []
  /-- 2 bits, previous active slot per kind; R448 17_firmware_and_trust; reset none (DESIGN CHOICE, log entry 12). -/
  previous : NMap Nat := []
  /-- TRIAL, bit k-1 for kind k; R448 17_firmware_and_trust; reset 0 (DESIGN CHOICE, log entry 12). -/
  trial : Nat := 0
  /-- 32 bits CRC-32C; R448 17_firmware_and_trust; reset 0, which is not that of an empty copy: neither copy is valid (DESIGN CHOICE, log entry 12). -/
  crc : Nat := 0
deriving DecidableEq, Repr

/-- Boot, firmware slots, directory, OTP. -/
structure Boot where
  /-- 2 bits PHASE; R454 17_firmware_and_trust; reset 0 ROM. -/
  phase : Nat := 0
  /-- RECOVERY; R457 17_firmware_and_trust; reset 0. -/
  recovery : Bool := false
  /-- REVERTED; R455 17_firmware_and_trust; reset 0 (RWS). -/
  reverted : Bool := false
  /-- TRIAL, bit k-1 for kind k; R463 17_firmware_and_trust; reset 0. -/
  trial : Nat := 0
  /-- LOAD_FAILED, bit k-1; R456 17_firmware_and_trust; reset 0. -/
  loadFailed : Nat := 0
  /-- COUNTER_FAULT; R449 17_firmware_and_trust; reset 0. -/
  counterFault : Bool := false
  /-- 32 bits BOOT; R449 17_firmware_and_trust; reset 0. -/
  bootNo : Nat := 0
  /-- the two sectors of the boot counter, each its records in the order written; R449 17_firmware_and_trust; reset erased (DESIGN CHOICE, log entry 12). -/
  counter : List (List BootRec) := [[], []]
  /-- directory: 2 bits, active slot per kind, 2 for none; R448 17_firmware_and_trust; reset slot 0 of every kind (DESIGN CHOICE, log entry 12). -/
  active : NMap Nat := []
  /-- directory: 2 bits, previous slot per kind, 2 for none; R448, R463 17_firmware_and_trust; reset none (DESIGN CHOICE, log entry 12). -/
  previous : NMap Nat := []
  /-- SEQ of the directory copy in force; R448 17_firmware_and_trust; reset 0 (DESIGN CHOICE, log entry 12). -/
  dirSeq : Nat := 0
  /-- 32 bits, CRC-32C of the directory copy in force; R448 17_firmware_and_trust; reset 0 (DESIGN CHOICE, log entry 12). -/
  dirCrc : Nat := 0
  /-- the older directory copy, which the next change rewrites; R448 17_firmware_and_trust; reset as the copy in force (DESIGN CHOICE, log entry 12). -/
  older : Directory := {}
  /-- slots by kind × 2 + slot; R447 17_firmware_and_trust; reset empty (DESIGN CHOICE, log entry 12: what the flash holds). -/
  slots : NMap BootSlot := []
  /-- header bytes 0-255 of what runs: 1 the management firmware, 2 and 4 the images of clusters A and B, 3 the pipeline program; R456, R469 17_firmware_and_trust; reset none. -/
  running : NMap (List Byte) := []
  /-- 256 bits, PROGRAM_HASH of the last committed pipeline program; R223 07_stage_programs, R469 17_firmware_and_trust; reset none, read as zeros. -/
  programHash : List Byte := []
  /-- UPTIME of the entry of a firmware that has not reached readiness, while the boot watchdog runs; R455 17_firmware_and_trust; reset none. -/
  watch : Option Nat := none
  /-- slot of kind 1 whose firmware was entered last, 2 for a recovery boot's artefact; R455 17_firmware_and_trust; reset 0. -/
  entered : Nat := 0
  /-- slots of kind 1 that the boot watchdog has failed since the reset; R455 17_firmware_and_trust; reset none. -/
  failedSlots : List Nat := []
  /-- an activation under way; R463 17_firmware_and_trust; reset none. -/
  activating : Option Activating := none
  /-- the next step of the boot in the order of R454, 11 the end of a firmware restart, 12 the end of a recovery artefact's verification, 0 none; R454, R457, R464 17_firmware_and_trust; reset 0. -/
  stage : Nat := 0
  /-- 64 bits, UPTIME at which that step ends; R454 17_firmware_and_trust; reset 0 (the model's own free value, log entry 4). -/
  stageAt : Nat := 0
  /-- 64 bits, UPTIME from which the bounds of R454 run; R454 17_firmware_and_trust; reset 0. -/
  bootAt : Nat := 0
  /-- what the boot in progress meets; R454 17_firmware_and_trust; reset none (the model's own, log entry 4). -/
  input : Option BootInput := none
  /-- PCIe configuration is ready: requests are no longer answered with retry status; R364 13_host_interface, R454 17_firmware_and_trust; reset 0. -/
  cfgReady : Bool := false
  /-- manufacture certificate chain of the identity area; R468 17_firmware_and_trust; reset empty (DESIGN CHOICE, log entry 12). -/
  chain : List Byte := []
  /-- endorsement of the identity area: attestation public key, SERIAL, signature; R468 17_firmware_and_trust; reset absent (DESIGN CHOICE, log entry 12). -/
  endorsement : List Byte := []
  /-- armed activation; R462 17_firmware_and_trust; reset none. -/
  armed : Option Activation := none
  /-- 64 words of 64 bits of OTP, first copy; R470 17_firmware_and_trust; reset word 1 reads STEPPING 0xB1, the others 0 (DESIGN CHOICE, log entry 12: as manufactured). -/
  otp : NMap Nat := [(1, 0xB1)]
  /-- 64 words of 64 bits of OTP, second copy; R470 17_firmware_and_trust; reset as the first copy (DESIGN CHOICE, log entry 12). -/
  otpCopy : NMap Nat := [(1, 0xB1)]
  /-- OTP_SECRET is locked and reads as zero; R467 17_firmware_and_trust; reset 0. -/
  secretLocked : Bool := false
  /-- 48 bytes, the key store's seed of the identity key; R467 17_firmware_and_trust; reset empty, no key is derived. -/
  identitySeed : List Byte := []
  /-- 48 bytes, the key store's seed of the attestation key; R467 17_firmware_and_trust; reset empty, no key is derived. -/
  attestSeed : List Byte := []
  /-- key record data held in Stag SRAM; R458 17_firmware_and_trust; reset empty. -/
  keyData : List Byte := []
  /-- BOOT_RCV_CTRL LENGTH; R457 17_firmware_and_trust; reset 0. -/
  rcvLength : Nat := 0
  /-- BOOT_RCV_STATUS STATE, CAUSE, FAIL; R457 17_firmware_and_trust; reset 0. -/
  rcvState : Nat := 0
  /-- 8 bits CAUSE of BOOT_RCV_STATUS; R457 17_firmware_and_trust; reset 0. -/
  rcvCause : Nat := 0
  /-- 8 bits FAIL of BOOT_RCV_STATUS; R457 17_firmware_and_trust; reset 0. -/
  rcvFail : Nat := 0
  /-- management firmware restarts; R464 17_firmware_and_trust; reset 0. -/
  restarting : Bool := false
deriving DecidableEq, Repr

/-! ### Power, clocks, pins (18_power_clocks_reset, 19_package_and_electrical) -/

/-- A power domain: PWR_DOMAIN_STATUS (R474, R475). -/
structure Domain where
  /-- 1 bit ON; R474, R475 18_power_clocks_reset; reset 0, PD_AON 1. -/
  on : Bool := false
  /-- 1 bit HELD_OFF; R474 18_power_clocks_reset; reset 0. -/
  heldOff : Bool := false
  /-- 8 bits REG_TEMP, signed; R474 18_power_clocks_reset; reset 0. -/
  temp : Int := 0
  /-- 16 bits REG_FAULTS; R474 18_power_clocks_reset; reset 0 (RWS). -/
  faults : Nat := 0
  /-- 1 bit, switched on at run time and not yet in regulation; R475 18_power_clocks_reset; reset 0. -/
  ramping : Bool := false
deriving DecidableEq, Repr

/-- Supply, resets, straps and pins. -/
structure Power where
  /-- domains by number; R475 18_power_clocks_reset; reset off, PD_AON on. -/
  domains : NMap Domain := [(0, { on := true })]
  /-- domains that wait to be switched at run time, one at a time; R475 18_power_clocks_reset; reset none. -/
  waiting : List Nat := []
  /-- UPTIME from which another of PD_FAB0, PD_FAB1 and PD_PAIR may be switched: 1 ms after the last one; R475 18_power_clocks_reset; reset 0. -/
  switchFrom : Nat := 0
  /-- domains that have still to power up after a reset, in their order; R475 18_power_clocks_reset; reset none. -/
  bringUp : List Nat := []
  /-- UPTIME at which the first of them begins to ramp, or ends; R475 18_power_clocks_reset; reset 0. -/
  bringAt : Nat := 0
  /-- 16 bits VIN_MV; R473 18_power_clocks_reset; reset 0. -/
  vin : Nat := 0
  /-- 16 bits IIN_10MA; R473 18_power_clocks_reset; reset 0. -/
  iin : Nat := 0
  /-- 12 bits POWER_W; R473 18_power_clocks_reset; reset 0. -/
  watts : Nat := 0
  /-- supply samples since the last update of PWR_SUPPLY_STATUS, which is made every 100 µs; R473 18_power_clocks_reset; reset 0. -/
  samples : Nat := 0
  /-- SUPPLY_WARN; R473 18_power_clocks_reset; reset 0. -/
  warn : Bool := false
  /-- UPTIME-free sample counts: µs below 10.5 V, µs in range, and µs above 11.0 V after a brown-out; R473 18_power_clocks_reset; reset 0. -/
  lowUs : Nat := 0
  /-- µs of supply samples in range; R473 18_power_clocks_reset; reset 0. -/
  goodUs : Nat := 0
  /-- µs of supply samples above 11.0 V after a brown-out; R473 18_power_clocks_reset; reset 0. -/
  backUs : Nat := 0
  /-- a brown-out holds the device in power-on reset; R473 18_power_clocks_reset; reset 0. -/
  brownout : Bool := false
  /-- LAST_RESET; R480 18_power_clocks_reset; reset 1. -/
  lastReset : Nat := 1
  /-- 16 bits WARM_COUNT; R480 18_power_clocks_reset; reset 0 (RWS). -/
  warmCount : Nat := 0
  /-- BROWNOUTS; R480 18_power_clocks_reset; reset 0 (RWS). -/
  brownouts : Nat := 0
  /-- PORST_N is low; R476 18_power_clocks_reset; reset 1: State.reset is the device held in power-on reset (log entry 4). -/
  porst : Bool := true
  /-- a warm reset is in progress; R482 18_power_clocks_reset; reset 0. -/
  warm : Bool := false
  /-- UPTIME at the start of a warm reset; R482 18_power_clocks_reset; reset 0. -/
  warmAt : Nat := 0
  /-- WARM_RST_N is held low; R481 18_power_clocks_reset; reset 0. -/
  warmLow : Bool := false
  /-- REFCLK lost: CK_TIME stands still; R478 18_power_clocks_reset; reset 0. -/
  refclkLost : Bool := false
  /-- 1 bit, strap HOST_SPLIT sampled; R489 19_package_and_electrical; reset as strapped (DESIGN CHOICE 0, log entry 12). -/
  hostSplit : Bool := false
  /-- 1 bit, strap PCIE_CLKMODE sampled; R489 19_package_and_electrical; reset as strapped (DESIGN CHOICE 0, log entry 12). -/
  clkMode : Bool := false
  /-- 1 bit, strap BOOT_MODE sampled; R489 19_package_and_electrical; reset as strapped (DESIGN CHOICE 0, log entry 12). -/
  bootMode : Bool := false
  /-- 1 bit, strap PAIR_ID sampled; R489 19_package_and_electrical; reset as strapped (DESIGN CHOICE 0, log entry 12). -/
  pairId : Bool := false
  /-- 2 bits, straps SMB_ADDR1 and SMB_ADDR0 sampled; R489 19_package_and_electrical; reset as strapped (DESIGN CHOICE 0, log entry 12). -/
  smbAddr : Nat := 0
  /-- 8 bits, levels of GPIO7-GPIO0; R488, R489 19_package_and_electrical; reset 0. -/
  gpio : Nat := 0
  /-- 8 bits TJ_F, signed; R435 16_fault_handling, 19_package_and_electrical; reset 0. -/
  tjF : Int := 0
  /-- 8 bits TJ_T, signed; R435 16_fault_handling, 19_package_and_electrical; reset 0. -/
  tjT : Int := 0
deriving DecidableEq, Repr

/-! ### What the device shows at its edge -/

/-- One thing the device emits: a completion, a message, a DMA write, a frame, a cell, a pin level. The
list of them is the model's own record of outputs (log entry 6). -/
inductive Out where
  /-- a command completion (R41): ring, entry index, opcode, TAG, STATUS, DETAIL, result, JOURNAL_SEQ, GENERATION, ORIGIN -/
  | completion (path : Path) (index opcode tag status detail : Nat) (result : List Byte) (seq generation origin : Nat)
  /-- MSI-X vector of PF0 (R370) -/
  | msix (vector : Nat)
  /-- interrupt message of a completion ring (R383) -/
  | message (addr data : Nat)
  /-- DMA write of a slice (PASID) to host memory, or of PF0 (none) -/
  | dma (pasid : Option Nat) (addr : Nat) (bytes : List Byte)
  /-- a DMA write of frame or job output with relaxed ordering (R367) -/
  | dmaRelaxed (pasid addr : Nat) (bytes : List Byte)
  /-- a frame sent on a port, with its FCS (R221); MACsec applied where the flag is set -/
  | frame (port : Nat) (bytes : List Byte) (secured : Bool)
  /-- a pause or PFC frame sent, with its FCS (R125) -/
  | pause (port : Nat) (bytes : List Byte)
  /-- what a port's transmitter sends from now on: 0 local fault, 1 ODU-AIS, 2 its stream with BDI set, 3 its stream, 4 nothing, 5 remote fault, 6 idle -/
  | line (port kind : Nat)
  /-- a cell sent on a fabric lane -/
  | cell (lane : Nat) (bytes : List Byte)
  /-- a lane marker on a fabric or pair lane: the sender's device number, its fabric lane index and RECEIVING (R279) -/
  | marker (lane device index : Nat) (receiving : Bool)
  /-- a message of the pair link: class of R307, sequence number (0 where the class is not reliable), the pair lane that carries its first word (R306), and content -/
  | pair (cls seq lane : Nat) (words : List Nat)
  /-- a redirect record on the pair link (R326) and the pair lane that carries its first word (R306) -/
  | redirect (lane : Nat) (bytes : List Byte)
  /-- a change of level of an output pin: FAULT_N, PPS_OUT, PAIR_BEAT_OUT, PAIR_ACT_OUT, SMB_ALERT_N -/
  | pin (name : String) (level : Bool)
  /-- the serial response to a request that arrives while another is executed (R60): the completed header, with STATUS BUSY -/
  | serialBusy (header : List Byte)
  /-- data of an observation read, a JTAG capture or a register read -/
  | data (value : Nat)
deriving DecidableEq, Repr

/-- The output pins as the device drives them (R488 19_package_and_electrical). -/
structure Pins where
  /-- FAULT_N, low while asserted; R445 16_fault_handling, R480 18_power_clocks_reset; reset 0. -/
  faultN : Bool := false
  /-- SMB_ALERT_N, low while asserted; R495 19_package_and_electrical; reset 1. -/
  smbAlertN : Bool := true
  /-- PPS_OUT; R407 14_time_and_monitors; reset 0. -/
  ppsOut : Bool := false
  /-- PAIR_BEAT_OUT; R308 11_pair_operation; reset 0. -/
  pairBeatOut : Bool := false
  /-- PAIR_ACT_OUT; R308 11_pair_operation; reset 0. -/
  pairActOut : Bool := false
deriving DecidableEq, Repr

/-! ### The whole state -/

/-- The device. -/
structure State where
  /-- commands waiting, first in, first out: the queue of the block's commands (the model's own, log entry 2); reset empty. -/
  pending : List Instr := []
  /-- the management block; R31-R84 02_command_mailbox, 03_transactions_and_journal; reset of its fields. -/
  mgt : Mgt := {}
  /-- the change journal; R85-R97 03_transactions_and_journal; reset of its fields. -/
  journal : Journal := {}
  /-- the timebase; R399-R409 14_time_and_monitors; reset of its fields. -/
  time : Timebase := {}
  /-- network ports by number (octet code × 8 + first lane); R99 04_network_ports; reset none configured. -/
  ports : NMap Port := []
  /-- what the transmitter of each port sends, as the line outputs name it; R103, R117, R118 04_network_ports, R444 16_fault_handling; reset 4, nothing. -/
  lines : NMap Nat := []
  /-- protection groups by number; R127 04_network_ports; reset none. -/
  groups : NMap ProtGroup := []
  /-- ingress staging buffers by source port: frames past their checks; R101, R106 04_network_ports; reset empty. -/
  staging : NMap (List Arrival) := []
  /-- the bank of double-banked configuration named by bit 0 of the current tag; R69 03_transactions_and_journal, R144 05_parser_and_classification; reset of its fields. -/
  bank : Bank := {}
  /-- the other bank; R69 03_transactions_and_journal, R144 05_parser_and_classification; reset of its fields. -/
  bankOld : Bank := {}
  /-- policer buckets by policer; R212 07_stage_programs; reset 0. -/
  buckets : NMap Buckets := []
  /-- mirror sessions by number; R214 07_stage_programs; reset disabled. -/
  mirrors : NMap Mirror := []
  /-- samplers by number, 0-4,095 flow and 4,096-4,287 port samplers; R217 07_stage_programs; reset off. -/
  samplers : NMap Sampler := []
  /-- 16 bits signed per ingress pipeline, HBM allowance in hundredths of an access; R198 07_stage_programs; reset 25,600. -/
  allowance : NMap Int := []
  /-- 64 bits, UPTIME of the allowance's last fill per pipeline; R198 07_stage_programs; reset 0. -/
  allowAt : NMap Nat := []
  /-- 32 bits HOLD_CLOCKS per pipeline; R198 07_stage_programs; reset 0. -/
  holdClocks : NMap Nat := []
  /-- 64 bits, UPTIME since which the pipelines are held for a retraining pause, or none; R427 15_hbm_controllers; reset none. -/
  retrainHold : Option Nat := none
  /-- 32 bits LIMIT of STG_STATUS; R197 07_stage_programs; reset 0. -/
  limit : Nat := 0
  /-- lookup tables by number, 0-1,023; R161 06_lookup_tables; reset none. -/
  tables : NMap Table := []
  /-- rule groups by number, 0-1,023; R145 05_parser_and_classification; reset empty. -/
  ruleGroups : NMap RuleGroup := []
  /-- table command register sets 0-23; R170 06_lookup_tables; reset 0. -/
  sets : NMap CmdSet := []
  /-- packets in the pipelines, by the model's own number; R142 05_parser_and_classification; reset none. -/
  pkts : NMap Pkt := []
  /-- the model's own number of the next packet; R142 05_parser_and_classification; reset 0 (the model's own). -/
  nextPkt : Nat := 0
  /-- 8 bits, the next header slot of an ingress pipeline, 0-255; slot 255 is the one reserved for injected headers; R27 01_architecture; reset 0 (log entry 91). -/
  hdrSlot : NMap Nat := []
  /-- class DC0 of the bridge: the messages in flight, first sent first, then those that wait for credit; R13-R15 01_architecture; reset empty. -/
  dc0 : List BridgeMsg := []
  /-- class DC1 of the bridge: packets and epoch markers in flight, first sent first, then those that wait for credit; R13-R15 01_architecture; reset empty. A message of a control class, or a descriptor to the cores, is received in the step that sends it (log entry 81). -/
  dc1 : List BridgeMsg := []
  /-- 64 bits MON_BRIDGE_TX by class and direction; R16 01_architecture; reset 0. -/
  bridgeTx : NMap Nat := []
  /-- 64 bits MON_BRIDGE_RX by class and direction; R16 01_architecture; reset 0. -/
  bridgeRx : NMap Nat := []
  /-- the buffer manager; R224-R249 08_buffer_manager; reset of its fields. -/
  buf : Buffers := {}
  /-- queues, scheduler trees, gates and credit; R250-R277 09_queues_and_scheduling; reset of its fields. -/
  sched : Sched := {}
  /-- the fabric interface; R278-R305 10_fabric_interface; reset of its fields. -/
  fabric : Fabric := {}
  /-- the pair interface; R306-R327 11_pair_operation; reset of its fields. -/
  pair : Pair := {}
  /-- the packet cores; R328-R363 12_packet_cores; reset of its fields. -/
  tahr : Tahr := {}
  /-- the host interface; R364-R398 13_host_interface; reset of its fields. -/
  host : HostIf := {}
  /-- monitor instances by number; R410 14_time_and_monitors; reset of R414. -/
  monitors : NMap Monitor := []
  /-- dump streams 0 and 1; R416 14_time_and_monitors; reset off. -/
  dumps : NMap Dump := []
  /-- 64 bits each, counters of the statistics sections: section × 2^44 + element × 2^12 + position; R419 14_time_and_monitors; reset 0. -/
  counters : NMap Nat := []
  /-- HBM stacks by number; R420 15_hbm_controllers; reset of their fields. -/
  hbm : NMap Stack := []
  /-- pseudo-channels, stack × 32 + pseudo-channel; R424 15_hbm_controllers; reset of their fields. -/
  pchans : NMap PChan := []
  /-- the fault collector; R432-R446 16_fault_handling; reset of its fields. -/
  faults : Faults := {}
  /-- boot, firmware slots, directory, OTP; R447-R471 17_firmware_and_trust; reset of its fields. -/
  boot : Boot := {}
  /-- supply, domains, resets and straps; R472-R489 18_power_clocks_reset; reset of its fields. -/
  power : Power := {}
  /-- contents of HBM, cluster memory and core scratch by 48-bit device address, one byte each, canonical; R22 01_architecture; reset nothing listed; an unlisted byte reads 0 (R431, log entry 7). -/
  mem : List Host.Cell := []
  /-- output pins; R488 19_package_and_electrical; reset of its fields. -/
  pins : Pins := {}
  /-- what the device has emitted, newest first (the model's own, log entry 6); reset none. -/
  out : List Out := []
  /-- the model's own counter of free values drawn, no state of the spec (log entry 1); reset 0 (DESIGN CHOICE, log entry 1). -/
  freeCtr : Nat := 0
deriving DecidableEq, Repr

/-- Why a step stops with a fault. -/
inductive Fault where
  /-- raised by SUPPLY_SAMPLE for an input beyond the ratings of R498, for which the spec states no behaviour; safe: the model stops where the spec says nothing -/
  | beyondRatings
deriving DecidableEq, Repr

/-- Why a step refuses a command. -/
inductive Refusal where
  /-- no meaning has been given to this row yet; raised by the dispatcher's arm of that row; safe -/
  | notModelled (mnemonic : String)
deriving DecidableEq, Repr

/-- Reset value of a mailbox ring (MGT_MB_STATUS and MGT_MB_CONFIG, R31, R62). -/
def MbRing.reset (n : Nat) : MbRing :=
  if n = 0 then { state := 1, log2 := 4, resident := true }
  else if n = 4 ∨ n = 6 then { state := 1 }
  else {}

/-- The default rights mask of the management serial origin (R56): R of every class 0x01 to 0x17, change
of DEVICE (0x01), FAULT (0x14) and FIRMWARE (0x15). -/
def serialDefaultMask : Nat := 0x5F555555555C

/-- The machine in power-on reset, PORST_N low (R476, R480, R483): every register at the value its table
gives; the boot of R454 runs at PORST_N_RELEASE (log entry 4). -/
def State.reset : State :=
  { mgt := { rings := [(0, MbRing.reset 0), (4, MbRing.reset 4), (6, MbRing.reset 6)],
             serialMask := serialDefaultMask } }

end Sys2Proof.Machine
end

