-- ==== Sys2Proof/Machine/Ops.lean ====
section
/-! DEFINITION. The operations every block shares: status codes, resource identifiers, device memory, counters, free values, the change journal (03_transactions_and_journal) and the entry to the safe state (R444 16_fault_handling). -/

namespace Sys2Proof.Machine

/-! ### Status codes (R49 02_command_mailbox) -/
namespace St
def success : Nat := 0x0000
def dryRunOk : Nat := 0x0001
def badVersion : Nat := 0x0010
def badOpcode : Nat := 0x0011
def badLength : Nat := 0x0012
def reservedNonzero : Nat := 0x0013
def badField : Nat := 0x0014
def badResource : Nat := 0x0015
def notPresent : Nat := 0x0016
def badAddress : Nat := 0x0017
def resultLost : Nat := 0x0018
def denied : Nat := 0x0020
def foreignObject : Nat := 0x0021
def wrongState : Nat := 0x0030
def notQuiesced : Nat := 0x0031
def noTxn : Nat := 0x0032
def txnConflict : Nat := 0x0033
def txnLimit : Nat := 0x0034
def noSpace : Nat := 0x0040
def notFound : Nat := 0x0041
def exists_ : Nat := 0x0042
def busy : Nat := 0x0050
def journalFull : Nat := 0x0060
def fenced : Nat := 0x0070
def safeState : Nat := 0x0071
def internalError : Nat := 0x00FF
end St

/-- A refusal: STATUS and DETAIL of the completion. -/
structure Fail where
  status : Nat
  detail : Nat := 0
  /-- the result that goes with the refusal: FAILED_INDEX of R82 and R169 -/
  result : List Byte := []
deriving DecidableEq, Repr

/-- A refusal with its DETAIL. -/
def failAt (status detail : Nat) : Fail := { status := status, detail := detail }

/-- A field value out of range, with the field's offset (R39 DETAIL). -/
def badField (off : Nat) : Fail := failAt St.badField off
/-- A refusal without DETAIL. -/
def failWith (status : Nat) : Fail := failAt status 0
/-- The first failing check of a list: each is a condition that must hold and the refusal if it does not. -/
def firstFail : List (Bool × Fail) → Option Fail
  | [] => none
  | (ok, f) :: rest => if ok then firstFail rest else some f
/-- A check passes unless it names a refusal. -/
def require (o : Option Fail) : Except Fail Unit := match o with | none => .ok () | some f => .error f

/-! ### Resource identifiers (R19, R20 01_architecture) -/

/-- Kind in bits [31:27], index in [26:0]. -/
def resId (kind index : Nat) : Nat := kind * 2 ^ 27 + index
/-- Kind of an identifier. -/
def resKind (r : Nat) : Nat := r / 2 ^ 27
/-- Index of an identifier. -/
def resIndex (r : Nat) : Nat := r % 2 ^ 27

/-- Number of indices of a kind, 0 for a reserved kind; kind 0x0C is checked apart. -/
def resCount (kind : Nat) : Nat :=
  match kind with
  | 0x01 => 512 | 0x02 => 512 | 0x03 => 1048576 | 0x04 => 131072 | 0x05 => 1048576 | 0x06 => 25165824
  | 0x08 => 64 | 0x09 => 64 | 0x0A => 131072 | 0x0B => 16384 | 0x0C => 28 | 0x0D => 192 | 0x0E => 64
  | 0x10 => 6 | 0x11 => 2 | 0x12 => 8 | 0x13 => 6 | 0x14 => 1 | 0x18 => 1 | 0x19 => 2048 | 0x1C => 1
  | _ => 0

/-- The identifier names a resource of R19. -/
def resValid (r : Nat) : Bool :=
  let k := resKind r
  let i := resIndex r
  decide (r < 2 ^ 32) && decide (i < resCount k) && !(k == 0x0C && decide (12 ≤ i) && decide (i < 16))

/-- A word of the OTP: a bit reads as 1 when it is blown in either copy (R470). -/
def otpWord (s : State) (w : Nat) : Nat := mgetD s.boot.otp w 0 ||| mgetD s.boot.otpCopy w 0

/-- The part is a DRV7512-B1S (R1 00_scope, FABRIC_FUSED of OTP word 1). -/
def isB1S (s : State) : Bool := bit (otpWord s 1) 8

/-- The identifier names a resource that the fused variant lacks (R2): a fabric octet or lane. -/
def resFused (s : State) (r : Nat) : Bool :=
  let i := resIndex r
  isB1S s && ((resKind r == 0x08 && decide (24 ≤ i) && decide (i < 62)) ||
    (resKind r == 0x01 && decide (192 ≤ i) && decide (i < 496)))

/-- R20: BAD_RESOURCE or NOT_PRESENT, none where the identifier may be used. -/
def resCheck (s : State) (r : Nat) : Option Fail :=
  if !resValid r then some (failWith St.badResource)
  else if resFused s r then some (failWith St.notPresent) else none

/-! ### Outputs and free values -/

/-- Emit one output (log entry 6). -/
def emit (o : Out) (s : State) : State := { s with out := o :: s.out }
/-- Emit outputs in order. -/
def emits (os : List Out) (s : State) : State := os.foldl (fun s o => emit o s) s

/-- Draw a free value of `w` bits (log entry 1). -/
def draw (w : Nat) (s : State) : Nat × State :=
  ((Config.freeValue w s.freeCtr).toNat, { s with freeCtr := s.freeCtr + 1 })
/-- Draw a free choice below `n`. -/
def drawBelow (n : Nat) (s : State) : Nat × State :=
  let r := draw 32 s
  (r.1 % n, r.2)
/-- Draw `n` free bytes. -/
def drawBytes (n : Nat) (s : State) : List Byte × State :=
  let r := draw (8 * n) s
  (leBytes n r.1, r.2)

/-! ### Counters (R419 14_time_and_monitors) -/

/-- Key of counter `pos` of element `elem` of section `sec`. -/
def counterKey (sec elem pos : Nat) : Nat := (sec * 2 ^ 32 + elem) * 2 ^ 12 + pos
/-- Value of a counter. -/
def counter (s : State) (sec elem pos : Nat) : Nat := mgetD s.counters (counterKey sec elem pos) 0
/-- Add to a counter; counters stop in the safe state (R444). -/
def count (sec elem pos n : Nat) (s : State) : State :=
  if s.faults.safe then s
  else { s with counters := mput s.counters (counterKey sec elem pos)
                              ((counter s sec elem pos + n) % 2 ^ 64) }

/-! ### Device memory (R22 01_architecture) -/

/-- The canonical form: addresses strictly rise and no listed byte is 0, the value of an unlisted one. -/
def Memory.wf : List Host.Cell → Bool
  | [] => true
  | [(_, b)] => b != 0
  | (a, b) :: (c, d) :: m => b != 0 && decide (a < c) && Memory.wf ((c, d) :: m)

/-- Byte at an address; an unlisted one reads 0 (R431 zeroes the stacks; log entry 7 for the others). -/
def Memory.read : List Host.Cell → Nat → Byte
  | [], _ => 0
  | (a, b) :: m, k => if a = k then b else Memory.read m k

/-- Write one byte, keeping the canonical form. -/
def Memory.write : List Host.Cell → Nat → Byte → List Host.Cell
  | [], k, v => if v = 0 then [] else [(k, v)]
  | (a, b) :: m, k, v =>
    if k < a then (if v = 0 then (a, b) :: m else (k, v) :: (a, b) :: m)
    else if k = a then (if v = 0 then m else (k, v) :: m)
    else (a, b) :: Memory.write m k v

/-- `n` bytes from an address upwards. -/
def Memory.reads (m : List Host.Cell) : Nat → Nat → List Byte
  | _, 0 => []
  | a, n + 1 => Memory.read m a :: Memory.reads m (a + 1) n
/-- Write bytes from an address upwards. -/
def Memory.writes (m : List Host.Cell) : Nat → List Byte → List Host.Cell
  | _, [] => m
  | a, b :: bs => Memory.writes (Memory.write m a b) (a + 1) bs
/-- Erase a range of addresses. -/
def Memory.clear (m : List Host.Cell) (lo hi : Nat) : List Host.Cell :=
  m.filter (fun c => c.1 < lo || hi ≤ c.1)

/-- Base of HBM stack n. -/
def hbmBase (n : Nat) : Nat := 0x100000000000 + n * 0x800000000
/-- Size of a stack. -/
def hbmSize : Nat := 24 * 2 ^ 30
/-- The stack that holds a device address. -/
def stackOf (a : Nat) : Option Nat :=
  let n := (a - 0x100000000000) / 0x800000000
  if 0x100000000000 ≤ a && decide (n < 6) && decide ((a - 0x100000000000) % 0x800000000 < hbmSize) then some n else none
/-- The byte is one of the memories of R22 that hold data: cluster memories, core scratch and the stacks. -/
def isDataAddr (a : Nat) : Bool :=
  (decide (0x20000000 ≤ a) && decide (a < 0x22000000)) ||
  (decide (0x30000000 ≤ a) && decide (a < 0x30400000)) || (stackOf a).isSome

/-! ### Units and fences (R439, R440 16_fault_handling) -/

/-- The group whose fence covers a unit: the octet of a lane, the cluster of a core, the stack of a pseudo-channel. -/
def groupOf (r : Nat) : Option Nat :=
  match resKind r with
  | 0x01 => some (resId 0x08 (resIndex r / 8))
  | 0x09 => some (resId 0x11 (resIndex r / 32))
  | 0x0D => some (resId 0x13 (resIndex r / 32))
  | _ => none
/-- The group of a unit is fenced. -/
def groupFenced (s : State) (r : Nat) : Bool :=
  match groupOf r with | some g => s.faults.fenced.contains g | none => false
/-- The unit or its group is fenced. -/
def isFenced (s : State) (r : Nat) : Bool := s.faults.fenced.contains r || groupFenced s r

/-- Accelerator engine `e` as a fence target (kind 0x18 with the engine in DETAIL): the model's own name. -/
def engineUnit (e : Nat) : Nat := 0xC0000000 + e + 1

/-! ### Boot and modes -/

/-- Boot number, paired with every UPTIME stamp (R399). -/
def bootNo (s : State) : Nat := s.boot.bootNo
/-- The device is out of reset: neither a power-on reset nor a warm reset holds it. -/
def running (s : State) : Bool := !s.power.porst && !s.power.brownout && !s.power.warm
/-- Forwarding and traffic are not stopped by the safe state or a reset. -/
def trafficOn (s : State) : Bool := running s && !s.faults.safe

/-! ### The change journal (R85-R97) -/

/-- ORIGIN of a record or completion (02_command_mailbox, *Origins and rights*). -/
def originOf : Path → Nat
  | .pf0 _ => 0x1000
  | .slice n => 0x2000 + n
  | .serial => 0x3000
  | .peer => 0x4000
  | .firmware => 0x5000
  | .debug => 0x7000

/-- Ring capacity C in records (R86, R87). -/
def journalCap (j : Journal) : Nat := if j.sram then 4096 else j.sizeMib * 2 ^ 20 * 7 / 8 / 64
/-- Free space in records (*When the journal fills*). -/
def journalFree (j : Journal) : Nat := journalCap j - (j.head - j.release)
/-- Size of the payload area: the last eighth of the region, none in Stag SRAM. -/
def payloadArea (j : Journal) : Nat := if j.sram then 0 else j.sizeMib * 2 ^ 20 / 8
/-- The record with this SEQ is a signature record. -/
def isSignature (j : Journal) (seq : Nat) : Bool := j.recs.any (fun r => r.seq == seq && r.typ == 4)
/-- Bytes the signatures hold in the payload area. -/
def signatureBytes (j : Journal) : Nat :=
  (j.payloads.filter (fun p => isSignature j p.1)).foldl (fun a p => a + p.2.2.length) 0
/-- Bytes all records hold in the payload area. -/
def payloadBytes (j : Journal) : Nat := j.payloads.foldl (fun a p => a + p.2.2.length) 0
/-- A command's payload of `n` bytes fits outside the 1 MiB reserved for signatures (R88). -/
def payloadFits (j : Journal) (n : Nat) : Bool :=
  payloadBytes j - signatureBytes j + max (signatureBytes j) (2 ^ 20) + n ≤ payloadArea j

/-- Records that follow a command record with a payload of `n` bytes (R88). -/
def contCount (n : Nat) : Nat := if n ≤ 9690 then ceilDiv n 38 else 1

/-- A command's records may be written: outside the reserve of R97, and its payload fits (R51, R88; DEDUCED, log entry 13). -/
def journalRoom (j : Journal) (payloadLen : Nat) : Bool :=
  !j.full && decide (journalCap j / 1024 + 1 + contCount payloadLen ≤ journalFree j) &&
  (decide (payloadLen ≤ 9690) || payloadFits j payloadLen)

/-- Learning and aging are paused: by the journal (R95, R96) or by a firmware restart (R464). -/
def learningPaused (s : State) : Bool := s.journal.learnPaused || s.boot.restarting

/-- Note that a pause of learning and aging began or ended. -/
def notePause (s : State) : State :=
  match learningPaused s, s.journal.pauseSince with
  | true, none => { s with journal.pauseSince := some s.time.uptime }
  | false, some t => { s with journal.pauseSince := none, journal.pausedNs := s.journal.pausedNs + (s.time.uptime - t) }
  | _, _ => s
/-- Unpaused time (R505). -/
def unpausedNow (s : State) : Nat := (s.journal.pauseSince.getD s.time.uptime) - s.journal.pausedNs

/-- Levels of R95; a crossing signals MSI-X vector 5 (R370). -/
def journalLevels (s : State) : State :=
  let j := s.journal
  let free := journalFree j
  let c := journalCap j
  let paused := if free ≤ c / 512 then true else if c / 256 < free then false else j.learnPaused
  let full := if free ≤ c / 1024 then true else if c / 256 < free then false else j.full
  let s' := notePause { s with journal := { j with learnPaused := paused, full := full } }
  if paused != j.learnPaused || full != j.full then emit (.msix 5) s' else s'

/-- The 40 bytes that follow SEQ in a command, batch or checkpoint record, up to CHAIN (R88). -/
def recBody (uptime generation object resource boot opcode status origin typ cont : Nat) : List Byte :=
  leBytes 8 uptime ++ leBytes 8 generation ++ leBytes 8 object ++ leBytes 4 resource ++ leBytes 4 boot ++
  leBytes 2 opcode ++ leBytes 2 status ++ leBytes 2 origin ++ leBytes 1 typ ++ leBytes 1 cont

/-! ### The pair link (R306, R307 11_pair_operation) -/

/-- The pair lane, 0 to 15, of a position in the rotation: over both octets at FULL width, over one at HALF (R306). -/
def bondLane (link pos : Nat) : Nat := if link = 3 then pos % 16 else (if link = 2 then 8 else 0) + pos % 8
/-- The rotation after `n` more words of 16 bytes. -/
def bondNext (n : Nat) (s : State) : State := { s with pair.bond := (s.pair.bond + n) % 16 }

/-- Put one message on the pair link. How many words a message takes is the link's own coding, which the spec does not give (log entry 80). -/
def pairEmit (cls seq : Nat) (words : List Nat) (s : State) : State :=
  bondNext (Config.pairWords cls words).toNat (emit (.pair cls seq (bondLane s.pair.link s.pair.bond) words) s)

/-- Send a message of a class of R307. CONTROL, JOURNAL and COUNTER are reliable: the message takes the next sequence number of its class and stays until it is acknowledged, also where the link is DOWN. -/
def pairSend (cls : Nat) (words : List Nat) (s : State) : State :=
  if 3 ≤ cls && cls ≤ 5 then
    let n := mgetD s.pair.txSeq cls 0
    let s := { s with pair.txSeq := mset s.pair.txSeq cls ((n + 1) % 2 ^ 32), pair.unacked := s.pair.unacked ++ [(cls, n, words)] }
    if s.pair.link = 0 then s else pairEmit cls n words s
  else if s.pair.link = 0 then s else pairEmit cls 0 words s

/-- Put a redirect record on the pair link: successive words of 16 bytes over the bonded lanes (R306, R326). -/
def pairRedirect (bs : List Byte) (s : State) : State :=
  bondNext (ceilDiv bs.length 16) (emit (.redirect (bondLane s.pair.link s.pair.bond) bs) s)

/-- The link has come back: what is not acknowledged is sent again, the classes in their priority and each from its first message (R307). -/
def pairResend (s : State) : State :=
  [3, 4, 5].foldl (fun s cls =>
    (s.pair.unacked.filter (fun m => m.1 == cls)).foldl (fun s m => pairEmit m.1 m.2.1 m.2.2 s) s) s

/-- A message of a reliable class has been received: it takes the next sequence number of its class, and an acknowledgement goes back in CONTROL (R307; log entry 80). -/
def pairTaken (cls : Nat) (s : State) : State :=
  if !running s || s.pair.link = 0 then s
  else
    let n := mgetD s.pair.rxSeq cls 0
    pairEmit 3 0 [10, cls, n] { s with pair.rxSeq := mset s.pair.rxSeq cls ((n + 1) % 2 ^ 32) }
/-- The peer has acknowledged the first `n` outstanding messages of a class. -/
def pairAcked (cls n : Nat) (s : State) : State :=
  let own := s.pair.unacked.filter (fun m => m.1 == cls)
  { s with pair.unacked := s.pair.unacked.filter (fun m => m.1 != cls) ++ own.drop n }

/-- The record is sent to the peer while this member is ACTIVE and the peer has a sync point (R315). -/
def replicating (s : State) : Bool := s.pair.role == 4 && s.pair.link != 0 && s.pair.syncPoint.isSome

/-- Put a fault record in front of the management firmware (R433); during a restart at most 256 wait. -/
def pendRecord (r : FRec) (s : State) : State :=
  if s.boot.restarting && 256 ≤ s.faults.pending.length then
    { s with faults.lostRecords := (s.faults.lostRecords + 1) % 2 ^ 16 }
  else { s with faults.pending := s.faults.pending ++ [r] }

/-- The die of a resource (01_architecture, *Two dies on one interposer*): true the T-die, false the F-die, none where it stands on both or on neither. -/
def dieOf (r : Nat) : Option Bool :=
  let i := resIndex r
  match resKind r with
  | 0x01 => some (decide (192 ≤ i)) | 0x08 => some (decide (24 ≤ i)) | 0x02 => some false | 0x03 => some true
  | 0x04 => some true | 0x05 => some true | 0x06 => some true | 0x09 => some false | 0x0A => some true | 0x0B => some true
  | 0x0C => some false | 0x0D => some (decide (64 ≤ i)) | 0x0E => some true | 0x10 => some false | 0x11 => some false
  | 0x12 => some true | 0x13 => some (decide (2 ≤ i)) | _ => none

/-- The placement of a resource (R21): bit [31] is its die. -/
def placementOf (r : Nat) : Nat :=
  b2n ((dieOf r).getD (Config.placementDie r)) * 2 ^ 31 + (Config.placement r).toNat

/-- A bridge counter of class and direction `d` goes on by `n` (R16). -/
def bridgeCount (m : NMap Nat) (d n : Nat) : NMap Nat := mput m d ((mgetD m d 0 + n) % 2 ^ 64)
/-- Messages that a class has in flight at most: its pool holds at least one credit and its size is not given (R14, log entry 81). -/
def bridgeLimit (d : Nat) : Nat := (Config.bridgeCredit d).toNat + 1
/-- A class whose messages are `l` has credit for one more (R14). -/
def bridgeHas (d : Nat) (l : List BridgeMsg) : Bool := l.isEmpty || decide (l.length < bridgeLimit d)
/-- DC0 has credit for one more message. -/
def dc0Credit (s : State) : Bool := bridgeHas 0 s.dc0
/-- DC1 has credit for one more message. -/
def dc1Credit (s : State) : Bool := bridgeHas 1 s.dc1
/-- Messages cross the die bridge in class and direction `d` within a step: sent and received (R16). -/
def bridgeCross (d n : Nat) (s : State) : State :=
  { s with bridgeTx := bridgeCount s.bridgeTx d n, bridgeRx := bridgeCount s.bridgeRx d n }
/-- A message is sent in DC0, or waits there for credit, until VOQ_ENQUEUE takes it. -/
def bridgeSend (m : BridgeMsg) (s : State) : State :=
  { s with dc0 := s.dc0 ++ [m], bridgeTx := bridgeCount s.bridgeTx 0 (b2n (dc0Credit s)) }
/-- A message is sent in DC1, or waits there for credit, until the F-die takes it. -/
def bridgeBack (m : BridgeMsg) (s : State) : State :=
  { s with dc1 := s.dc1 ++ [m], bridgeTx := bridgeCount s.bridgeTx 1 (b2n (dc1Credit s)) }
/-- `n` messages of a class are received and `left` stay behind them, of which those take the credits that waited for one. -/
def bridgeTake (d n left : Nat) (s : State) : State :=
  { s with bridgeRx := bridgeCount s.bridgeRx d n
           bridgeTx := bridgeCount s.bridgeTx d ((left + n - bridgeLimit d) - (left - bridgeLimit d)) }
/-- The first message of DC0 is received; `rest` stays. -/
def dc0Take (rest : List BridgeMsg) (s : State) : State := bridgeTake 0 1 rest.length { s with dc0 := rest }
/-- The first `n` messages of DC1 are received. -/
def dc1Take (n : Nat) (s : State) : State :=
  if n = 0 then s else bridgeTake 1 n (s.dc1.length - n) { s with dc1 := s.dc1.drop n }
/-- A packet is received from DC1, and with it what was sent before it (R13). -/
def dc1Packet (n : Nat) (s : State) : State :=
  match s.dc1.findIdx? (· == .packet n) with
  | some i => dc1Take (i + 1) s
  | none => s
/-- The epoch markers at the front of DC1 are received. -/
def dc1Markers (s : State) : State :=
  dc1Take (s.dc1.takeWhile (fun m => match m with | .marker _ => true | .packet _ => false)).length s

/-- A fault record (R433) at this UPTIME; SEQ and JOURNAL_SEQ are filled in when it is written. -/
def mkRecord (s : State) (source resource cls action cnt target : Nat) (detail : List Byte) : FRec :=
  { seq := 0, uptime := s.time.uptime, boot := bootNo s, resource := resource,
    placement := placementOf resource, source := source, cls := cls, action := action,
    count := cnt, target := target, detail := fit 16 detail, journalSeq := 0 }

/-- The PCI vendor identifier, which the serial path uses too (R60, R365). -/
def pciVendor : Nat := 0x1F3D
/-- Key of PF1 of a link among the functions in D3hot: function 1 of link 0, function 0 of link 1 (R365). PF0 is 0. -/
def pf1Key (link : Nat) : Nat := link * 8 + (if link = 0 then 1 else 0)
/-- A function is in D3hot: it issues no DMA (R366). -/
def asleep (s : State) (f : Nat) : Bool := s.host.d3hot.contains f

/-- Port `p`. -/
def portOf (s : State) (p : Nat) : Port := mgetD s.ports p {}
/-- Change port `p`. -/
def modPort (p : Nat) (f : Port → Port) (s : State) : State := { s with ports := mmod s.ports p {} f }
/-- The port is framed: its physical section says so (R113). -/
def framedOn (p : Port) : Bool := match p.phys with | some x => x.framed == 1 | none => false

/-- The answer of a transmitter to a received fault (R118): remote fault to a local fault, idle to a remote fault, else its frames. -/
def faultAnswer (p : Port) : Nat :=
  if p.conds.contains .localFault then 5 else if p.conds.contains .remoteFault then 6 else 3
/-- What the transmitter of a port sends (R103, R117, R118, R444): in the safe state and before a warm reset (`down`) local fault, or ODU-AIS of a framed port, whose stream answers a received fault where no BDI is set. -/
def lineOf (down : Bool) (p : Port) : Nat :=
  if framedOn p then (if down || !p.enabled then 1 else if p.conds.contains .framedActions then 2 else faultAnswer p)
  else if !p.enabled then 4
  else if down then 0
  else faultAnswer p
/-- Bring the transmitter of a port up to date; a change is an output. -/
def settleLine (down : Bool) (port : Nat) (s : State) : State :=
  let l := lineOf down (portOf s port)
  if l = mgetD s.lines port 4 then s else emit (.line port l) { s with lines := mset s.lines port l }

/-- TARGET of a unit under R19: an accelerator engine is named by the device, and by DETAIL (R439). -/
def namedTarget (r : Nat) : Nat := if [1, 2, 3].any (fun e => r == engineUnit e) then resId 0x18 0 else r

/-- Entry to the safe state (R444): the latch, SAFE_CAUSE, FAULT_N, the line outputs and the takeover request; in it, a COLLECTOR event still clears COLLECTOR_OK, and STAG_LOCKSTEP or STAG_UE still holds Stag in reset (R443, R444). -/
def enterSafe (source resource : Nat) (s : State) : State :=
  let s := { s with faults.collectorOk := s.faults.collectorOk && source != 31,
                    faults.stagHeld := s.faults.stagHeld || source == 26 || source == 28 }
  if s.faults.safe then s
  else
    let s := { s with faults.safe := true, faults.causeSource := source, faults.causeValid := true,
                      faults.causeResource := resource }
    let s := (s.ports.map (·.1)).foldl (fun s p => settleLine true p s) s
    if s.pair.cfg.enable && s.pair.role != 0 then
      pairSend 3 [1] { s with pair.actOut := false }
    else s

/-- A fatal event overrides everything else of its clock: the fences of this clock end, and the records of its other reports are not written (R437). What such a fence did to packets stays. -/
def overrideClock (s : State) : State :=
  let now := s.time.uptime
  let kept := fun (r : Nat) => !s.faults.fencedNow.any (fun f => f.at_ == now && f.unit == r)
  { s with faults.fatalAt := some now, faults.fencedNow := [], faults.fenced := s.faults.fenced.filter kept,
           faults.escalated := s.faults.escalated.filter kept,
           faults.pending := s.faults.pending.filter (fun r => r.uptime != now || !([0, 1, 2, 6].contains r.action)) }

/-- A fatal event (R436, R444): the safe state and a record with ACTION 3; a device already in it records only. -/
def fatal (source resource : Nat) (detail : List Byte) (s : State) : State :=
  let act := if s.faults.safe then 0 else 3
  let s := enterSafe source resource (if s.faults.safe then s else overrideClock s)
  if s.faults.stagHeld then s
  else pendRecord (mkRecord s source resource 2 act 0 0 detail) s

/-- Append one record of the given type (R88, R92). A record that finds no space leads to the safe state (R97). -/
def appendRec (typ : Nat) (replicated : Bool) (body : List Byte) (s : State) : State :=
  if journalFree s.journal = 0 then fatal 30 (resId 0x18 0) [] s
  else
    let j := s.journal
    let bytes := leBytes 8 j.head ++ fit 40 body
    let chain := leNat ((sha256 (leBytes 16 j.chain ++ bytes)).take 16)
    let s := { s with journal := { j with recs := j.recs ++ [⟨j.head, typ, bytes, chain⟩],
                                          head := j.head + 1, chain := chain, ckptRecs := j.ckptRecs + 1 } }
    let s := if replicated && replicating s then
      pairSend 4 [j.head, typ, leNat bytes] { s with pair.sentSeq := j.head } else s
    journalLevels s

/-- What a command or batch record says. -/
structure RecInfo where
  typ : Nat := 0
  uptime : Nat
  generation : Nat
  object : Nat := 0
  resource : Nat := 0
  opcode : Nat
  status : Nat := 0
  origin : Nat
  payload : List Byte := []
  replicated : Bool := false
deriving DecidableEq, Repr

/-- The continuation pieces of a payload, 38 bytes each. -/
def pieces : Nat → List Byte → List (List Byte)
  | 0, _ => []
  | n + 1, bs => bs.take 38 :: pieces n (bs.drop 38)

/-- Write a continuation record: DATA in bytes 8-45, TYPE 1, DATA_LEN in byte 47. -/
def appendCont (rep : Bool) (data : List Byte) (s : State) : State :=
  appendRec 1 rep (fit 38 data ++ leBytes 1 1 ++ leBytes 1 data.length) s

/-- Store bytes in the payload area for the record with the next SEQ; answers their offset. The area is filled in order as a ring: bytes that reach its end go on at its start (DESIGN CHOICE, log entry 10). -/
def storePayload (bs : List Byte) (s : State) : Nat × State :=
  let j := s.journal
  (j.payloadNext, { s with journal := { j with
    payloads := j.payloads ++ [(j.head, j.payloadNext, bs)]
    payloadNext := if payloadArea j = 0 then 0 else (j.payloadNext + bs.length) % payloadArea j } })

/-- Records that a command or batch record and what follows it need. -/
def RecInfo.records (r : RecInfo) : Nat := 1 + contCount r.payload.length

/-- Write a command or batch record with its continuations or its payload reference (R88); answers its SEQ. Where the journal has no room for all of them, none is written, SEQ is 0 and the device enters the safe state (R97). -/
def journalCmd (r : RecInfo) (s : State) : Nat × State :=
  if journalFree s.journal < r.records then (0, fatal 30 (resId 0x18 0) [] s) else
  let seq := s.journal.head
  let n := contCount r.payload.length
  let s := appendRec r.typ r.replicated
    (recBody r.uptime r.generation r.object r.resource (bootNo s) r.opcode r.status r.origin r.typ n) s
  if r.payload.length ≤ 9690 then
    (seq, (pieces n r.payload).foldl (fun s p => appendCont r.replicated p s) s)
  else
    let p := storePayload r.payload s
    let p := (p.1, if r.replicated && replicating p.2 then pairSend 4 [seq, leNat r.payload, r.payload.length] p.2 else p.2)
    (seq, appendRec 5 r.replicated
      (leBytes 8 p.1 ++ leBytes 4 r.payload.length ++ (sha256 r.payload).take 16 ++ zeros 10 ++ leBytes 1 5 ++ zeros 1) p.2)

/-- A record of the management firmware's own action (origin 0x5): no payload. -/
def journalFw (opcode object resource : Nat) (s : State) : Nat × State :=
  journalCmd { uptime := s.time.uptime, generation := s.mgt.generation, object := object,
               resource := resource, opcode := opcode, origin := 0x5000 } s

/-- A marker record (R91). -/
def journalMarker (cause arg : Nat) (s : State) : State :=
  appendRec 6 false (leBytes 8 s.time.uptime ++ leBytes 8 cause ++ leBytes 8 (s.journal.head - 1) ++
    leBytes 8 arg ++ leBytes 4 (bootNo s) ++ zeros 2 ++ leBytes 1 6 ++ zeros 1) s

/-- A checkpoint record (R93); its signature follows as SIGNATURE unless the journal is in Stag SRAM. -/
def journalCheckpointRec (opcode origin : Nat) (s : State) : Nat × State :=
  let seq := s.journal.head
  let s := appendRec 3 false
    (recBody s.time.uptime s.mgt.generation 0 0 (bootNo s) opcode 0 origin 3 0) s
  let s := { s with journal.ckptAt := s.time.uptime, journal.ckptRecs := 0 }
  (seq, if s.journal.sram then s
        else match s.journal.recs.getLast? with
          | some r => { s with journal.sigPending := s.journal.sigPending ++ [(seq, r.body ++ leBytes 16 r.chain)] }
          | none => s)

/-- Release every record up to and including `seq` (R94), with the payloads only they referred to. -/
def journalRelease (seq : Nat) (s : State) : State :=
  let j := s.journal
  let to_ := max j.release (seq + 1)
  journalLevels { s with journal := { j with
    release := to_, recs := j.recs.filter (fun r => to_ ≤ r.seq),
    payloads := j.payloads.filter (fun p => to_ ≤ p.1) } }

/-- Close one open batch and write its record (R90); ORIGIN is that of the record. -/
def closeBatchAs (origin : Nat) (b : Batch) (s : State) : State :=
  let s := { s with journal.batches := s.journal.batches.filter (fun c =>
    !(c.table == b.table && c.inst == b.inst && c.resource == b.resource)) }
  (journalCmd { typ := 2, uptime := b.first, generation := s.mgt.generation,
                object := b.table * 2 ^ 32 + b.inst * 2 ^ 24 + b.entries.length,
                resource := b.resource, opcode := if b.delete then 0x0805 else 0x0803, origin := origin,
                payload := b.entries.flatten, replicated := true } s).2
/-- Close one open batch of learning, aging or a Tahr set: origin 0x6 (R90). -/
def closeBatch (b : Batch) (s : State) : State := closeBatchAs 0x6000 b s

/-- Put a change of the table engine into its batch (R90): one open batch for each table instance and RESOURCE; a change of the other operation, or one that does not fit the 255 continuations, closes it first. -/
def batchChange (table inst resource : Nat) (delete : Bool) (entry : List Byte) (s : State) : State :=
  let same := fun (b : Batch) => b.table == table && b.inst == inst && b.resource == resource
  let fresh : Batch := ⟨table, inst, resource, delete, s.time.uptime, [entry]⟩
  match s.journal.batches.find? same with
  | none => { s with journal.batches := s.journal.batches ++ [fresh] }
  | some b =>
    if b.delete != delete || 9690 < b.entries.flatten.length + entry.length then
      let s := closeBatch b s
      { s with journal.batches := s.journal.batches ++ [fresh] }
    else
      { s with journal.batches := s.journal.batches.map (fun c =>
          if same c then { c with entries := c.entries ++ [entry] } else c) }

/-- One LEARN_DROPS (R80, R96). -/
def learnDrop (s : State) : State :=
  { s with journal.learnDrops := (s.journal.learnDrops + 1) % 2 ^ 32 }

/-! ### Pair role -/

/-- Change the pair role (R312): PAIR_ACT_OUT follows it and MSI-X vector 6 is signalled. -/
def setRole (role : Nat) (s : State) : State :=
  if s.pair.role = role then s
  else
    emit (.msix 6) { s with pair.role := role, pair.actOut := role == 4 }

/-- A change of role that no marker and no command's own record tells of is recorded by the management firmware: RESOURCE is the pair (R85, R309-R325; the record's form is a DESIGN CHOICE, log entry 34). -/
def changeRole (role arg : Nat) (s : State) : State :=
  if s.pair.role = role then s else (journalFw 0x0D00 arg (resId 0x1C 0) (setRole role s)).2

/-! ### Output pins -/

/-- The level each output pin has to show: FAULT_N low while a power-on reset holds the device and in the safe state (R444, R445, R480), SMB_ALERT_N low from a fault record to the alert response (R495), PPS_OUT, PAIR_BEAT_OUT and PAIR_ACT_OUT as their units drive them (R407, R308). -/
def pinLevels (s : State) : Pins :=
  { faultN := !s.faults.safe && !s.power.porst && !s.power.brownout
    smbAlertN := !s.faults.alert
    ppsOut := s.time.ppsHigh
    pairBeatOut := s.pair.beatOut
    pairActOut := s.pair.actOut }

/-- The event of one pin, where its level changes. -/
def pinChange (name : String) (old new : Bool) : List Out := if old = new then [] else [.pin name new]

/-- The changes of level from `old` to `new`. -/
def pinChanges (old new : Pins) : List Out :=
  pinChange "FAULT_N" old.faultN new.faultN ++ pinChange "SMB_ALERT_N" old.smbAlertN new.smbAlertN ++
  pinChange "PPS_OUT" old.ppsOut new.ppsOut ++ pinChange "PAIR_BEAT_OUT" old.pairBeatOut new.pairBeatOut ++
  pinChange "PAIR_ACT_OUT" old.pairActOut new.pairActOut

/-- A command took the block from `s` to `t`: the queue is not its business, and the output pins follow the new state. -/
def settled (s t : State) : State :=
  { t with pending := s.pending, pins := pinLevels t, out := pinChanges s.pins (pinLevels t) ++ t.out }

/-- The answer of a command that took the block from `s` to `t`. -/
def answer (s t : State) : Host.Outcome State Fault Refusal := .next (settled s t)

end Sys2Proof.Machine
end

