-- ==== Sys2Proof/Machine/Monitors.lean ====
section
/-! DEFINITION. Monitor instances: matching, buckets, records (R410-R415 14_time_and_monitors). -/

namespace Sys2Proof.Machine

/-- The settings of a monitor instance after reset (R415). -/
def monReset (i : Nat) : Monitor :=
  if i < 192 then { point := 1, matchV := i, mask := 0xFF }
  else if i < 384 then { point := 3, matchV := 8 * (i - 192), mask := 0x1FFF8, shift := 11 }
  else if i < 392 then { point := 2, matchV := (i - 384) * 0x20000, mask := 0xE0000, shift := 11 }
  else if i < 430 then { point := 5, matchV := 8 * (i - 392), mask := 0x1F8 }
  else if i < 438 then { point := 6, matchV := (i - 430) * 0x20000, mask := 0xE0000 }
  else if i < 444 then { point := 7, matchV := 32 * (i - 438), mask := 0xE0 }
  else if i < 456 then { point := 8, matchV := i - 444, mask := 0xF }
  else if i < 461 then { point := 9, matchV := i - 456, mask := 0xFFFF, shift := 4 }
  else if i = 461 then { point := 9, matchV := 0x1000, mask := 0x1000, shift := 4 }
  else if i < 468 then { point := 10, matchV := i - 462, mask := 0x7 }
  else if i < 532 then { point := 11, matchV := 8 * (i - 468), mask := 0x1F8 }
  else {}

/-- Instance `i`. -/
def monitorOf (s : State) (i : Nat) : Monitor := mgetD s.monitors i (monReset i)

/-- Instances whose reset settings have a point (R415): first and number. -/
def monRange (point : Nat) : Nat × Nat :=
  match point with
  | 1 => (0, 192) | 3 => (192, 192) | 2 => (384, 8) | 5 => (392, 38) | 6 => (430, 8) | 7 => (438, 6) | 8 => (444, 12)
  | 9 => (456, 6) | 10 => (462, 6) | 11 => (468, 64) | _ => (0, 0)

/-- The bucket of a value (R412). -/
def bucketOf (shift v : Nat) : Nat :=
  let x := v / 2 ^ shift
  if x < 4 then x
  else if 2 ^ 17 ≤ x then 63
  else
    let e := log2 x
    4 * (e - 1) + x / 2 ^ (e - 2) % 4

/-- Record one value (R413). -/
def Monitor.record (m : Monitor) (v : Nat) : Monitor :=
  let sat := Nat.min v 0xFFFFFFFF
  let b := bucketOf m.shift v
  { m with count := (m.count + 1) % 2 ^ 64, sum := (m.sum + v) % 2 ^ 64, min := Nat.min m.min sat, max := Nat.max m.max sat,
           buckets := mset m.buckets b (Nat.min (mgetD m.buckets b 0 + 1) 0xFFFFFFFF) }

/-- A clear at an UPTIME (R413). -/
def Monitor.clear (m : Monitor) (at_ : Nat) : Monitor :=
  { m with count := 0, sum := 0, min := 0xFFFFFFFF, max := 0, skipped := 0, since := at_, buckets := [] }

/-- The instance matches an event (R410). -/
def Monitor.hits (m : Monitor) (point ident : Nat) : Bool := m.point == point && ident &&& m.mask == m.matchV

/-- Change every instance that matches an event. -/
def monUpdate (point ident : Nat) (f : Monitor → Monitor) (s : State) : State :=
  let r := monRange point
  let fresh := ((List.range r.2).map (· + r.1)).filter (fun i =>
    (mget s.monitors i).isNone && (monReset i).hits point ident)
  let m := mmap s.monitors (fun _ x => if x.hits point ident then f x else x)
  { s with monitors := fresh.foldl (fun m i => mset m i (f (monReset i))) m }

/-- Count one matching event in SKIPPED. -/
def Monitor.skip (m : Monitor) : Monitor := { m with skipped := Nat.min (m.skipped + 1) 0xFFFFFFFF }
/-- One matching event: recorded, unless the instance has recorded one of the same clock (R410). `same` says whether an event at the same count of the clock is one of the same clock. -/
def Monitor.take (clock : Nat) (same : Bool) (v : Nat) (m : Monitor) : Monitor :=
  if m.last == some clock && same then m.skip else { m.record v with last := some clock }

/-- An event of a point with an identifier and a value (R410). The clocks of the blocks are not those of UPTIME: whether two events at one UPTIME fall in one clock of the block is a free value (log entry 31). -/
def monEvent (point ident v : Nat) (s : State) : State :=
  let r := draw 1 s
  monUpdate point ident (·.take s.time.uptime (r.1 == 1) v) r.2
/-- An event of point 11 in a cycle of CK_TAHR. -/
def monIssue (ident cycle v : Nat) (s : State) : State := monUpdate 11 ident (·.take cycle true v) s
/-- An event that is only counted in SKIPPED (R411). -/
def monSkip (point ident : Nat) (s : State) : State := monUpdate point ident (·.skip) s

end Sys2Proof.Machine
end

