-- ==== Sys2Proof/Machine/HbmMap.lean ====
section
/-! DEFINITION. The mapping of HBM addresses to pseudo-channel, bank and row, and what a range loses with a fence (R420, R421, R430 15_hbm_controllers). -/

namespace Sys2Proof.Machine

/-- A stack. -/
def hbmOf (s : State) (n : Nat) : Stack := mgetD s.hbm n {}
/-- Change a stack. -/
def modHbm (n : Nat) (f : Stack → Stack) (s : State) : State := { s with hbm := mmod s.hbm n {} f }
/-- A pseudo-channel, by stack × 32 + number. -/
def pchanOf (s : State) (p : Nat) : PChan := mgetD s.pchans p {}
/-- Change a pseudo-channel. -/
def modPchan (p : Nat) (f : PChan → PChan) (s : State) : State := { s with pchans := mmod s.pchans p {} f }

/-- Mapping order of a window after reset (R421). -/
def orderReset (n w : Nat) : Nat := if 2 ≤ n then 0 else if n = 0 && w < 4 then 2 else 1
/-- Mapping order of a window. -/
def orderOf (s : State) (n w : Nat) : Nat := mgetD (hbmOf s n).orders w (orderReset n w)

/-- Parity of the bits of a number. -/
def parity (n v : Nat) : Nat := popcount n v % 2

/-- Where a burst stands in its stack (R420). -/
structure Spot where
  /-- pseudo-channel -/
  pc : Nat
  /-- bank: SID × 16 + bank group × 4 + bank -/
  bank : Nat
  row : Nat
  column : Nat
deriving DecidableEq, Repr

/-- Place of an offset under a mapping order (R420). -/
def hbmPlace (order : Nat) (xmask : List Nat) (a : Nat) : Spot :=
  let sid := a / 2 ^ 33
  let row := bitsOf a 32 19
  if order = 0 then
    { pc := bitsOf a 13 12 + bitsOf a 16 14 * 4, bank := sid * 16 + bitsOf a 11 10 * 4 + bitsOf a 18 17, row := row, column := bitsOf a 9 5 }
  else if order = 2 then { pc := bitsOf a 18 14, bank := sid * 16 + bitsOf a 13 10, row := row, column := bitsOf a 9 5 }
  else
    let k := bitsOf a 8 5
    let k := if order = 3 then
        (List.range 4).foldl (fun k i => k ^^^ (parity 30 (a &&& xmask.getD i 0) * 2 ^ i)) k else k
    { pc := bitsOf a 9 9 + bitsOf a 13 10 * 2, bank := sid * 16 + k, row := row, column := bitsOf a 18 14 }

/-- Where the burst at a device address stands, with its stack; none outside the stacks. -/
def spotOf (s : State) (a : Nat) : Option (Nat × Spot) :=
  (stackOf a).map (fun n =>
    let off := a - hbmBase n
    (n, hbmPlace (orderOf s n (off / 2 ^ 30)) (hbmOf s n).xmask off))
/-- The pseudo-channel (stack × 32 + number) of a device address; none outside the stacks. -/
def pcOf (s : State) (a : Nat) : Option Nat := (spotOf s a).map (fun x => x.1 * 32 + x.2.pc)

/-- A read of HBM in a pseudo-channel records its latency, a free value below a bound (R411 point 7). -/
def hbmRead (p bound : Nat) (s : State) : State :=
  let r := drawBelow bound s
  monEvent 7 p r.1 r.2

/-- A read of HBM meets an uncorrectable burst of its pseudo-channel or not, where one stands (R429): a free value. -/
def meetsAt (a : Nat) (s : State) : Bool × State :=
  match pcOf s a with
  | some p => if (pchanOf s p).bad then (let r := drawBelow 2 s; (r.1 == 1, r.2)) else (false, s)
  | none => (false, s)

/-- The byte at a device address cannot be reached: its pseudo-channel is fenced, or its stack is not ready (R430, R431). -/
def byteLost (s : State) (a : Nat) : Bool :=
  match stackOf a, pcOf s a with
  | some n, some p => !(hbmOf s n).ready || isFenced s (resId 0x0D p)
  | _, _ => false
/-- A byte of a range cannot be reached. A pseudo-channel is selected by bits [18:9], so a step of 512 bytes meets every one (R420). -/
def someLost (s : State) (base len : Nat) : Bool :=
  (List.range (min 1025 (ceilDiv len 512 + 1))).any (fun i => byteLost s (min (base + i * 512) (base + len - 1)))

/-- Write zeros to every byte of a pseudo-channel. -/
def zeroPc (p : Nat) (s : State) : State := { s with mem := s.mem.filter (fun c => pcOf s c.1 != some p) }
/-- Write zeros to a whole stack. -/
def zeroStack (n : Nat) (s : State) : State := { s with mem := Memory.clear s.mem (hbmBase n) (hbmBase n + hbmSize) }

/-- HBM_STACK_STATUS. -/
def stackStatusWord (s : State) (n : Nat) : Nat :=
  let x := hbmOf s n
  let pcs := ((List.range 32).filter (fun p => isFenced s (resId 0x0D (n * 32 + p)))).length
  let off := !(mgetD s.power.domains (if n < 2 then 12 else 16) {}).on || pcs == 32
  unsigned 8 x.temp + x.step * 2 ^ 8 + b2n x.ready * 2 ^ 10 + b2n off * 2 ^ 11 + pcs * 2 ^ 12 + unsigned 8 x.maxTemp * 2 ^ 24
/-- HBM_PC_STATUS. -/
def pcStatusWord (s : State) (p : Nat) : Nat :=
  let x := pchanOf s p
  x.mode + b2n (isFenced s (resId 0x0D p)) * 4 + b2n x.paused * 8 + x.ce % 2 ^ 16 * 2 ^ 8 + x.ue % 2 ^ 8 * 2 ^ 24 + x.nrr % 2 ^ 32 * 2 ^ 32

end Sys2Proof.Machine
end

