-- ==== Sys2Proof/Machine/Gcm.lean ====
section
/-! DEFINITION. AES and its Galois/counter mode, as the standards the spec names define them (FIPS 197, NIST SP 800-38D; named by R108 04_network_ports and R392 13_host_interface; log entry 20). -/

namespace Sys2Proof.Machine

/-! ### AES -/

/-- Multiply by x in GF(2⁸). -/
def xtime (a : Nat) : Nat := if 128 ≤ a then (a * 2 % 256) ^^^ 0x1B else a * 2
/-- Product in GF(2⁸) over the low bits of `b`. -/
def gfMul : Nat → Nat → Nat → Nat
  | 0, _, _ => 0
  | n + 1, a, b => (if b % 2 = 1 then a else 0) ^^^ gfMul n (xtime a) (b / 2)
/-- Square in GF(2⁸). -/
def gfSq (a : Nat) : Nat := gfMul 8 a a
/-- a^254, the inverse, by the chain 2, 4, ..., 128. -/
def gfInv (a : Nat) : Nat :=
  let r := (List.range 7).foldl (fun (p : Nat × Nat) _ => (gfSq p.1, gfMul 8 p.2 (gfSq p.1))) (a, 1)
  r.2
/-- S-box: the inverse, then the affine map. -/
def sbox (a : Nat) : Nat :=
  let b := gfInv a
  let r := fun n => (b * 2 ^ n % 256) ||| (b / 2 ^ (8 - n))
  b ^^^ r 1 ^^^ r 2 ^^^ r 3 ^^^ r 4 ^^^ 0x63

/-- Key schedule: four-byte words, newest first. -/
def expandKey (nk : Nat) : Nat → Nat → List (List Nat) → List (List Nat)
  | 0, _, ws => ws
  | n + 1, rc, ws =>
    let i := ws.length
    let prev := ws.headD []
    let old := ws.getD (nk - 1) []
    let t := if i % nk = 0 then
        (match (prev.drop 1 ++ prev.take 1).map sbox with | a :: r => (a ^^^ rc) :: r | [] => [])
      else if 6 < nk && i % nk = 4 then prev.map sbox else prev
    expandKey nk n (if i % nk = 0 then xtime rc else rc) (List.zipWith (· ^^^ ·) old t :: ws)

/-- Split into words of four. -/
def quads : Nat → List Nat → List (List Nat)
  | 0, _ => []
  | n + 1, bs => bs.take 4 :: quads n (bs.drop 4)

/-- Round keys of 16 bytes, first round first. -/
def roundKeys (key : List Byte) : List (List Nat) :=
  let nk := key.length / 4
  let rounds := nk + 6
  let ws := (expandKey nk (4 * (rounds + 1) - nk) 1 ((quads nk (key.map (·.toNat))).reverse)).reverse
  (List.range (rounds + 1)).map (fun r => ((ws.drop (4 * r)).take 4).flatten)

/-- ShiftRows on a column-major state. -/
def shiftRows (st : List Nat) : List Nat := (List.range 16).map (fun i => st.getD ((i + 4 * (i % 4)) % 16) 0)
/-- MixColumns. -/
def mixColumns (st : List Nat) : List Nat :=
  (List.range 16).map (fun i =>
    let c := i / 4 * 4
    let g := fun k => st.getD (c + (i + k) % 4) 0
    xtime (g 0) ^^^ (xtime (g 1) ^^^ g 1) ^^^ g 2 ^^^ g 3)
/-- XOR of byte lists. -/
def xorBytes (a b : List Nat) : List Nat := List.zipWith (· ^^^ ·) a b

/-- The rounds after the initial key addition. -/
def aesRounds : List (List Nat) → List Nat → List Nat
  | [], st => st
  | [k], st => xorBytes (shiftRows (st.map sbox)) k
  | k :: ks, st => aesRounds ks (xorBytes (mixColumns (shiftRows (st.map sbox))) k)

/-- Encrypt one block under round keys. -/
def aesBlock (ks : List (List Nat)) (blk : List Nat) : List Nat :=
  match ks with
  | [] => blk
  | k :: rest => aesRounds rest (xorBytes blk k)

/-! ### GCM -/

/-- Product in GF(2¹²⁸) of GCM; the leftmost bit is the constant term. -/
def ghMul : Nat → Nat → Nat → Nat → Nat
  | 0, _, _, z => z
  | n + 1, x, v, z =>
    ghMul n x (if v % 2 = 1 then v / 2 ^^^ 0xE1 * 2 ^ 120 else v / 2) (if x.testBit n then z ^^^ v else z)

/-- GHASH over whole blocks, padded with zeros. -/
def ghashFold (h : Nat) : Nat → Nat → List Byte → Nat
  | 0, y, _ => y
  | n + 1, y, bs => ghashFold h n (ghMul 128 (y ^^^ beNat (fit 16 bs)) h 0) (bs.drop 16)

/-- Counter mode from a counter block. -/
def gctr (ks : List (List Nat)) (pre : List Nat) : Nat → Nat → List Byte → List Byte
  | 0, _, _ => []
  | n + 1, ctr, bs =>
    let e := aesBlock ks (pre ++ (beBytes 4 (ctr % 2 ^ 32)).map (·.toNat))
    List.zipWith (fun (b : Byte) (k : Nat) => BitVec.ofNat 8 (b.toNat ^^^ k)) bs e ++
      gctr ks pre n (ctr + 1) (bs.drop 16)

/-- Tag of GCM over additional data and ciphertext, with a 12-byte IV. -/
def gcmTag (ks : List (List Nat)) (iv aad ct : List Byte) : List Byte :=
  let h := beNat ((aesBlock ks (List.replicate 16 0)).map (BitVec.ofNat 8 ·))
  let y := ghashFold h (ceilDiv aad.length 16) 0 aad
  let y := ghashFold h (ceilDiv ct.length 16) y ct
  let y := ghMul 128 (y ^^^ (aad.length * 8 * 2 ^ 64 + ct.length * 8)) h 0
  gctr ks (iv.map (·.toNat)) 1 1 (beBytes 16 y)

/-- Encrypt: ciphertext and tag. -/
def gcmSeal (key iv aad pt : List Byte) : List Byte × List Byte :=
  let ks := roundKeys key
  let ct := gctr ks (iv.map (·.toNat)) (ceilDiv pt.length 16) 2 pt
  (ct, gcmTag ks iv aad ct)

/-- Decrypt, none where the tag does not match. -/
def gcmOpen (key iv aad ct tag : List Byte) : Option (List Byte) :=
  let ks := roundKeys key
  if gcmTag ks iv aad ct = tag then some (gctr ks (iv.map (·.toNat)) (ceilDiv ct.length 16) 2 ct) else none

end Sys2Proof.Machine
end

