-- ==== Sys2Proof/Machine/Flags.lean ====
section
/-! DEFINITION. The status registers: each word as a view of the state it reports (the register tables of the chapters). -/

namespace Sys2Proof.Machine

/-! ### MGT_ (02_command_mailbox, 03_transactions_and_journal) -/

/-- MGT_MB_CONSUMER. -/
def mbConsumerWord (r : MbRing) : Nat := r.consumer + r.producer * 2 ^ 13
/-- IDLE of a ring: no entry fetched or executing. -/
def mbIdle (s : State) (k : Nat) : Bool :=
  if k = 4 then !s.mgt.serialBusy else if k = 6 then s.mgt.dbgState != 1
  else !(mgetD s.mgt.rings k {}).executing && (mgetD s.mgt.rings k {}).fetched.isNone
/-- STATE of a ring: every running ring is paused during a firmware restart (R46). -/
def mbState (s : State) (k : Nat) : Nat :=
  let r := mgetD s.mgt.rings k {}
  if r.state = 1 && s.boot.restarting then 3 else r.state
/-- MGT_MB_STATUS. -/
def mbStatusWord (s : State) (k : Nat) : Nat :=
  let r := mgetD s.mgt.rings k {}
  mbState s k + b2n (mbIdle s k) * 4 + r.badDoorbell * 2 ^ 8 + r.haltCause * 2 ^ 16
/-- MGT_MB_CONFIG. -/
def mbConfigWord (r : MbRing) : Nat :=
  r.log2 + b2n r.resident * 16 + (if r.resident then 0 else r.base / 512 * 512)
/-- MGT_EPOCH_STATUS. -/
def epochStatusWord (s : State) : Nat :=
  s.mgt.curTag + (s.mgt.live.foldl (fun a t => a ||| 2 ^ t) 0) * 2 ^ 8 +
  b2n (s.mgt.commits.any (fun k => k.waiting && k.waited)) * 2 ^ 16
/-- MGT_JOURNAL_STATUS. -/
def journalStatusWord (j : Journal) : Nat :=
  b2n j.learnPaused + b2n j.full * 2 + b2n j.sram * 4 + j.denied * 2 ^ 3 + j.learnDrops * 2 ^ 32

/-! ### TIME_ (14_time_and_monitors) -/

/-- FOLLOWING: the role is SYNCING, STANDBY or DIVERGED and the link is up (R409). -/
def following (s : State) : Bool := [2, 3, 6].contains s.pair.role && s.pair.link != 0
/-- TIME_STATUS. -/
def timeStatusWord (s : State) : Nat :=
  let t := s.time
  b2n t.steered + b2n (following s) * 2 + b2n t.ppsOutOn * 4 + b2n t.ppsInOn * 8 + t.steps * 2 ^ 16 +
  t.ppsGlitch * 2 ^ 32

/-! ### PAIR_ (11_pair_operation) -/

/-- HEARTBEAT received within 25 µs. -/
def beatLink (s : State) : Bool :=
  match s.pair.beatAt with | some a => decide (s.time.uptime ≤ a + 25000) | none => false
/-- PAIR_BEAT_IN changed within 25 µs. -/
def beatSide (s : State) : Bool :=
  match s.pair.sideAt with | some a => decide (s.time.uptime ≤ a + 25000) | none => false
/-- PAIR_STATUS. -/
def pairStatusWord (s : State) : Nat :=
  let p := s.pair
  p.role + p.link * 8 + b2n (beatLink s) * 2 ^ 5 + b2n (beatSide s) * 2 ^ 6 + b2n p.actIn * 2 ^ 7 +
  b2n s.power.pairId * 2 ^ 8 + b2n p.mismatch * 2 ^ 9 + p.peerInc * 2 ^ 16 + p.takeovers * 2 ^ 32

/-! ### FLT_ (16_fault_handling) -/

/-- A network sector is powered and has an ingress and an egress pipeline that are not fenced. -/
def sectorOk (s : State) (n : Nat) : Bool :=
  let free := fun (first : Nat) => [2 * n, 2 * n + 1].any (fun k => !isFenced s (resId 0x0C (first + k)))
  free 0 && free 16 && (mgetD s.power.domains (3 + n) {}).on
/-- The forwarding service set holds (R441). -/
def forwardingSet (s : State) : Bool :=
  (List.range 6).any (sectorOk s) && (mgetD s.power.domains 9 {}).on && !isFenced s (resId 0x14 0) &&
  (mgetD s.power.domains 14 {}).on && (mgetD s.power.domains 15 {}).on &&
  (List.range 8).any (fun k => !isFenced s (resId 0x12 k))
/-- SERVICE (R441). -/
def service (s : State) : Nat :=
  if s.faults.fenced.isEmpty then 2
  else if forwardingSet s then 1 else 0
/-- Units a fence covers that are not listed themselves: members of fenced groups. -/
def coveredBy (r : Nat) : Nat :=
  match resKind r with | 0x08 => 8 | 0x11 => 32 | 0x13 => 32 | _ => 0
/-- FENCED_UNITS: fenced targets, escalated members included. -/
def fencedUnits (s : State) : Nat :=
  s.faults.fenced.foldl (fun a r => a + 1 + coveredBy r) 0 -
  (s.faults.fenced.filter (groupFenced s)).length
/-- FLT_STATUS. -/
def faultStatusWord (s : State) : Nat :=
  b2n s.faults.safe + b2n s.faults.collectorOk * 2 + service s * 4 + fencedUnits s % 2 ^ 16 * 2 ^ 16 +
  s.faults.lostRecords * 2 ^ 32
/-- FLT_SAFE_CAUSE. -/
def safeCauseWord (s : State) : Nat :=
  s.faults.causeSource + b2n s.faults.causeValid * 2 ^ 8 + s.faults.causeResource * 2 ^ 32

/-! ### BOOT_ (17_firmware_and_trust) -/

/-- BOOT_STATUS. -/
def bootStatusWord (s : State) : Nat :=
  let b := s.boot
  b.phase + b2n b.recovery * 4 + b2n b.reverted * 8 + b2n b.armed.isSome * 16 + b.trial * 2 ^ 5 +
  b.loadFailed * 2 ^ 8 + b2n b.counterFault * 2 ^ 11 + b.bootNo * 2 ^ 32
/-- Blown bits of the security-version word of a kind (R453). -/
def fusedSv (s : State) (kind : Nat) : Nat := popcount 64 (otpWord s (38 + kind))
/-- BOOT_SLOT_STATUS of kinds 1 to 3. -/
def slotStatusWord (s : State) (kind : Nat) : Nat :=
  mgetD s.boot.active kind 0 + (mgetD s.boot.slots (kind * 2) {}).state * 4 +
  (mgetD s.boot.slots (kind * 2 + 1) {}).state * 2 ^ 4 + b2n (bit s.boot.trial (kind - 1)) * 2 ^ 6 +
  u16 (mgetD s.boot.running kind []) 6 % 2 ^ 7 * 2 ^ 16 + fusedSv s kind * 2 ^ 24

/-! ### PWR_ (18_power_clocks_reset) -/

/-- PWR_SUPPLY_STATUS. -/
def supplyWord (p : Power) : Nat :=
  p.vin % 2 ^ 16 + p.iin % 2 ^ 16 * 2 ^ 16 + p.watts % 2 ^ 12 * 2 ^ 32 + b2n p.warn * 2 ^ 44
/-- PWR_RESET_STATUS. -/
def resetStatusWord (p : Power) : Nat := p.lastReset + p.warmCount * 2 ^ 16 + p.brownouts * 2 ^ 32
/-- PWR_DOMAIN_STATUS; PD_AON reads ON as 1 at all times. -/
def domainWord (p : Power) (d : Nat) : Nat :=
  let x := mgetD p.domains d {}
  b2n (x.on || d == 0) + b2n x.heldOff * 2 + unsigned 8 x.temp * 2 ^ 8 + x.faults * 2 ^ 16

/-! ### HOST_ observation (01_architecture) -/

/-- HOST_OBS_STATUS. -/
def obsStatusWord (s : State) : Nat := s.host.unreach + s.host.writeDrops * 2 ^ 32

end Sys2Proof.Machine
end

