-- ==== Sys2Proof/Machine/Keys.lean ====
section
/-! DEFINITION. The device's own keys (R467, R468 17_firmware_and_trust): the seeds derived from OTP_SECRET, the public keys, the identity digest. What FIPS 205 computes is opaque (log entry 20). -/

namespace Sys2Proof.Machine

/-- The ASCII bytes of a label. -/
def ascii (t : List Char) : List Byte := t.map (fun c => BitVec.ofNat 8 c.toNat)
/-- Labels of R467. -/
def identityLabel : List Byte := ascii ['i', 'd', 'e', 'n', 't', 'i', 't', 'y']
def attestLabel : List Byte := ascii ['a', 't', 't', 'e', 's', 't']

/-- Bytes of consecutive OTP words. -/
def otpBytes (s : State) (first n : Nat) : List Byte :=
  ((List.range n).map (fun i => leBytes 8 (otpWord s (first + i)))).flatten
/-- OTP_SECRET: zero once the ROM has locked it (R467, R470). -/
def otpSecret (s : State) : List Byte := if s.boot.secretLocked then zeros 32 else otpBytes s 2 4

/-- The 48-byte seed of a label. -/
def seedOf (s : State) (label : List Byte) : List Byte :=
  (hmac sha256 64 (otpSecret s) (label ++ [1]) ++ hmac sha256 64 (otpSecret s) (label ++ [2])).take 48

/-- The ROM derives both key pairs into the key store and locks OTP_SECRET (R467). -/
def deriveKeys (s : State) : State :=
  { s with boot.identitySeed := seedOf s identityLabel, boot.attestSeed := seedOf s attestLabel, boot.secretLocked := true }

/-- Identity public key (SLH-DSA-SHA2-128s), of the key store. -/
def identityPublic (s : State) : List Byte := fit 32 (Config.slhPublic false s.boot.identitySeed)
/-- Attestation public key (SLH-DSA-SHA2-128f), of the key store. -/
def attestPublic (s : State) : List Byte := fit 32 (Config.slhPublic true s.boot.attestSeed)
/-- The device identity digest. -/
def identityDigest (s : State) : List Byte := sha256 (identityPublic s)
/-- A signature of the attestation key, 17,088 bytes. -/
def attestSign (s : State) (message : List Byte) : List Byte := fit 17088 (Config.slhSign true s.boot.attestSeed message)

/-- What the endorsement endorses: the attestation public key and SERIAL. -/
def endorsed (s : State) : List Byte := attestPublic s ++ otpBytes s 0 1
/-- The endorsement is written at a boot that finds it absent or not matching the derived keys (R468). -/
def writeEndorsement (s : State) : State :=
  if s.boot.endorsement.length = 7896 && s.boot.endorsement.take 40 == endorsed s then s
  else { s with boot.endorsement := endorsed s ++ fit 7856 (Config.slhSign false s.boot.identitySeed (endorsed s)) }

end Sys2Proof.Machine
end

