-- ==== Sys2Proof/Machine/Mailbox.lean ====
section
/-! DEFINITION. The mailbox: rings, the checks of R47 in their order, and the writing of a completion (02_command_mailbox). What a command does is its `CmdSpec`, in the file of its family. -/

namespace Sys2Proof.Machine

/-! ### Rings -/

/-- Number of a ring in `Mgt.rings`: 0-3 PF0, 4 serial, 6 debug, 0x1000 + s the ring of slice s. -/
def ringKey : Path → Option Nat
  | .pf0 n => if n < 4 then some n else none
  | .slice n => some (0x1000 + n)
  | .serial => some 4
  | .debug => some 6
  | .peer => none
  | .firmware => none

/-- A ring's registers. -/
def mbRing (s : State) (k : Nat) : MbRing := mgetD s.mgt.rings k {}
/-- Change a ring's registers. -/
def modRing (k : Nat) (f : MbRing → MbRing) (s : State) : State :=
  { s with mgt.rings := mmod s.mgt.rings k {} f }

/-- Entries of a ring, 2^k. -/
def MbRing.size (r : MbRing) : Nat := 2 ^ r.log2
/-- Entries posted and not completed. -/
def MbRing.posted (r : MbRing) : Nat := (r.producer + 2 * r.size - r.consumer) % (2 * r.size)

/-- Management firmware executes commands: the mailbox is ready (R454), no restart runs (R46) and Stag is not held (R444). -/
def mailboxReady (s : State) : Bool :=
  running s && decide (2 ≤ s.boot.phase) && !s.boot.restarting && !s.faults.stagHeld

/-- A command of this path can be dispatched now: its ring runs and none of its entries is executing (R43). -/
def pathReady (p : Path) (s : State) : Bool :=
  match p with
  | .serial => !s.mgt.serialBusy
  | .debug => s.mgt.dbgState != 1
  | _ =>
    match ringKey p with
    | none => false
    | some k => (mgetD s.mgt.rings k {}).state == 1 && !(mgetD s.mgt.rings k {}).executing &&
      (mgetD s.mgt.rings k {}).disabling.isNone

/-- POST_PHASE of an entry matches its index: 1 XOR the lap bit (R33). -/
def phaseMatches (r : MbRing) (phase : Nat) : Bool := bit phase 0 != bit r.consumer r.log2
/-- The command may be executed as the next entry of its ring: POST_PHASE matches; the serial and the debug ring ignore PHASE (R33, R60, R62). -/
def phaseReady (c : Cmd) (s : State) : Bool :=
  match c.path with
  | .pf0 n => phaseMatches (mbRing s n) c.phase
  | .slice n => phaseMatches (mbRing s (0x1000 + n)) c.phase
  | _ => true

/-- UPTIME of the doorbell that posted the next entry of a ring; now where none waits. -/
def postedAt (s : State) (k : Nat) : Nat := (mbRing s k).waits.headD s.time.uptime
/-- Ring `k` holds an entry that was posted before the next entry of ring `n` and has not completed. Of entries posted at one UPTIME that of the lower ring counts as earlier (DESIGN CHOICE, log entry 9). -/
def earlierOn (s : State) (n k : Nat) : Bool :=
  let r := mbRing s k
  (r.executing && r.waits.isEmpty) ||
    ((r.executing || r.fetched.isSome || (r.state != 0 && r.posted != 0)) && !r.waits.isEmpty &&
      (decide (postedAt s k < postedAt s n) || (decide (postedAt s k = postedAt s n) && decide (k < n))))
/-- FENCE (R39): an earlier command of the same origin, on another of its rings, has not completed. -/
def fenceHeld (c : Cmd) (s : State) : Bool :=
  bit c.flags 1 && (match c.path with
    | .pf0 n => [0, 1, 2, 3].any (fun k => k != n && earlierOn s n k)
    | _ => false)

/-! ### Completion (R41) -/

/-- Header bytes 36 to 63 of a completion, with byte 47 as fetched (DONE_PHASE is written last). -/
def outFields (status detail resLen origin : Nat) (phase seq gen : Nat) : List Byte :=
  leBytes 2 status ++ leBytes 2 detail ++ leBytes 4 resLen ++ leBytes 2 origin ++ zeros 1 ++ leBytes 1 phase ++
  leBytes 8 seq ++ leBytes 8 gen

/-- The words of a byte string, 8 bytes each. -/
def words64 : Nat → List Byte → List Nat
  | 0, _ => []
  | n + 1, bs => leNat (bs.take 8) :: words64 n (bs.drop 8)

/-- Write bytes into the debug ring's words from word `w`. -/
def putDbg (m : NMap Nat) : Nat → List Nat → NMap Nat
  | _, [] => m
  | w, v :: vs => putDbg (mput m w v) (w + 1) vs

/-- The latency of a command is recorded by monitor point 9 (R411): from its doorbell, or from the completion before it on the ring, to now. The debug ring has no identifier. -/
def noteLatency (k : Nat) (s : State) : State :=
  let r := mbRing s k
  let now := s.time.uptime
  let start := match r.waits with | a :: _ => max a r.lastDone | [] => now
  let s := modRing k (fun r => { r with waits := r.waits.drop 1, lastDone := now }) s
  if k = 6 then s else monEvent 9 k (now - start) s

/-- PASID under which the writes for a path go to host memory; none for PF0. -/
def pathPasid (p : Path) (s : State) : Option Nat :=
  match p with | .slice n => some (mgetD s.host.slices n {}).pasid | _ => none

/-- The function through which a path does its DMA is in D3hot. -/
def pathAsleep (p : Path) (s : State) : Bool :=
  match p with
  | .pf0 _ => asleep s 0
  | .slice n => asleep s (pf1Key (mgetD s.host.slices n {}).link)
  | _ => false

/-- One write of a completion: into the mailbox page for the slot of ring 0, else into host memory. -/
def slotWrite (p : Path) (page : Bool) (addr : Nat) (bytes : List Byte) (s : State) : State :=
  if page then { s with mgt.page := Memory.writes s.mgt.page addr bytes } else emit (.dma (pathPasid p s) addr bytes) s

/-- Write a completion into the entry's slot (R41): the result, header bytes 36 to 63 but byte 47, then byte 47 with DONE_PHASE. An indirect result goes to its buffer (R39). -/
def writeCompletion (c : Cmd) (r : MbRing) (fields result : List Byte) (s : State) : State :=
  let base := (if r.resident then 0 else r.base) + r.consumer % r.size * 512
  let s := if result.isEmpty || !c.writable then s
    else if bit c.flags 0 then slotWrite c.path false c.bufAddr result s else slotWrite c.path r.resident (base + 64) result s
  slotWrite c.path r.resident (base + 47) (slice fields 11 1)
    (slotWrite c.path r.resident (base + 48) (fields.drop 12) (slotWrite c.path r.resident (base + 36) (fields.take 11) s))

/-- The index of a ring after the completion of an entry. -/
def MbRing.advance (r : MbRing) : MbRing :=
  { r with consumer := if r.posted = 0 then r.consumer else (r.consumer + 1) % (2 * r.size), executing := false, fetched := none }

/-- A completion waits: it needs DMA, and the function of its path is in D3hot (R366, log entry 71). -/
def holdsDone (c : Cmd) (r : MbRing) (result : List Byte) (s : State) : Bool :=
  pathAsleep c.path s && (!r.resident || (bit c.flags 0 && !result.isEmpty && c.writable))

/-- Write one completion, without what other rings wait for. A ring of PF0 that a function level reset caught writes none on rings 1 to 3, and returns to indices 0 on ring 0 (R368). -/
def completeCore (c : Cmd) (opcode status detail : Nat) (result : List Byte) (seq gen : Nat)
    (s : State) : State :=
  let status := if status = St.success && !result.isEmpty && !c.writable then St.resultLost else status
  let post := c.phase % 2
  let fields := outFields status detail result.length (originOf c.path) (post + 2 * post) seq gen
  match ringKey c.path with
  | none => s
  | some k =>
    let r := mbRing s k
    if r.resetting && k != 0 then modRing k (fun r => { r with executing := false, fetched := none, resetting := false }) s
    else if holdsDone c r result s then
      modRing k (fun r => { r with executing := true, fetched := none, done := some ⟨c, opcode, status, detail, result, seq, gen⟩ }) s
    else
    let s := noteLatency k s
    let s := emit (.completion c.path r.consumer opcode c.tag status detail result seq gen (originOf c.path)) s
    match c.path with
    | .serial => modRing 4 (fun r => { r with fetched := none }) { s with mgt.serialBusy := false, mgt.serialReq := none }
    | .debug =>
      let s := modRing 6 (fun r => { r with executing := false, fetched := none }) s
      { s with mgt.dbgWords :=
                 putDbg (putDbg s.mgt.dbgWords 8 (words64 (ceilDiv result.length 8) result)) 4
                   (leNat (leBytes 4 c.resource ++ fields.take 4) :: words64 3 (fields.drop 4)),
               mgt.dbgPost := false, mgt.dbgState := 2 }
    | .pf0 n =>
      let s := writeCompletion c r fields result s
      let s := if r.resetting then
          modRing k (fun r => { r with state := 1, producer := 0, consumer := 0, waits := [], executing := false, fetched := none, resetting := false, tries := 0 }) s
        else modRing k MbRing.advance s
      emit (.msix n) s
    | _ => modRing k MbRing.advance (writeCompletion c r fields result s)

/-- The MBOX_RING_DISABLE commands whose ring has become idle complete: STATE 0 (R38). -/
def settleDisables : Nat → State → State
  | 0, s => s
  | n + 1, s =>
    match [1, 2, 3].find? (fun k => (mbRing s k).disabling.isSome && !(mbRing s k).executing && (mbRing s k).fetched.isNone) with
    | none => s
    | some k =>
      match (mbRing s k).disabling with
      | none => s
      | some d =>
        let s := modRing k (fun r => { r with state := 0, disabling := none }) s
        let j := journalCmd { uptime := s.time.uptime, generation := s.mgt.generation, object := k,
                              resource := d.resource, opcode := 0x0203, origin := originOf d.path,
                              payload := d.payload } s
        settleDisables n (completeCore d 0x0203 St.success 0 [] j.1 s.mgt.generation j.2)

/-- Write a completion (R41) and complete what waited for its ring to be idle (R38). -/
def complete (c : Cmd) (opcode status detail : Nat) (result : List Byte) (seq gen : Nat)
    (s : State) : State :=
  settleDisables 3 (completeCore c opcode status detail result seq gen s)

/-- Refuse a command (R42): the current generation and no record. -/
def refuse (c : Cmd) (opcode : Nat) (f : Fail) (s : State) : State :=
  complete c opcode f.status f.detail f.result 0 s.mgt.generation s

/-- The completion that waits on a ring is written once its function is out of D3hot. -/
def writeDoneLate (k : Nat) (s : State) : State :=
  match (mbRing s k).done with
  | none => s
  | some d =>
    if pathAsleep d.cmd.path s then s
    else complete d.cmd d.opcode d.status d.detail d.result d.seq d.gen (modRing k (fun r => { r with done := none }) s)
/-- The completions that waited for a function to be out of D3hot are written. -/
def writeDones (s : State) : State :=
  ((s.mgt.rings.filter (fun r => r.2.done.isSome)).map (·.1)).foldl (fun s k => writeDoneLate k s) s

/-- A command in execution occupies its ring or path (R45, R61, R62). -/
def occupy (c : Cmd) (s : State) : State :=
  match c.path with
  | .serial => { s with mgt.serialBusy := true }
  | .debug => modRing 6 (fun r => { r with executing := true, fetched := none }) { s with mgt.dbgState := 1 }
  | _ => match ringKey c.path with
  | some k => modRing k (fun r => { r with executing := true, fetched := none }) s
  | none => s

/-! ### What a command is -/

/-- Kind of an operation (R53): reads state, changes configuration, operational change. -/
inductive Kind where
  | r | c | o
deriving DecidableEq, Repr

/-- How the record of an O command is written (R48). -/
inductive Log where
  /-- one command record with the payload as continuation -/
  | auto
  /-- nothing changed: no record -/
  | silent
  /-- the command wrote its own record, with this SEQ -/
  | own (seq : Nat)
  /-- a long command that completes in a later step -/
  | later
deriving DecidableEq, Repr

/-- What executing an R or O command did. -/
structure Ran where
  s : State
  result : List Byte := []
  log : Log := .auto

/-- The layout of a payload: its length and its reserved fields (offset, size, mask). -/
structure Layout where
  len : Nat
  rsvd : List (Nat × Nat × Nat) := []

/-- A reserved field of whole bytes. -/
def rsv (off n : Nat) : Nat × Nat × Nat := (off, n, 2 ^ (8 * n) - 1)

/-- One operation of R53: what the checks of R47 need and what it does. -/
structure CmdSpec where
  opcode : Nat
  kind : Kind
  /-- step 4: the selector, then the layout it names -/
  layout : Cmd → Except Fail Layout
  /-- step 3: reserved bits whose place the state decides: those of a table's key and data (R47) -/
  rsvdState : Cmd → State → Option Fail := fun _ _ => none
  /-- step 4: the payload's length where it depends on the object it names -/
  lenState : Cmd → State → Option Nat := fun _ _ => none
  /-- length of the result, for the limit of R40 -/
  resLen : Cmd → State → Nat := fun _ _ => 0
  /-- step 5: refused with DENIED beyond the rights mask (R57, R460) -/
  deny : Cmd → State → Bool := fun _ _ => false
  /-- step 5: a slice names an object that is not its own (R58) -/
  foreign : Nat → Cmd → State → Bool := fun _ _ _ => true
  /-- the header's TXN_ID names the command's own object (TXN_COMMIT, TXN_ABORT) -/
  namesTxn : Bool := false
  /-- executed in the safe state although it changes state (DEVICE_RESET, R50) -/
  inSafe : Bool := false
  /-- a replicated class under R313, or refused like one (TXN_OPEN) -/
  replicated : Cmd → Bool := fun _ => false
  /-- step 6: field values and resource identifiers -/
  fields : Cmd → State → Option Fail := fun _ _ => none
  /-- step 7 and execution of an R or O command -/
  run : Cmd → State → Except Fail Ran := fun _ s => .ok { s := s, log := .silent }
  /-- a DRY_RUN of an O command whose execution has effects outside State uses the same checks -/
  apply : Cmd → State → Except Fail (State × List Byte) := fun _ s => .ok (s, [])
  /-- objects of R76, and of R43 for a command outside transactions -/
  objects : Cmd → State → List Nat := fun _ _ => []
  /-- the change is double-banked (R65): (ingress bank, egress bank) -/
  banked : Cmd → Bool × Bool := fun _ => (false, false)
  /-- entry writes of R77 -/
  writes : Cmd → Nat := fun _ => 1
  /-- tables whose learning is deferred (R80 step 2) -/
  tables : Cmd → List Nat := fun _ => []
  /-- OBJECT of the journal record (R88), from the state after the change and the result -/
  object : Cmd → List Byte → State → Nat := fun _ _ _ => 0
  /-- the room that the placement pass looks for as it places the operation, in the state that it leaves (R147) -/
  room : Cmd → State → Option Fail := fun _ _ => none
  /-- what the placement pass checks once every operation of the transaction is placed (R256) -/
  settled : Cmd → State → Option Fail := fun _ _ => none
  /-- the HBM stacks that execution reads, whose uncorrectable bursts fail it (R429) -/
  hbmStacks : Cmd → State → List Nat := fun _ _ => []
  /-- what a refusal at execution leaves: a counter -/
  failed : Cmd → Fail → State → State := fun _ _ s => s

/-- A layout that needs no selector. -/
def plain (len : Nat) (rsvd : List (Nat × Nat × Nat)) : Cmd → Except Fail Layout :=
  fun _ => .ok { len := len, rsvd := rsvd }

end Sys2Proof.Machine

/-- Little-endian number of `n` payload bytes at `off`. -/
def Sys2Proof.Cmd.at (c : Sys2Proof.Cmd) (off n : Nat) : Nat := Sys2Proof.Machine.uN c.payload off n

namespace Sys2Proof.Machine

/-- Name of an object for R76: kind, number and key. -/
def objKey (kind num key : Nat) : Nat := (key * 2 ^ 32 + num) * 2 ^ 8 + kind

/-- Names of the objects of long O commands (R43): a mailbox ring, a data ring, a slice, a core, a unit in self-test. -/
def ringObj (k : Nat) : Nat := objKey 40 k 0
def dataObj (k : Nat) : Nat := objKey 41 k 0
def sliceObj (n : Nat) : Nat := objKey 43 n 0
def coreObj (c : Nat) : Nat := objKey 42 c 0
def unitObj (r : Nat) : Nat := objKey 44 r 0
/-- The objects that a unit stands for: a core, or the cores of a cluster; a lane, or the lanes of an octet; a pseudo-channel, or those of a stack; any other unit itself (R19, R43). -/
def unitObjs (r : Nat) : List Nat :=
  let i := resIndex r
  match resKind r with
  | 0x09 => [coreObj i] | 0x11 => (List.range 32).map (fun c => coreObj (32 * i + c))
  | 0x08 => (List.range 8).map (fun l => unitObj (resId 0x01 (8 * i + l)))
  | 0x13 => (List.range 32).map (fun p => unitObj (resId 0x0D (32 * i + p)))
  | _ => [unitObj r]

/-! ### The checks of R47 -/

/-- Bytes that a payload or a result may have (R40). -/
def sizeLimit (c : Cmd) : Nat :=
  if bit c.flags 0 then c.bufCap
  else match c.path with | .serial => 1024 | .debug => 1024 | _ => 448

/-- The path has no use for PHASE and for indirect buffers (R60, R62). -/
def inlineOnly (p : Path) : Bool := match p with | .serial => true | .debug => true | _ => false

/-- The first reserved field that is not zero. -/
def rsvdFail (bs : List Byte) : List (Nat × Nat × Nat) → Option Fail
  | [] => none
  | (off, n, m) :: rest =>
    if uN bs off n &&& m = 0 then rsvdFail bs rest else some (failAt St.reservedNonzero off)

/-- Step 3 on the header (R10). -/
def headerRsvd (c : Cmd) : Option Fail :=
  firstFail [(c.flags / 8 == 0, failAt St.reservedNonzero 2), (c.rsvd == 0, failAt St.reservedNonzero 46),
             (inlineOnly c.path || c.phase / 4 == 0, failAt St.reservedNonzero 47)]

/-- Step 3 on the payload: the layout that the selector names. -/
def payloadRsvd (sp : CmdSpec) (c : Cmd) (s : State) : Option Fail :=
  match sp.layout c with
  | .ok l => match rsvdFail c.payload l.rsvd with | some f => some f | none => sp.rsvdState c s
  | .error _ => none

/-- Step 4: buffer fields (R40), selector, PAYLOAD_LEN and result length. -/
def lengthFail (sp : CmdSpec) (c : Cmd) (s : State) : Option Fail :=
  let ind := bit c.flags 0
  match firstFail [
    (!(ind && inlineOnly c.path), badField 2),
    (ind || c.bufAddr == 0, badField 16), (ind || c.bufCap == 0, badField 24),
    (!ind || c.bufAddr % 64 == 0, badField 16),
    (!ind || (decide (64 ≤ c.bufCap) && decide (c.bufCap ≤ 1048576)), failAt St.badLength 24),
    (c.path != .serial || c.payload.length == c.payloadLen, failAt St.badLength 4),
    (!ind || c.readable, failWith St.badAddress)] with
  | some f => some f
  | none =>
    match sp.layout c with
    | .error f => some f
    | .ok l => firstFail [
        (c.payloadLen == (sp.lenState c s).getD l.len, failAt St.badLength 4),
        (decide (c.payloadLen ≤ sizeLimit c), failAt St.badLength 4),
        (decide (sp.resLen c s ≤ sizeLimit c), failAt St.badLength (if ind then 24 else 4))]

/-- Rights mask of an origin (R56); the PF0 host and the pair peer hold all rights. -/
def rightsOf (p : Path) (s : State) : Nat :=
  match p with
  | .pf0 _ => 2 ^ 64 - 1
  | .peer => 2 ^ 64 - 1
  | .slice n => (mgetD s.host.slices n {}).mask
  | .serial => s.mgt.serialMask
  | .debug => s.mgt.debugMask
  | .firmware => 0

/-- Bit of the rights mask that an operation needs (R56). -/
def rightBit (sp : CmdSpec) : Nat := 2 * (sp.opcode / 256) + (if sp.kind = .r then 0 else 1)

/-- Step 5: the rights of the origin (R56-R58). -/
def rightsFail (sp : CmdSpec) (c : Cmd) (s : State) : Option Fail :=
  if !bit (rightsOf c.path s) (rightBit sp) || sp.deny c s then some (failWith St.denied)
  else match c.path with
    | .slice n => if sp.foreign n c s then some (failWith St.foreignObject) else none
    | _ => none

/-- Step 6: TXN_ID of an R or O command (R52), the resource identifier (R20), then the command's own fields. -/
def fieldsFail (sp : CmdSpec) (c : Cmd) (s : State) : Option Fail :=
  if sp.kind != .c && !sp.namesTxn && c.txnId != 0 then some (badField 28)
  else match (if c.resource = 0 then none else resCheck s c.resource) with
    | some f => some f
    | none => sp.fields c s

/-- AT_NTIME of an armed switchover has come: no further change of replicated state is accepted (R325). -/
def switchoverDue (s : State) : Bool :=
  match s.pair.armed with | some t => s.pair.role == 4 && s.pair.peerRole == 3 && decide (t ≤ s.time.ntime) | none => false

/-- Step 7, what holds for every command: the safe state (R50), the journal (R51), PHASE (R454) and the pair role (R313). -/
def stateFail (sp : CmdSpec) (c : Cmd) (s : State) : Option Fail :=
  let changes := sp.kind != .r
  firstFail [
    (!(changes && s.faults.safe) || sp.inSafe, failWith St.safeState),
    (!changes || sp.opcode / 256 == 5 || journalRoom s.journal c.payload.length, failWith St.journalFull),
    (!(changes && sp.replicated c && decide (s.boot.phase < 3)), failWith St.wrongState),
    (!(changes && sp.replicated c && [2, 3, 5, 6].contains s.pair.role), failWith St.wrongState),
    (!(changes && sp.replicated c && (s.pair.switching != 0 || switchoverDue s)), failWith St.wrongState)]

/-- The checks of R47 in their order, up to those that execution itself makes. -/
def checkCmd (sp : CmdSpec) (c : Cmd) (s : State) : Option Fail :=
  if c.version != 1 then some (failWith St.badVersion)
  else match headerRsvd c with
  | some f => some f
  | none => match payloadRsvd sp c s with
    | some f => some f
    | none => match lengthFail sp c s with
      | some f => some f
      | none => match rightsFail sp c s with
        | some f => some f
        | none => match fieldsFail sp c s with
          | some f => some f
          | none => stateFail sp c s

/-- The form in which a SAK is shown (R109 04_network_ports): 8 bytes of its SHA-256, then zeros. -/
def sakShown (sak : List Byte) : List Byte := (sha256 sak).take 8 ++ zeros 24
/-- The payload as its record holds it, of a refused command too: a SAK is replaced (R109 04_network_ports). -/
def recordPayload (opcode : Nat) (c : Cmd) : List Byte :=
  if opcode = 0x0602 && c.at 2 1 = 2 then poke c.payload 48 (sakShown (slice c.payload 48 32)) else c.payload
/-- A refusal; a DENIED one is journalled unless FULL is set (R48). Where its payload has no room outside the reserve or in the payload area, its record carries none (log entry 13). -/
def refuseChecked (c : Cmd) (opcode : Nat) (f : Fail) (s : State) : State :=
  if f.status = St.denied then
    if s.journal.full then refuse c opcode f { s with journal.denied := (s.journal.denied + 1) % 2 ^ 16 }
    else
      let j := journalCmd { uptime := s.time.uptime, generation := s.mgt.generation,
                            resource := c.resource, opcode := opcode, status := f.status,
                            origin := originOf c.path, payload := if journalRoom s.journal c.payload.length then recordPayload opcode c else [] } s
      complete c opcode f.status f.detail [] j.1 j.2.mgt.generation j.2
  else refuse c opcode f s

/-- Complete a long O command in a later step: its record, then its completion. -/
def completeLong (c : Cmd) (opcode object : Nat) (result : List Byte) (s : State) : State :=
  let j := journalCmd { uptime := s.time.uptime, generation := s.mgt.generation, object := object,
                        resource := c.resource, opcode := opcode, origin := originOf c.path,
                        payload := c.payload } s
  complete c opcode St.success 0 result j.1 j.2.mgt.generation j.2

end Sys2Proof.Machine
end

