-- ==== Sys2Proof/Machine/Operands.lean ====
section
/-! DEFINITION. The operand forms of the mailbox: the command header of R39 read from an entry's bytes, and lists of fixed-size items in payloads. -/

namespace Sys2Proof.Machine

/-- A command entry read by R39: 64 header bytes, then the inline area; the payload is taken from the
inline area or from the indirect buffer (R40); on the serial path it is every byte after the header (R60). -/
def parseEntry (path : Path) (e : List Byte) (buffer : Option (List Byte)) (writable : Bool) : Nat × Cmd :=
  let flags := u8 e 2
  let len := u32 e 4
  let limit := match path with | .serial => 1024 | .debug => 1024 | _ => 448
  let inline := match path with | .serial => e.drop 64 | _ => (e.drop 64).take (min len limit)
  (u16 e 0,
   { path := path, flags := flags, version := u8 e 3, payloadLen := len, tag := u64 e 8, bufAddr := u64 e 16,
     bufCap := u32 e 24, txnId := u32 e 28, resource := u32 e 32, rsvd := u8 e 46, phase := u8 e 47,
     payload := if bit flags 0 then ((buffer.getD []).take len) else inline,
     readable := !bit flags 0 || buffer.isSome, writable := writable })

/-- `n` items of `size` bytes from a byte string. -/
def items (size : Nat) : Nat → List Byte → List (List Byte)
  | 0, _ => []
  | n + 1, bs => fit size bs :: items size n (bs.drop size)

/-- Little-endian numbers of `size` bytes each. -/
def numbers (size n : Nat) (bs : List Byte) : List Nat := (items size n bs).map leNat

end Sys2Proof.Machine
end

