-- ==== Sys2Proof/Machine/Management.lean ====
section
/-! DEFINITION. The commands of the classes DEVICE, MBOX, RIGHTS, TXN, JOURNAL and OBSERVE, and the events of rings, debug path, transactions and journal (01_architecture to 03_transactions_and_journal, 18_power_clocks_reset R481). -/

namespace Sys2Proof.Machine

/-! ### DEVICE (R54, R481) -/

/-- VERSION of the running management firmware: bytes 8-15 of its header (R450). -/
def fwVersion (s : State) : Nat :=
  u64 (mgetD s.boot.running 1 []) 8

/-- DEVICE_INFO's result (R54). -/
def deviceInfoResult (s : State) : List Byte :=
  leBytes 1 0xB1 ++ leBytes 1 (b2n (isB1S s)) ++ leBytes 1 (b2n s.fabric.connected) ++ leBytes 1 s.boot.phase ++
  leBytes 1 1 ++ leBytes 1 (service s) ++ leBytes 1 s.pair.role ++ zeros 1 ++ leBytes 8 (otpWord s 0) ++
  leBytes 4 (bootNo s) ++ zeros 4 ++ leBytes 8 s.time.uptime ++ leBytes 8 s.mgt.generation ++
  leBytes 8 (fwVersion s) ++ zeros 16

/-- DEVICE_INFO, 0x0101 R. -/
def deviceInfoSpec : CmdSpec :=
  { opcode := 0x0101, kind := .r, layout := plain 0 [], resLen := fun _ _ => 64, foreign := fun _ _ _ => false,
    run := fun _ s => .ok { s := s, result := deviceInfoResult s, log := .silent } }

/-- DEVICE_RESET, 0x0103 O: the warm reset starts 100 µs after the completion (R481). -/
def deviceResetSpec : CmdSpec :=
  { opcode := 0x0103, kind := .o, layout := plain 8 [rsv 1 7], inSafe := true, foreign := fun _ _ _ => false,
    fields := fun c _ => firstFail [(c.at 0 1 == 0, badField 0)],
    run := fun _ s => .ok { s := { s with mgt.resetAt := some (s.mgt.resetAt.getD (s.time.uptime + 100000)) } } }

/-- OBSERVE_SET_WINDOW, 0x1301 O (R26). -/
def observeSetWindowSpec : CmdSpec :=
  { opcode := 0x1301, kind := .o, layout := plain 8 [], foreign := fun _ _ _ => false,
    fields := fun c _ => firstFail [(c.at 0 8 % 2 ^ 30 == 0 && (stackOf (c.at 0 8)).isSome, badField 0)],
    run := fun c s => .ok { s := { s with host.obsBase := c.at 0 8 } } }

/-! ### MBOX (R38, R53, R55) -/

/-- MBOX_NOP, 0x0201 R. -/
def mboxNopSpec : CmdSpec :=
  { opcode := 0x0201, kind := .r, layout := plain 0 [], foreign := fun _ _ _ => false }

/-- MBOX_RING_SET, 0x0202 O: enables a disabled PF0 ring 1-3 with both indices at 0. -/
def mboxRingSetSpec : CmdSpec :=
  { opcode := 0x0202, kind := .o, layout := plain 16 [rsv 2 6],
    fields := fun c _ => firstFail [
      (decide (1 ≤ c.at 0 1) && decide (c.at 0 1 ≤ 3), badField 0),
      (decide (4 ≤ c.at 1 1) && decide (c.at 1 1 ≤ 12), badField 1), (c.at 8 8 % 512 == 0, badField 8)],
    run := fun c s =>
      if (mbRing s (c.at 0 1)).state != 0 then .error (failWith St.wrongState)
      else .ok { s := modRing (c.at 0 1) (fun r => { r with
        state := 1, log2 := c.at 1 1, base := c.at 8 8, producer := 0, consumer := 0, waits := [], haltCause := 0, tries := 0 }) s },
    objects := fun c _ => [ringObj (c.at 0 1)]
    object := fun c _ _ => c.at 0 1 }

/-- MBOX_RING_DISABLE, 0x0203 O (R38). HALT_CAUSE of a halted ring reads 0 once it is disabled (DESIGN CHOICE, log entry 57). -/
def mboxRingDisableSpec : CmdSpec :=
  { opcode := 0x0203, kind := .o, layout := plain 1 [],
    fields := fun c _ => firstFail [(decide (1 ≤ c.at 0 1) && decide (c.at 0 1 ≤ 3), badField 0)],
    run := fun c s =>
      let n := c.at 0 1
      let r := mbRing s n
      if r.state = 0 then .ok { s := s, log := .silent }
      else if r.state = 2 then
        .ok { s := modRing n (fun r => { r with state := 0, producer := 0, consumer := 0, waits := [], haltCause := 0, tries := 0, fetched := none }) s }
      else if (r.executing || r.fetched.isSome) && c.path != .pf0 n then
        .ok { s := modRing n (fun r => { r with disabling := some c }) s, log := .later }
      else .ok { s := modRing n (fun r => { r with state := 0 }) s },
    objects := fun c _ => [ringObj (c.at 0 1)]
    object := fun c _ _ => c.at 0 1 }

/-- Ring number in `Mgt.rings` of the RING and SLICE fields (R55). -/
def statusRing (c : Cmd) : Nat := if c.at 0 1 = 5 then 0x1000 + c.at 2 2 else c.at 0 1

/-- MBOX_RING_STATUS, 0x0204 R. -/
def mboxRingStatusSpec : CmdSpec :=
  { opcode := 0x0204, kind := .r, layout := plain 4 [rsv 1 1], resLen := fun _ _ => 32,
    foreign := fun n c _ => c.at 0 1 != 5 || c.at 2 2 != n,
    fields := fun c s => firstFail [
      (decide (c.at 0 1 ≤ 6), badField 0),
      (c.at 0 1 == 5 || c.at 2 2 == 0, badField 2),
      (c.at 0 1 != 5 || (mget s.host.slices (c.at 2 2)).isSome, badField 2)],
    run := fun c s =>
      let k := statusRing c
      .ok { s := s, log := .silent,
            result := leBytes 8 (mbConsumerWord (mbRing s k)) ++ leBytes 8 (mbStatusWord s k) ++
              leBytes 8 (mbConfigWord (mbRing s k)) ++ zeros 8 } }

/-! ### RIGHTS (R56-R59) -/

/-- Every defined bit of a rights mask: classes 0x01 to 0x17. -/
def allRights : Nat := 2 ^ 48 - 4

/-- The rights mask in force for an ORIGIN and SLICE; none for a slice that does not exist. -/
def rightsMask (s : State) (origin sl : Nat) : Option Nat :=
  if origin = 1 || origin = 4 then some allRights
  else if origin = 2 then (mget s.host.slices sl).map (·.mask)
  else if origin = 3 then some s.mgt.serialMask
  else if origin = 7 then some s.mgt.debugMask
  else some 0

/-- RIGHTS_GET, 0x0301 R. -/
def rightsGetSpec : CmdSpec :=
  { opcode := 0x0301, kind := .r, layout := plain 4 [rsv 1 1], resLen := fun _ _ => 8,
    foreign := fun n c _ => c.at 0 1 != 2 || c.at 2 2 != n,
    fields := fun c _ => firstFail [
      (decide (1 ≤ c.at 0 1) && decide (c.at 0 1 ≤ 7), badField 0), (c.at 0 1 == 2 || c.at 2 2 == 0, badField 2)],
    run := fun c s => match rightsMask s (c.at 0 1) (c.at 2 2) with
      | none => .error (failWith St.notFound)
      | some m => .ok { s := s, result := leBytes 8 m, log := .silent } }

/-- Replace the mask of an origin or slice. -/
def setMask (origin sl mask : Nat) (s : State) : State :=
  if origin = 2 then { s with host.slices := mmod s.host.slices sl {} (fun x => { x with mask := mask }) }
  else if origin = 3 then { s with mgt.serialMask := mask }
  else { s with mgt.debugMask := mask }

/-- RIGHTS_SET, 0x0302 O: only the PF0 host (R57); the record's continuation holds the old and the new mask. -/
def rightsSetSpec : CmdSpec :=
  { opcode := 0x0302, kind := .o, layout := plain 16 [rsv 1 1, rsv 4 4, (8, 8, 2 ^ 64 - 1 - allRights)],
    deny := fun c _ => match c.path with | .pf0 _ => false | _ => true,
    fields := fun c _ => firstFail [
      ([2, 3, 7].contains (c.at 0 1), badField 0), (c.at 0 1 == 2 || c.at 2 2 == 0, badField 2)],
    run := fun c s => match rightsMask s (c.at 0 1) (c.at 2 2) with
      | none => .error (failWith St.notFound)
      | some old =>
        let s := setMask (c.at 0 1) (c.at 2 2) (c.at 8 8) s
        let j := journalCmd { uptime := s.time.uptime, generation := s.mgt.generation, resource := c.resource,
                              opcode := 0x0302, origin := originOf c.path,
                              payload := leBytes 8 old ++ leBytes 8 (c.at 8 8) } s
        .ok { s := j.2, log := .own j.1 } }

/-! ### TXN_OPEN, TXN_ABORT, TXN_STATUS (R73-R79); TXN_COMMIT stands in Firmware.lean -/

/-- The first TXN_ID from `t` that is not open, wrapping past 0xFFFF_FFFF to 1 (R73). -/
def freeTxn (s : State) : Nat → Nat → Nat
  | 0, t => t
  | n + 1, t => if (mget s.mgt.txns t).isSome then freeTxn s n (if t = 2 ^ 32 - 1 then 1 else t + 1) else t

/-- TXN_OPEN, 0x0401 O. -/
def txnOpenSpec : CmdSpec :=
  { opcode := 0x0401, kind := .o, layout := plain 0 [], resLen := fun _ _ => 8, foreign := fun _ _ _ => false,
    replicated := fun _ => true,
    run := fun c s =>
      let o := originOf c.path
      let mine := s.mgt.txns.any (fun t => t.2.origin == o)
      let isSlice := match c.path with | .slice _ => true | _ => false
      if 16 ≤ s.mgt.txns.length || (isSlice && mine) then .error (failWith St.noSpace)
      else
        let t := freeTxn s 17 s.mgt.nextTxn
        .ok { s := { s with mgt.txns := mset s.mgt.txns t { origin := o, last := s.time.uptime },
                            mgt.nextTxn := if t = 2 ^ 32 - 1 then 1 else t + 1 },
              result := leBytes 4 t ++ zeros 4 },
    object := fun _ r _ => uN r 0 4 }

/-- NO_TXN unless the origin has the transaction open, WRONG_STATE while it commits (R74). -/
def txnCheck (c : Cmd) (s : State) : Option Fail :=
  match mget s.mgt.txns c.txnId with
  | none => some (failWith St.noTxn)
  | some t =>
    if t.origin != originOf c.path then some (failWith St.noTxn)
    else if t.state != 1 then some (failWith St.wrongState) else none

/-- TXN_ABORT, 0x0403 O. -/
def txnAbortSpec : CmdSpec :=
  { opcode := 0x0403, kind := .o, layout := plain 0 [], namesTxn := true, foreign := fun _ _ _ => false,
    run := fun c s => match txnCheck c s with
      | some f => .error f
      | none => .ok { s := { s with mgt.txns := mdel s.mgt.txns c.txnId } },
    object := fun c _ _ => c.txnId }

/-- TXN_STATUS, 0x0404 R (R55). -/
def txnStatusSpec : CmdSpec :=
  { opcode := 0x0404, kind := .r, layout := plain 4 [], resLen := fun _ _ => 32, foreign := fun _ _ _ => false,
    run := fun c s =>
      let pf0 := match c.path with | .pf0 _ => true | _ => false
      match mget s.mgt.txns (c.at 0 4) with
      | none => .error (failWith St.noTxn)
      | some t =>
        if !pf0 && t.origin != originOf c.path then .error (failWith St.noTxn)
        else .ok {
          s := s, log := .silent,
          result := leBytes 4 (c.at 0 4) ++ leBytes 1 t.state ++ zeros 1 ++ leBytes 2 t.origin ++ leBytes 4 t.writes ++
            leBytes 4 ((s.time.uptime - t.last) / 1000000) ++ leBytes 8 t.bytes ++ zeros 8 } }

/-- Abort one open transaction by the management firmware and journal it (R78). -/
def fwAbort (t : Nat) (s : State) : State :=
  (journalFw 0x0403 t 0 { s with mgt.txns := mdel s.mgt.txns t }).2
/-- The transactions that can be aborted: the open ones, and those whose commit waits before its commit point (R74). -/
def abortable (s : State) : List Nat :=
  (s.mgt.txns.filter (fun t => t.2.state == 1 || s.mgt.commits.any (fun k => k.txn == t.1 && (k.waiting || k.writing)))).map (·.1)
/-- A commit defers learning and aging of an instance from now on, or no longer (R80). -/
def setHeld (on : Bool) (now : Nat) (i : TInst) : TInst :=
  if on = i.held then i
  else if on then { i with held := true, heldAt := now }
  else { i with held := false, heldNs := i.heldNs + (now - i.heldAt) }
/-- Hold or release hardware learning and aging: the tables of commits under way (R80 steps 2 and 7). -/
def settleHeld (s : State) : State :=
  let ts := (s.mgt.commits.map (fun k => if k.waiting then [] else k.held)).flatten
  { s with tables := mmap s.tables (fun t x => { x with insts := mmap x.insts (fun _ i => setHeld (ts.contains t) (unpausedNow s) i) }) }

/-- Table `t` with the instances of `x`. -/
def withInsts (m : NMap Table) (t : Nat) (x : Table) : NMap Table := if (mget m t).isSome then mmod m t {} (fun y => { y with insts := x.insts }) else m
/-- An entry as it was, with the HIT that a packet has set since. -/
def keepHit (now : NMap Entry) (h : Nat) (e : Entry) : Entry :=
  match mget now h with | some y => if y.key = e.key then { e with hit := y.hit } else e | none => e
/-- An instance as it was, with what packets have set since. -/
def keepHits (now old : TInst) : TInst := { old with slots := mmap old.slots (keepHit now.slots), stash := mmap old.stash (keepHit now.stash), held := now.held, heldAt := now.heldAt, heldNs := now.heldNs }

/-- The entries written in phase A are taken back (R81). -/
def restoreEntries (k : Commit) (s : State) : State :=
  let back := fun (m : NMap Table) (b : Nat × Table) =>
    withInsts m b.1 { b.2 with insts := mmap b.2.insts (fun i old => keepHits (mgetD (mgetD m b.1 {}).insts i {}) old) }
  { s with tables := k.before.foldl back s.tables }

/-- Abort a transaction and the commit of it that waits; what its phase A wrote is taken back, and its TXN_COMMIT completes with NO_TXN (R78; DESIGN CHOICE, log entry 82). -/
def fwAbortOne (t : Nat) (s : State) : State :=
  let gone := s.mgt.commits.filter (fun k => k.txn == t && (k.waiting || k.writing))
  let s := fwAbort t { s with mgt.commits := s.mgt.commits.filter (fun k => !(k.txn == t && (k.waiting || k.writing))) }
  let s := if gone.any (·.writing) then settleHeld (gone.foldl (fun s k => restoreEntries k s) s) else s
  gone.foldl (fun s k => match k.cmd with | some c => refuse c k.opcode (failWith St.noTxn) s | none => s) s

/-- Abort every transaction that is open, with the commit that waits (R78). -/
def fwAbortAll (s : State) : State := (abortable s).foldl (fun s t => fwAbortOne t s) s

/-! ### JOURNAL (R86, R94) -/

/-- The 64 bytes of a record. -/
def JRec.raw (r : JRec) : List Byte := r.body ++ leBytes 16 r.chain

/-- JOURNAL_READ, 0x0501 R. -/
def journalReadSpec : CmdSpec :=
  { opcode := 0x0501, kind := .r, layout := plain 12 [], foreign := fun _ _ _ => false,
    resLen := fun c s => if c.at 8 4 ≤ 16384 then 64 * min (c.at 8 4) (s.journal.head - c.at 0 8) else 0,
    fields := fun c _ => firstFail [(decide (1 ≤ c.at 8 4) && decide (c.at 8 4 ≤ 16384), badField 8)],
    hbmStacks := fun _ s => if s.journal.sram then [] else (stackOf s.journal.base).toList
    run := fun c s =>
      if c.at 0 8 < s.journal.release || s.journal.head < c.at 0 8 then .error (failWith St.notFound)
      else .ok {
        s := s, log := .silent,
        result := (((s.journal.recs.filter (fun r => c.at 0 8 ≤ r.seq)).take (c.at 8 4)).map JRec.raw).flatten } }

/-- The last SEQ that may be released: what a SYNCING or STANDBY peer has not applied is kept (R319). -/
def releasable (s : State) (seq : Nat) : Nat :=
  if s.pair.role = 4 && (s.pair.peerRole = 2 || s.pair.peerRole = 3) then min seq s.pair.peerApplied else seq

/-- Release up to SEQ as far as the peer allows. -/
def releaseTo (seq : Nat) (s : State) : State :=
  journalRelease (releasable s seq) { s with journal.relWanted := max s.journal.relWanted seq }

/-- JOURNAL_RELEASE, 0x0502 O. A SEQ equal to the head names the record that the release writes; the continuation at SEQ + 1 that holds the command's payload goes with it (DEDUCED, log entry 14). -/
def journalReleaseSpec : CmdSpec :=
  { opcode := 0x0502, kind := .o, layout := plain 8 [], foreign := fun _ _ _ => false,
    fields := fun c s => firstFail [(decide (c.at 0 8 ≤ s.journal.head), badField 0)],
    run := fun c s =>
      let seq := c.at 0 8
      if seq < s.journal.release then .ok { s := s, log := .silent }
      else
        let all := seq == s.journal.head
        let s := releaseTo (if all then seq - 1 else seq) s
        let j := journalCmd { uptime := s.time.uptime, generation := s.mgt.generation, object := seq,
                              resource := c.resource, opcode := 0x0502, origin := originOf c.path,
                              payload := c.payload } s
        .ok { s := if all then releaseTo (j.2.journal.head - 1) j.2 else j.2, log := .own j.1 } }

/-- JOURNAL_CHECKPOINT, 0x0503 O: the checkpoint record is the command's own record (R94). -/
def journalCheckpointSpec : CmdSpec :=
  { opcode := 0x0503, kind := .o, layout := plain 0 [], resLen := fun _ _ => 8, foreign := fun _ _ _ => false,
    run := fun c s =>
      let j := journalCheckpointRec 0x0503 (originOf c.path) s
      .ok { s := j.2, result := leBytes 8 j.1, log := .own j.1 } }

/-- HBM region (1 MiB) number of a device address in H0 or H1: 0-24575 H0, 24576-49151 H1 (R160). -/
def regionOf (a : Nat) : Option Nat :=
  match stackOf a with
  | some 0 => some ((a - hbmBase 0) / 2 ^ 20)
  | some 1 => some (24576 + (a - hbmBase 1) / 2 ^ 20)
  | _ => none
/-- Base address of a region. -/
def regionBase (r : Nat) : Nat := if r < 24576 then hbmBase 0 + r * 2 ^ 20 else hbmBase 1 + (r - 24576) * 2 ^ 20

/-- Two half-open ranges meet. -/
def overlaps (a la b lb : Nat) : Bool := decide (a < b + lb) && decide (b < a + la)

/-- Tahr HBM region of a cluster (R332): 4 GiB at the top of H1. -/
def tahrHbm (cluster : Nat) : Nat × Nat := (0x100C00000000 + cluster * 2 ^ 32, 2 ^ 32)
/-- A range meets a Tahr HBM region. -/
def meetsTahr (base len : Nat) : Bool :=
  overlaps base len (tahrHbm 0).1 (tahrHbm 0).2 || overlaps base len (tahrHbm 1).1 (tahrHbm 1).2

/-- Frame size of a dump stream (R416); the section table is R419's. -/
def sectionShape (code : Nat) : Nat × Nat :=
  match code with
  | 0x01 => (192, 21) | 0x02 => (192, 10) | 0x03 => (512, 3) | 0x04 => (194, 7) | 0x05 => (24, 256) | 0x06 => (1024, 5)
  | 0x07 => (64, 4) | 0x08 => (4288, 4) | 0x09 => (64, 4) | 0x0A => (20, 4) | 0x0B => (1536, 1)
  | 0x0C => (1048576, 8) | 0x0D => (131072, 8) | 0x0E => (1, 6) | 0x0F => (2048, 4) | 0x10 => (194, 4)
  | 0x11 => (1, 7) | 0x12 => (2048, 2) | 0x13 => (2, 2) | 0x14 => (64, 7) | 0x15 => (4096, 12) | 0x16 => (3, 4)
  | _ => (0, 0)
/-- Bytes of a section: its header and E × C counters. -/
def sectionBytes (code : Nat) : Nat := 16 + (sectionShape code).1 * (sectionShape code).2 * 8
/-- Content of a frame in bytes. -/
def dumpContent (stream sections : Nat) : Nat :=
  if stream = 0 then 4096 * 320 else ((setBits 22 sections).map (fun c => sectionBytes (c + 1))).foldl (· + ·) 0
/-- Frame size F, a multiple of 4 KiB (R416). -/
def dumpFrame (stream sections : Nat) : Nat := ceilDiv (64 + dumpContent stream sections) 4096 * 4096

/-- A range of H0 or H1 meets a table's region or a dump stream with DEST 1, outside the current journal region (R86). While the journal is in Stag SRAM it has no region there. -/
def regionTaken (s : State) (base len : Nat) : Bool :=
  let j := s.journal
  let jlen := if j.sram then 0 else j.sizeMib * 2 ^ 20
  s.tables.any (fun t => t.2.regions.any (fun r => overlaps base len (regionBase r) (2 ^ 20) &&
    !overlaps (regionBase r) (2 ^ 20) j.base jlen)) ||
  s.dumps.any (fun d => d.2.dest == 1 && overlaps base len d.2.base (d.2.depth * dumpFrame d.1 d.2.sections)) ||
  s.tahr.clusters.any (fun d => d.2.dumpDest == 1 && overlaps base len d.2.dumpBase (d.2.dumpDepth * 4096))

/-- A byte of the range is lost or fenced under R430: a pseudo-channel of its stack is fenced or the stack is not ready. -/
def rangeLost (s : State) (base : Nat) : Bool :=
  match stackOf base with
  | none => true
  | some n => !(mgetD s.hbm n {}).ready || (List.range 32).any (fun p => isFenced s (resId 0x0D (32 * n + p)))

/-- JOURNAL_SET_REGION, 0x0504 O (R86): the new region starts empty with the marker of cause 3. -/
def journalSetRegionSpec : CmdSpec :=
  { opcode := 0x0504, kind := .o, layout := plain 16 [rsv 12 4], foreign := fun _ _ _ => false,
    fields := fun c _ =>
      let base := c.at 0 8
      let len := c.at 8 4 * 2 ^ 20
      firstFail [
        (decide (256 ≤ c.at 8 4) && decide (c.at 8 4 ≤ 8192) && c.at 8 4 % 256 == 0, badField 8),
        (base % 2 ^ 20 == 0 && (regionOf base).isSome && stackOf base == stackOf (base + len - 1) &&
          !meetsTahr base len, badField 0)],
    run := fun c s =>
      let base := c.at 0 8
      let len := c.at 8 4 * 2 ^ 20
      if s.journal.release < s.journal.head || regionTaken s base len then .error (failWith St.wrongState)
      else if rangeLost s base then .error (failWith St.fenced)
      else .ok { s := journalMarker 3 base { s with journal := { s.journal with
        base := base, sizeMib := c.at 8 4, sram := false, payloads := [], payloadNext := 0, recs := [] } } },
    object := fun c _ _ => c.at 0 8 }

/-! ### Doorbells (R35-R37) -/

/-- RING_RESET of a halted ring (R37): indices 0, entries discarded, journalled with the owner as origin. -/
def ringReset (p : Path) (k : Nat) (s : State) : State :=
  let s := modRing k (fun r => { r with state := 1, producer := 0, consumer := 0, waits := [], haltCause := 0, tries := 0, fetched := none }) s
  (journalCmd { uptime := s.time.uptime, generation := s.mgt.generation, object := k, opcode := 0x0200,
                origin := originOf p } s).2

/-- A write to MGT_MB_DOORBELL of a PF0 or slice ring (R35-R37). A function in D3hot takes none (PRESUMED, log entry 71). -/
def doorbell (p : Path) (value : Nat) (s : State) : State :=
  match ringKey p with
  | none => s
  | some k =>
    let sl := mgetD s.host.slices (k - 0x1000) {}
    if k = 4 || k = 6 || !running s || pathAsleep p s || (0x1000 ≤ k && sl.state == 0) then s
    else if 0x1000 ≤ k && sl.state != 1 then
      { s with host.slices := mset s.host.slices (k - 0x1000) { sl with fenceDiscard := (sl.fenceDiscard + 1) % 2 ^ 16 } }
    else
      let r := mbRing s k
      let m := 2 * r.size
      let v := value % 2 ^ 13
      let ahead := (v + m - r.consumer % m) % m
      let bad := modRing k (fun r => { r with badDoorbell := (r.badDoorbell + 1) % 256 }) s
      if bitsOf value 62 13 != 0 then bad
      else if bit value 63 then (if r.state = 2 then ringReset p k s else bad)
      else if r.state = 0 || r.state = 2 then bad
      else if v = r.producer then s
      else if m ≤ v || ahead ≤ r.posted || r.size < ahead then bad
      else modRing k (fun r => { r with
        producer := v, waits := r.waits ++ List.replicate (ahead - r.posted) s.time.uptime }) s

/-- MB_DOORBELL (R35). -/
def execMbDoorbell (p : Path) (value : Nat) (s : State) : Host.Outcome State Fault Refusal :=
  answer s (doorbell p value s)
/-- MB_RING_RESET (R37): a doorbell write with RING_RESET 1. -/
def execMbRingReset (p : Path) (value : Nat) (s : State) : Host.Outcome State Fault Refusal :=
  answer s (doorbell p (value % 2 ^ 63 + 2 ^ 63) s)

/-! ### The debug path (R62) -/

/-- The address after an access. -/
def dbgAdvance (s : State) : State := { s with mgt.dbgAddr := (s.mgt.dbgAddr + 1) % 2 ^ 16 }

/-- MBOX_ADDR: Update-DR sets the word address. -/
def execMboxAddr (value : Nat) (s : State) : Host.Outcome State Fault Refusal :=
  answer s (if running s then { s with mgt.dbgAddr := value % 2 ^ 16 } else s)

/-- The word at a debug address. -/
def dbgRead (s : State) (a : Nat) : Nat :=
  if a < 136 then mgetD s.mgt.dbgWords a 0 else if a = 0xFFE then s.mgt.dbgState else 0

/-- MBOX_DATA, Capture-DR: loads the word; a read of word 0 in state 2 returns DBG_STATE to 0. -/
def execMboxDataCapture (s : State) : Host.Outcome State Fault Refusal :=
  answer s (if running s then
    let v := dbgRead s s.mgt.dbgAddr
    let s := emit (.data v) { s with mgt.dbgShift := v }
    let s := if s.mgt.dbgAddr = 0 && s.mgt.dbgState = 2 && !s.boot.restarting then { s with mgt.dbgState := 0 } else s
    dbgAdvance s
  else s)

/-- Word 0x0FFF posts the entry of the debug ring unless one is posted. During a firmware restart DBG_STATE holds its value and the post takes effect when the ring resumes (R46, R62). -/
def dbgPostEntry (s : State) : State :=
  if s.mgt.dbgPost || s.mgt.dbgState == 1 then s
  else if s.boot.restarting then { s with mgt.dbgPost := true }
  else { s with mgt.dbgPost := true, mgt.dbgState := 1 }
/-- The debug ring resumes after a firmware restart: a latched post shows as executing. -/
def dbgResume (s : State) : State := if s.mgt.dbgPost then { s with mgt.dbgState := 1 } else s

/-- MBOX_DATA, Update-DR: writes the shifted word. -/
def execMboxDataUpdate (value : Nat) (s : State) : Host.Outcome State Fault Refusal :=
  answer s (if running s then
    let a := s.mgt.dbgAddr
    let s := if a < 136 then { s with mgt.dbgWords := mput s.mgt.dbgWords a (value % 2 ^ 64) }
      else if a = 0xFFF then dbgPostEntry s else s
    dbgAdvance s
  else s)

/-! ### Transactions and the journal -/

/-- TXN_IDLE_TIMEOUT (R78): 60 s without a command. -/
def execTxnIdleTimeout (t : Nat) (s : State) : Host.Outcome State Fault Refusal :=
  answer s (match mget s.mgt.txns t with
    | some x => if mailboxReady s && x.state = 1 && x.last + 60000000000 ≤ s.time.uptime then fwAbort t s else s
    | none => s)

/-- BATCH_CLOSE (R90): 1 ms after the batch's first change. -/
def execBatchClose (table inst resource : Nat) (s : State) : Host.Outcome State Fault Refusal :=
  answer s (match s.journal.batches.find? (fun b => b.table == table && b.inst == inst && b.resource == resource) with
    | some b => if b.first + 1000000 ≤ s.time.uptime then closeBatch b s else s
    | none => s)

/-- CHECKPOINT (R93): every 1,048,576 records or 10 s. -/
def execCheckpoint (s : State) : Host.Outcome State Fault Refusal :=
  answer s (if mailboxReady s && (1048576 ≤ s.journal.ckptRecs || s.journal.ckptAt + 10000000000 ≤ s.time.uptime) then
    (journalCheckpointRec 0 0x5000 s).2 else s)

/-- SIGNATURE (R93): the signature of the checkpoint with this SEQ and the device identity digest is stored and its record written. -/
def execSignature (seq : Nat) (s : State) : Host.Outcome State Fault Refusal :=
  answer s (match s.journal.sigPending.find? (fun p => p.1 == seq) with
    | some c =>
      if !mailboxReady s || s.journal.sram || payloadArea s.journal < payloadBytes s.journal + 17088 then s
      else
        let s := { s with journal.sigPending := s.journal.sigPending.filter (fun p => p.1 != seq) }
        let p := storePayload (attestSign s (c.2 ++ identityDigest s)) s
        appendRec 4 false (leBytes 8 s.time.uptime ++ leBytes 8 seq ++ leBytes 8 p.1 ++ leBytes 4 17088 ++
          leBytes 4 (bootNo s) ++ zeros 6 ++ leBytes 1 4 ++ zeros 1) p.2
    | none => s)

end Sys2Proof.Machine
end

