-- ==== Sys2Proof/Machine/Time.lean ====
section
/-! DEFINITION. Timebase, 1PPS pins, monitors and dump streams (14_time_and_monitors). -/

namespace Sys2Proof.Machine

/-! ### The tick (R399-R402) -/

/-- The rate correction of one tick in 2⁻³² ns: RATE_PPT × 10⁻¹² ns rounded to nearest (ties upward, log entry 15). -/
def rateCorrection (rate : Int) : Int := (rate * 2 ^ 32 + 500000000000) / 1000000000000

/-- NTIME with its fraction, in 2⁻³² ns, after one tick at a rate, before a step. -/
def nextNtime (t : Timebase) (rate : Int) : Int := (t.ntime : Int) * 2 ^ 32 + t.frac + 2 ^ 32 + rateCorrection rate

/-- The first 1PPS edge time that a time stepped back to `n` has yet to reach: `n` itself where it is one (R407). -/
def edgeFrom (phase n : Nat) : Nat := if n ≤ phase then phase else phase + ceilDiv (n - phase) 1000000000 * 1000000000
/-- The first 1PPS edge time after `n` (R407). -/
def edgeAfter (phase n : Nat) : Nat := if n < phase then phase else phase + ((n - phase) / 1000000000 + 1) * 1000000000

/-- One tick of CK_TIME: UPTIME, then NTIME with its rate and a step that waited (R399-R402). -/
def tickTime (t : Timebase) : Timebase :=
  let rate := t.nextRate.getD t.rate
  let n := (nextNtime t rate).toNat
  let whole := n / 2 ^ 32
  let (ntime, frac) : Nat × Nat := match t.nextStep with
    | none => (whole, n % 2 ^ 32)
    | some (0, v) => (((whole : Int) + v).toNat, n % 2 ^ 32)
    | some (_, v) => (v.toNat, 0)
  { t with uptime := t.uptime + 1, ntime := ntime, frac := frac, rate := rate, nextRate := none, nextStep := none,
           ppsNext := if ntime < t.ntime then min t.ppsNext (edgeFrom t.ppsPhase ntime) else t.ppsNext }

/-- NTIME has reached the start of an armed activation: it is due, whatever NTIME does afterwards (R462). -/
def startReached (ntime : Nat) (a : Activation) : Activation := if a.at_ ≤ ntime then { a with at_ := 0 } else a

/-- CK_TIME ticks unless power-on reset holds the device or REFCLK is lost (R476, R478). -/
def tick (s : State) : State :=
  if s.power.porst || s.power.brownout || s.power.refclkLost then s
  else
    let t := tickTime s.time
    { s with time := t, boot.armed := s.boot.armed.map (startReached t.ntime) }

/-! ### TIME commands (R401-R404, R407) -/

/-- TIME_GET, 0x1101 R. -/
def timeGetSpec : CmdSpec :=
  { opcode := 0x1101, kind := .r, layout := plain 0 [], resLen := fun _ _ => 48, foreign := fun _ _ _ => false,
    run := fun _ s => .ok {
      s := s, log := .silent,
      result := leBytes 8 s.time.uptime ++ leBytes 8 s.time.ntime ++ leBytes 4 s.time.frac ++ leBytes 4 (bootNo s) ++
        leBytes 8 (unsigned 64 s.time.rate) ++ leBytes 8 (timeStatusWord s) ++
        leBytes 8 (unsigned 64 (if following s then s.time.peerOffset else 0)) } }

/-- NTIME in ns after the next tick, with a step that already waits. -/
def plannedNtime (t : Timebase) : Int :=
  let n := nextNtime t (t.nextRate.getD t.rate) / 2 ^ 32
  match t.nextStep with
  | none => n
  | some (0, v) => n + v
  | some (_, v) => v

/-- The step that waits once another is added to it. -/
def addStep (t : Timebase) (mode : Nat) (v : Int) : Option (Nat × Int) :=
  if mode = 1 then some (1, v)
  else match t.nextStep with
    | none => some (0, v)
    | some (m, w) => some (m, w + v)

/-- TIME_SET_OFFSET, 0x1102 O (R401). -/
def timeSetOffsetSpec : CmdSpec :=
  { opcode := 0x1102, kind := .o, layout := plain 16 [rsv 1 7], foreign := fun _ _ _ => false,
    fields := fun c s =>
      let v : Int := if c.at 0 1 = 1 then (c.at 8 8 : Int) else signed 64 (c.at 8 8)
      let after := if c.at 0 1 = 1 then v else plannedNtime s.time + v
      firstFail [(decide (c.at 0 1 ≤ 1), badField 0), (decide (0 ≤ after) && decide (after < 2 ^ 63), badField 8)],
    run := fun c s =>
      if following s then .error (failWith St.wrongState)
      else
        let v : Int := if c.at 0 1 = 1 then (c.at 8 8 : Int) else signed 64 (c.at 8 8)
        .ok { s := { s with time := { s.time with
          nextStep := addStep s.time (c.at 0 1) v, steered := true, steps := (s.time.steps + 1) % 2 ^ 16 } } } }

/-- TIME_SET_RATE, 0x1103 O (R402). -/
def timeSetRateSpec : CmdSpec :=
  { opcode := 0x1103, kind := .o, layout := plain 8 [], foreign := fun _ _ _ => false,
    fields := fun c _ =>
      let v := signed 64 (c.at 0 8)
      firstFail [(decide (-500000000 ≤ v) && decide (v ≤ 500000000), badField 0)],
    run := fun c s =>
      if following s then .error (failWith St.wrongState)
      else .ok { s := { s with time := { s.time with nextRate := some (signed 64 (c.at 0 8)), steered := true } } } }

/-- TIME_PPS_SET, 0x1104 O (R407, R408). -/
def timePpsSetSpec : CmdSpec :=
  { opcode := 0x1104, kind := .o, layout := plain 16 [rsv 3 1, rsv 12 4], foreign := fun _ _ _ => false,
    fields := fun c _ => firstFail [
      (decide (c.at 0 1 ≤ 1), badField 0), (decide (c.at 1 1 ≤ 1), badField 1), (decide (c.at 2 1 ≤ 1), badField 2),
      (decide (100 ≤ c.at 4 4) && decide (c.at 4 4 ≤ 500000000), badField 4), (decide (c.at 8 4 ≤ 999999999), badField 8)],
    run := fun c s =>
      let on := c.at 0 1 == 1
      let s' := { s with time := { s.time with
        ppsOutOn := on, ppsInOn := c.at 1 1 == 1, ppsFalling := c.at 2 1 == 1, ppsWidth := c.at 4 4,
        ppsPhase := c.at 8 4, ppsNext := edgeAfter (c.at 8 4) s.time.ntime, ppsHigh := s.time.ppsHigh && on } }
      .ok { s := s' } }

/-! ### 1PPS events (R407, R408) -/

/-- PPS_OUT_RISE: NTIME has reached an edge time that has not produced a pulse; a high output stays high. -/
def execPpsOutRise (s : State) : Host.Outcome State Fault Refusal :=
  answer s (
    let t := s.time
    if running s && t.ppsOutOn && t.ppsNext ≤ t.ntime then
      { s with time := { t with ppsHigh := true, ppsFallAt := t.uptime + t.ppsWidth, ppsNext := edgeAfter t.ppsPhase t.ntime } }
    else s)

/-- PPS_OUT_FALL: WIDTH_NS after the last edge. -/
def execPpsOutFall (s : State) : Host.Outcome State Fault Refusal :=
  answer s (if s.time.ppsHigh && s.time.ppsFallAt ≤ s.time.uptime then
    { s with time.ppsHigh := false } else s)

/-- PPS_IN: a selected edge captures NTIME and UPTIME, or is a glitch less than 1 µs after the last. -/
def execPpsIn (rising : Bool) (s : State) : Host.Outcome State Fault Refusal :=
  answer s (
    let t := s.time
    if !running s || !t.ppsInOn || rising == t.ppsFalling then s
    else if t.ppsInCount != 0 && t.uptime < t.ppsInUptime + 1000 then
      { s with time.ppsGlitch := (t.ppsGlitch + 1) % 2 ^ 32 }
    else { s with time := { t with ppsInNtime := t.ntime, ppsInUptime := t.uptime,
                                   ppsInCount := (t.ppsInCount + 1) % 2 ^ 64 } })

/-- TIME_ALIGN (R409): the follower's request with t1 goes out in the TIME class, and with the stamps of the reply NTIME is stepped, or slewed at the rate that would remove the offset by the next exchange, within ±100 ppm of the active's: 1 µs is gone within 100 ms (log entry 15). -/
def execTimeAlign (t1 t2 t3 t4 : Nat) (rate : Int) (steered : Bool) (s : State) : Host.Outcome State Fault Refusal :=
  answer s (if running s && following s then
    let off : Int := (((t2 : Int) - t1) - ((t4 : Int) - t3)) / 2
    let s := pairSend 2 [t1] s
    let t := { s.time with peerOffset := off, steered := s.time.steered || steered }
    if 1000 < off || off < -1000 then
      { s with time := { t with nextStep := addStep t 0 off, steps := (t.steps + 1) % 2 ^ 16 } }
    else { s with time := { t with nextRate := some (rate + max (-100000000) (min 100000000 (off * 1000000))) } }
  else s)

/-! ### Monitors (R410-R415) -/

/-- The 320 bytes of a monitor record (R413). -/
def monBytes (i : Nat) (m : Monitor) : List Byte :=
  leBytes 8 m.count ++ leBytes 8 m.sum ++ leBytes 4 m.min ++ leBytes 4 m.max ++ leBytes 4 m.skipped ++ leBytes 1 m.point ++
  leBytes 1 m.shift ++ leBytes 2 i ++ leBytes 4 m.matchV ++ leBytes 4 m.mask ++ leBytes 8 m.since ++ zeros 16 ++
  ((List.range 64).map (fun b => leBytes 4 (mgetD m.buckets b 0))).flatten

/-- MONITOR_GET, 0x1201 R. The default rights let every slice read it (R56), so no instance is foreign. -/
def monitorGetSpec : CmdSpec :=
  { opcode := 0x1201, kind := .r, layout := plain 2 [], resLen := fun _ _ => 320, foreign := fun _ _ _ => false,
    fields := fun c _ => firstFail [(decide (c.at 0 2 < 4096), badField 0)],
    run := fun c s => .ok { s := s, result := monBytes (c.at 0 2) (monitorOf s (c.at 0 2)), log := .silent } }

/-- MONITOR_SET, 0x1202 C (R414). -/
def monitorSetSpec : CmdSpec :=
  { opcode := 0x1202, kind := .c, layout := plain 16 [rsv 5 3], replicated := fun _ => true,
    fields := fun c _ => firstFail [
      (decide (c.at 0 2 < 4096), badField 0), (decide (c.at 2 1 < 12) && c.at 2 1 != 4, badField 2),
      (decide (c.at 3 1 ≤ 31), badField 3), (decide (c.at 4 1 ≤ 1), badField 4),
      (c.at 8 4 &&& (2 ^ 32 - 1 - c.at 12 4) == 0, badField 8)],
    objects := fun c _ => [objKey 1 (c.at 0 2) 0],
    object := fun c _ _ => c.at 0 2,
    apply := fun c s =>
      let i := c.at 0 2
      let old := monitorOf s i
      let m := { old with point := c.at 2 1, shift := c.at 3 1, matchV := c.at 8 4, mask := c.at 12 4 }
      .ok ({ s with monitors := mset s.monitors i (if c.at 4 1 = 1 || m != old then m.clear s.time.uptime else m) }, []) }

/-! ### Dump streams (R416-R418) -/

/-- The range of a dump stream with DEST 1 lies in H0 or H1 apart from the journal and the Tahr regions (R416). -/
def dumpRangeOk (s : State) (base len : Nat) : Bool :=
  (regionOf base).isSome && stackOf base == stackOf (base + len - 1) && !meetsTahr base len &&
  !overlaps base len s.journal.base (s.journal.sizeMib * 2 ^ 20)
/-- A range meets a region allocated to a table. -/
def meetsTable (s : State) (base len : Nat) : Bool :=
  s.tables.any (fun t => t.2.regions.any (fun r => overlaps base len (regionBase r) (2 ^ 20)))

/-- MONITOR_DUMP_SET, 0x1203 C (R416). -/
def monitorDumpSetSpec : CmdSpec :=
  { opcode := 0x1203, kind := .c, layout := plain 32 [rsv 3 1, rsv 24 8], replicated := fun _ => true,
    fields := fun c s =>
      let len := c.at 16 4 * dumpFrame (c.at 0 1) (c.at 20 4)
      firstFail [
      (decide (c.at 0 1 ≤ 1), badField 0), (decide (c.at 1 1 ≤ 2), badField 1),
      (decide (c.at 2 1 + c.at 0 1 ≤ 1), badField 2),
      (decide (100 ≤ c.at 4 4) && decide (c.at 4 4 ≤ 10000000), badField 4),
      (decide (1 ≤ c.at 16 4) && decide (c.at 16 4 ≤ 65536), badField 16),
      (if c.at 0 1 = 0 then c.at 20 4 == 0 else decide (c.at 20 4 < 2 ^ 22), badField 20),
      (c.at 8 8 % 4096 == 0, badField 8),
      (c.at 1 1 != 1 || dumpRangeOk s (c.at 8 8) len, badField 8),
      (c.at 1 1 != 2 || decide (c.at 8 8 + len ≤ 2 ^ 64), badField 8)],
    objects := fun c _ => [objKey 2 (c.at 0 1) 0],
    object := fun c _ _ => c.at 0 1,
    apply := fun c s =>
      let d := mgetD s.dumps (c.at 0 1) {}
      if c.at 1 1 = 1 && meetsTable s (c.at 8 8) (c.at 16 4 * dumpFrame (c.at 0 1) (c.at 20 4)) then
        .error (failWith St.wrongState)
      else .ok ({ s with dumps := mset s.dumps (c.at 0 1) { d with
        dest := c.at 1 1, clear := c.at 2 1 == 1, period := c.at 4 4, base := c.at 8 8, depth := c.at 16 4,
        sections := c.at 20 4, start := s.time.uptime, next := 0, writing := none } }, []) }

/-- One section of a counter frame (R416). -/
def sectionContent (s : State) (code : Nat) : List Byte :=
  let sh := sectionShape code
  leBytes 2 code ++ leBytes 2 sh.2 ++ leBytes 4 sh.1 ++ zeros 8 ++
  ((List.range sh.1).map (fun i => ((List.range sh.2).map (fun j => leBytes 8 (counter s code i j))).flatten)).flatten

/-- Content of a frame at its capture. -/
def frameContent (s : State) (stream sections : Nat) : List Byte :=
  if stream = 0 then ((List.range 4096).map (fun i => monBytes i (monitorOf s i))).flatten
  else ((setBits 22 sections).map (fun c => sectionContent s (c + 1))).flatten

/-- The 64-byte header of a frame (R417). -/
def frameHeader (s : State) (stream seq : Nat) (d : Dump) (len : Nat) : List Byte :=
  leBytes 4 0x44525644 ++ leBytes 1 stream ++ leBytes 1 1 ++ zeros 2 ++ leBytes 8 seq ++ leBytes 8 s.time.uptime ++
  leBytes 8 s.time.ntime ++ leBytes 4 (bootNo s) ++ leBytes 4 d.sections ++ leBytes 8 s.mgt.generation ++ leBytes 4 len ++ zeros 12

/-- Write bytes to HBM (DEST 1) or to PF0 host memory (DEST 2), which PF0 does not reach in D3hot (R366). -/
def dumpWrite (dest addr : Nat) (bs : List Byte) (s : State) : State :=
  if dest = 1 then { s with mem := Memory.writes s.mem addr bs } else if asleep s 0 then s else emit (.dma none addr bs) s

/-- The frame that a stream writes to HBM next holds a lost byte (R430). -/
def frameLost (s : State) (stream : Nat) (d : Dump) : Bool :=
  someLost s (d.base + d.next % d.depth * dumpFrame stream d.sections) (64 + dumpContent stream d.sections)

/-- DUMP_CAPTURE (R418): the frame of the period that falls due, or a period counted as MISSED. -/
def execDumpCapture (stream : Nat) (s : State) : Host.Outcome State Fault Refusal :=
  answer s (
    let d := mgetD s.dumps stream {}
    if !trafficOn s || d.dest = 0 || s.time.uptime < d.start + (d.next + 1) * d.period * 1000 then s
    else if d.writing.isSome || (d.dest == 1 && frameLost s stream d) || (d.dest == 2 && asleep s 0) then
      { s with dumps := mset s.dumps stream { d with next := d.next + 1, missed := (d.missed + 1) % 2 ^ 16 } }
    else
      let content := frameContent s stream d.sections
      let addr := d.base + d.next % d.depth * dumpFrame stream d.sections
      let h := frameHeader s stream (2 ^ 64 - 1) d (64 + content.length)
      let s' := dumpWrite d.dest (addr + 64) content (dumpWrite d.dest addr h s)
      let s' := { s' with dumps := mset s'.dumps stream { d with next := d.next + 1, writing := some d.next, header := h } }
      if d.clear && stream = 0 then
        { s' with monitors := (List.range 4096).foldl
                    (fun m i => mset m i ((monitorOf s i).clear s.time.uptime)) s'.monitors }
      else s')

/-- DUMP_FRAME_WRITTEN (R417): the header is written again with SEQ p. -/
def execDumpFrameWritten (stream : Nat) (s : State) : Host.Outcome State Fault Refusal :=
  answer s (
    let d := mgetD s.dumps stream {}
    match d.writing with
    | none => s
    | some p =>
      if !trafficOn s then s
      else
        let addr := d.base + p % d.depth * dumpFrame stream d.sections
        let s' := dumpWrite d.dest addr (d.header.take 8 ++ leBytes 8 p ++ d.header.drop 16) s
        { s' with dumps := mset s'.dumps stream { d with lastSeq := p % 2 ^ 32, writing := none, header := [] } })

/-- BRIDGE_DEPTH_SAMPLE (R411): point 10. -/
def execBridgeDepthSample (cls depth : Nat) (s : State) : Host.Outcome State Fault Refusal :=
  answer s (if trafficOn s && cls < 6 then monEvent 10 cls depth s else s)

end Sys2Proof.Machine
end

