-- ==== Sys2Proof/Machine/Buffers.lean ====
section
/-! DEFINITION. The buffer store: segments, bodies, pools, accounts, and the pause signal they give to the ports (R224-R239 08_buffer_manager, R125 04_network_ports). -/

namespace Sys2Proof.Machine

/-! ### Settings -/

/-- Pool settings after reset (R236): pool 0 open, the others admission nothing. -/
def poolReset (p : Nat) : Pool :=
  if p = 0 then { segLimit := 1047296, warn := 786432, pause := 917504, stop := 983040, hyst := 16384,
                  blockLimit := 25165824, spillSeg := 4096, refillSeg := 2048, lowMask := 0x0F }
  else {}
/-- Pool `p`. -/
def poolOf (s : State) (p : Nat) : Pool := mgetD s.buf.pools p (poolReset p)
/-- Change pool `p`. -/
def modPool (p : Nat) (f : Pool → Pool) (s : State) : State :=
  { s with buf.pools := mset s.buf.pools p (f (poolOf s p)) }
/-- Account `a` = port × 8 + class. -/
def acctOf (s : State) (a : Nat) : Account := mgetD s.buf.accounts a {}
/-- Change account `a`. -/
def modAcct (a : Nat) (f : Account → Account) (s : State) : State :=
  { s with buf.accounts := mmod s.buf.accounts a {} f }
/-- Thresholds of the accounts of a port. -/
def acctCfgOf (s : State) (port : Nat) : AcctCfg := mgetD s.buf.acctCfg port {}

/-! ### Pause frames (R125) -/

/-- A pause or PFC frame with one quanta value, padded to the minimum frame, without FCS. `prio` is none for link pause. -/
def pauseBytes (mac : Nat) (prio : Option Nat) (quanta : Nat) : List Byte :=
  let head := [0x01, 0x80, 0xC2, 0x00, 0x00, 0x01] ++ leBytes 6 mac ++ [0x88, 0x08]
  fit 60 (match prio with
    | none => head ++ [0x00, 0x01] ++ beBytes 2 quanta
    | some p => head ++ [0x01, 0x01] ++ beBytes 2 (2 ^ p) ++ zeros (2 * p) ++ beBytes 2 quanta)

/-- Send XOFF (quanta 0xFFFF) or quanta 0 for a priority, or for the link with FLOW 1; a port that is not UP sends nothing. -/
def sendPause (port : Nat) (prio : Option Nat) (quanta : Nat) (s : State) : State :=
  let p := portOf s port
  if p.link = 1 && trafficOn s then
    let s := modPort port (fun p => { p with xoffAt := if quanta = 0 then mdel p.xoffAt (prio.getD 0) else mset p.xoffAt (prio.getD 0) s.time.uptime }) s
    count 0x02 port 2 1 (emit (.pause port (withFcs (pauseBytes p.fwd.sourceMac prio quanta))) s)
  else s

/-- Accounts of a class may enter XOFF (R239): FLOW 1, or FLOW 2 with the class in PFC_MASK. -/
def xoffAllowed (p : Port) (cls : Nat) : Bool := p.fwd.flow == 1 || (p.fwd.flow == 2 && bit p.fwd.pfcMask cls)

/-- The signal of R125 after an account entered or left XOFF: TX_XOFF, and the frame where the signal changed. -/
def signalXoff (port cls : Nat) (s : State) : State :=
  let p := portOf s port
  if p.fwd.flow = 1 then
    let any := (List.range 8).any (fun c => (acctOf s (port * 8 + c)).xoff)
    if any = (p.txXoff != 0) then s
    else sendPause port none (if any then 0xFFFF else 0) (modPort port (fun p => { p with txXoff := if any then 255 else 0 }) s)
  else
    let on := (acctOf s (port * 8 + cls)).xoff
    if on = bit p.txXoff cls then s
    else sendPause port (some cls) (if on then 0xFFFF else 0)
      (modPort port (fun p => { p with txXoff := withBit p.txXoff cls on }) s)

/-- Enter or leave XOFF by the account's segments (R239). -/
def acctUpdate (a : Nat) (s : State) : State :=
  let x := acctOf s a
  let cfg := acctCfgOf s (a / 8)
  let may := xoffAllowed (portOf s (a / 8)) (a % 8)
  let on := if !may then false
    else if cfg.xoffSeg ≤ x.used then true
    else if x.xoff && x.used ≤ cfg.xonSeg && (!x.forced || !(poolOf s x.forcePool).pauseOn) then false else x.xoff
  if on = x.xoff then s
  else signalXoff (a / 8) (a % 8)
    (modAcct a (fun x => if on then { x with xoff := true } else { x with xoff := false, forced := false, forcePool := 0 }) s)

/-- Force an account into XOFF: an arrival of a low-priority class was admitted into a pool whose PAUSE is crossed (R239). -/
def acctForce (a pool : Nat) (s : State) : State :=
  if xoffAllowed (portOf s (a / 8)) (a % 8) then
    signalXoff (a / 8) (a % 8) (modAcct a (fun x => { x with xoff := true, forced := true, forcePool := pool }) s)
  else s

/-! ### Pool levels (R237) -/

/-- A level's flag after the occupancy changed: crossed above it, cleared at the level minus HYST or below. -/
def levelFlag (on : Bool) (used level hyst : Nat) : Bool :=
  if level < used then true else if used + hyst ≤ level then false else on

/-- Levels of a pool after its occupancy or settings changed. -/
def poolLevels (p : Nat) (s : State) : State :=
  let x := poolOf s p
  let warn := levelFlag x.warnOn x.used x.warn x.hyst
  let pause := levelFlag x.pauseOn x.used x.pause x.hyst
  let stop := levelFlag x.stopOn x.used x.stop x.hyst
  let s' := modPool p (fun x => { x with warnOn := warn, pauseOn := pause, stopOn := stop }) s
  let s' := if warn && !x.warnOn then count 0x09 p 1 1 s' else s'
  if x.pauseOn && !pause then
    ((s'.buf.accounts.filter (fun a => a.2.forced && a.2.forcePool == p)).map (·.1)).foldl (fun s a => acctUpdate a s) s'
  else s'

/-- Charge or return segments of a pool and an account. -/
def charge (pool : Nat) (acct : Option Nat) (n : Nat) (s : State) : State :=
  let s := poolLevels pool (modPool pool (fun x => { x with used := x.used + n }) s)
  match acct with
  | some a => acctUpdate a (modAcct a (fun x => { x with used := x.used + n }) s)
  | none => s
/-- Return a charge. -/
def uncharge (pool : Nat) (acct : Option Nat) (n : Nat) (s : State) : State :=
  let s := poolLevels pool (modPool pool (fun x => { x with used := x.used - n }) s)
  match acct with
  | some a => acctUpdate a (modAcct a (fun x => { x with used := x.used - n }) s)
  | none => s

/-! ### The free store (R224, R229, R230) -/

/-- Segments of a packet of L frame octets (R224). -/
def segsFor (l : Nat) : Nat := 1 + ceilDiv (l - 128) 256

/-- Segments that heads and bodies hold. -/
def heldSegs (s : State) : List Nat := s.buf.heads.map (·.1) ++ (s.buf.bodies.map (fun b => b.2.segs)).flatten
/-- Held segments of a bank. -/
def bankHeld (s : State) (b : Nat) : Nat := ((heldSegs s).filter (fun g => g % 64 == b)).length
/-- A bank is fenced. -/
def bankFenced (s : State) (b : Nat) : Bool := isFenced s (resId 0x0E b)
/-- Free segments, reserves included, outside fenced banks. -/
def freeSegs (s : State) : Nat :=
  ((List.range 64).map (fun b => if bankFenced s b then 0 else 16384 - bankHeld s b)).foldl (· + ·) 0
/-- Reserve of an agent (R229). -/
def reserveOf (s : State) (agent : Nat) : Nat := mgetD s.buf.reserves agent 64
/-- All reserves. -/
def reserveSum (s : State) : Nat := ((List.range 20).map (reserveOf s)).foldl (· + ·) 0
/-- Segments of the shared store. -/
def sharedSegs (s : State) : Nat := freeSegs s - reserveSum s

/-- The k-th free index of a bank given its held indices in ascending order. -/
def kthFree : List Nat → Nat → Nat
  | [], k => k
  | h :: hs, k => if h ≤ k then kthFree hs (k + 1) else k

/-- Insert into an ascending list. -/
def insertAsc (x : Nat) : List Nat → List Nat
  | [] => [x]
  | y :: ys => if x ≤ y then x :: y :: ys else y :: insertAsc x ys
/-- Sort ascending. -/
def sortAsc : List Nat → List Nat
  | [] => []
  | x :: xs => insertAsc x (sortAsc xs)

/-- Take `n` segments from the banks in rotation; which free segment of a bank is a free value (log entry 1). -/
def takeSegs : Nat → List Nat → State → List Nat × State
  | 0, acc, s => (acc.reverse, s)
  | n + 1, acc, s =>
    let held := heldSegs s ++ acc
    let ok := fun b => !bankFenced s b && decide ((held.filter (fun g => g % 64 == b)).length < 16384)
    match ((List.range 64).map (fun i => (s.buf.rotor + i) % 64)).find? ok with
    | none => (acc.reverse, s)
    | some b =>
      let mine := sortAsc ((held.filter (fun g => g % 64 == b)).map (· / 64))
      let r := drawBelow (16384 - mine.length) s
      takeSegs n ((kthFree mine r.1 * 64 + b) :: acc) { r.2 with buf.rotor := (b + 1) % 64 }

/-- An agent's reserve with `n` segments; one of 64 is not listed. -/
def setReserve (a n : Nat) (s : State) : State :=
  { s with buf.reserves := if n = 64 then mdel s.buf.reserves a else mset s.buf.reserves a n }
/-- One clock of the allocator: every reserve below 64 takes a segment while the shared store is not empty (R229). -/
def refillReserves (s : State) : State :=
  (List.range 20).foldl (fun s a => if reserveOf s a < 64 && 0 < sharedSegs s then setReserve a (reserveOf s a + 1) s else s) s

/-- Of the `left` free segments of a bank that is fenced, those that stand in reserves: which do is a free value (log entry 1). -/
def reserveLoss : List Nat → Nat → State → State
  | [], _, s => s
  | a :: rest, left, s =>
    let r := drawBelow (min (reserveOf s a) left + 1) s
    reserveLoss rest (left - r.1) (setReserve a (reserveOf s a - r.1) r.2)
/-- The free segments of a fenced bank leave the store, those of the reserves too (R245, R247): what is free then holds all that the reserves keep. -/
def loseReserves (bank : Nat) (s : State) : State :=
  (List.range 20).foldl (fun s a => setReserve a (reserveOf s a - min (reserveOf s a) (reserveSum s - freeSegs s)) s)
    (reserveLoss (List.range 20) (16384 - bankHeld s bank) s)

/-- Take `n` segments for an agent: from the shared store, which first fills the reserves (R229), then from its reserve; none where both are short, which counts EMPTY and NO_BUFFER (R230). -/
def allocSegs (agent n : Nat) (s : State) : Option (List Nat) × State :=
  let s := if s.buf.reserves.isEmpty then s else (List.range 64).foldl (fun s _ => refillReserves s) s
  let shared := sharedSegs s
  if n ≤ min (freeSegs s) (shared + reserveOf s agent) then
    let own := n - min n shared
    let s := if own = 0 then s else setReserve agent (reserveOf s agent - own) s
    let r := takeSegs n [] s
    (some r.1, r.2)
  else (none, count 0x0A agent 0 1 (count 0x0A agent 1 1 s))

/-- Next SEQ of a segment taken as a head (R225). -/
def nextSeq (s : State) (seg : Nat) : Nat := (mgetD s.buf.seqs seg 0 + 1) % 256

/-- Put a head on a segment: SEQ advanced. -/
def putHead (seg : Nat) (h : Head) (s : State) : State :=
  let q := nextSeq s seg
  { s with buf.heads := mset s.buf.heads seg { h with seq := q }, buf.seqs := mset s.buf.seqs seg q }

/-- Allocate a packet buffer (R231): head and body taken, OWNER the agent, COUNT 1, pool and account charged. -/
def allocPkt (agent : Nat) (h : Head) (s : State) : Option Nat × State :=
  let n := segsFor h.frame.length
  match allocSegs agent n s with
  | (some (seg :: body), s) =>
    let b := body.head?
    let s := putHead seg { h with owner := agent, body := b } s
    let s := match b with
      | some f =>
        let body' : Body := { segs := body, octets := h.frame.length - 128, count := 1, owner := agent, pool := h.pool, account := h.account }
        { s with buf.bodies := mset s.buf.bodies f body' }
      | none => s
    (some seg, charge h.pool h.account n s)
  | (_, s) => (none, s)

/-- Share a packet's body with a new head (R231); the refusal of R232 above 4,095 is the caller's COPY_LIMIT. -/
def sharePkt (agent orig : Nat) (h : Head) (s : State) : Option Nat × State :=
  match allocSegs agent 1 s with
  | (some (seg :: _), s) =>
    let b := (mgetD s.buf.heads orig {}).body
    let s := match b with
      | some f => { s with buf.bodies := mmod s.buf.bodies f {} (fun x => { x with count := x.count + 1 }) }
      | none => s
    let s := putHead seg { h with owner := agent, body := b } s
    (some seg, charge h.pool h.account 1 s)
  | (_, s) => (none, s)

/-- The body of a packet has room for one more head (R232). -/
def mayShare (s : State) (orig : Nat) : Bool :=
  match (mgetD s.buf.heads orig {}).body with
  | some f => (mgetD s.buf.bodies f {}).count < 4095
  | none => true

/-- Free a head, its share of the body, and the body at COUNT 0 (R231). -/
def freePkt (seg : Nat) (s : State) : State :=
  match mget s.buf.heads seg with
  | none => s
  | some h =>
    let s := uncharge h.pool h.account 1 { s with buf.heads := mdel s.buf.heads seg }
    match h.body with
    | none => s
    | some f =>
      let b := mgetD s.buf.bodies f {}
      if b.count ≤ 1 then uncharge b.pool b.account b.segs.length { s with buf.bodies := mdel s.buf.bodies f }
      else { s with buf.bodies := mset s.buf.bodies f { b with count := b.count - 1 } }

/-- Change a held head. -/
def modHead (seg : Nat) (f : Head → Head) (s : State) : State :=
  match mget s.buf.heads seg with
  | some h => { s with buf.heads := mset s.buf.heads seg (f h) }
  | none => s

/-- Move the charge of a packet to another pool: its head, and its body where no copy shares it (R228; DEDUCED, log entry 16). -/
def recharge (seg pool : Nat) (s : State) : State :=
  match mget s.buf.heads seg with
  | none => s
  | some h =>
    if h.pool = pool then s
    else
      let s := modHead seg (fun h => { h with pool := pool }) (charge pool none 1 (uncharge h.pool none 1 s))
      match h.body with
      | none => s
      | some f =>
        let b := mgetD s.buf.bodies f {}
        if b.count = 1 then
          charge pool none b.segs.length (uncharge b.pool none b.segs.length
            { s with buf.bodies := mset s.buf.bodies f { b with pool := pool } })
        else s

/-- Segments of a packet as its queue counts them: head and body of its frame (R224). -/
def pktSegs (s : State) (seg : Nat) : Nat := segsFor (mgetD s.buf.heads seg {}).frame.length

/-- A segment of the packet lies in a fenced bank (R245). -/
def inFencedBank (s : State) (seg : Nat) : Bool :=
  bankFenced s (seg % 64) ||
  (match (mgetD s.buf.heads seg {}).body with
   | some f => (mgetD s.buf.bodies f {}).segs.any (fun g => bankFenced s (g % 64))
   | none => false)

/-- The bits of a free segment's descriptor that are open: NEXT, since the order of a free list is (log entry 1), and the fields of a held one, but not FREE, HEAD, COUNT and RSVD (R225). -/
def openDescriptor : Nat := 2 ^ 34 - 1 + (2 ^ 14 - 1) * 2 ^ 48
/-- The descriptor of a segment (R225), with the bits of it that are open: none of a held segment; a free one has FREE 1. -/
def segDescriptor (s : State) (g : Nat) : Nat × Nat :=
  let chain := fun (segs : List Nat) => (segs.dropWhile (· != g)).getD 1 0 + b2n (segs.getLast? == some g) * 2 ^ 20
  match mget s.buf.heads g with
  | some h => (h.body.getD 0 + b2n h.body.isNone * 2 ^ 20 + (127 + min 128 h.recLen) * 2 ^ 21 + h.owner * 2 ^ 29 +
      2 ^ 35 + h.pool * 2 ^ 48 + h.seq * 2 ^ 54, 0)
  | none =>
    match s.buf.bodies.find? (fun b => b.2.segs.contains g) with
    | some (f, b) =>
      let i := b.segs.findIdx (· == g)
      (chain b.segs + (min 256 (b.octets - i * 256) - 1) * 2 ^ 21 + b.owner * 2 ^ 29 + (if g = f then b.count else 0) * 2 ^ 36 +
        b.pool * 2 ^ 48, 0)
    | none => (2 ^ 34, openDescriptor)

/-- Handle of a head segment: index and SEQ (R225). -/
def handleOf (s : State) (seg : Nat) : Nat := seg + (mgetD s.buf.heads seg {}).seq * 2 ^ 20

/-! ### Admission (R238) -/

/-- The answer of the admission tests: admitted, or the drop's name. -/
inductive Admission where
  | ok | poolStop | headroom
deriving DecidableEq, Repr

/-- Tests 1 to 3 of R238 for a packet of `n` segments; packets without an account pass tests 1 and 3. -/
def admission (pool : Nat) (acct : Option Nat) (n : Nat) (s : State) : Admission :=
  let p := poolOf s pool
  let xoff := match acct with | some a => (acctOf s a).xoff | none => false
  if p.segLimit < p.used + n then .poolStop
  else if xoff && (match acct with
      | some a => decide ((acctCfgOf s (a / 8)).xoffSeg + (acctCfgOf s (a / 8)).headroom < (acctOf s a).used + n)
      | none => false) then .headroom
  else if !xoff && p.stop < p.used + n then .poolStop
  else .ok

/-- Count a refused admission against its pool or account. -/
def admitDrop (r : Admission) (pool : Nat) (acct : Option Nat) (s : State) : State :=
  match r with
  | .poolStop => count 0x09 pool 0 1 s
  | .headroom => count 0x0B (acct.getD 0) 0 1 s
  | .ok => s

/-- RESERVE_REFILL (R229): each clock the allocator refills every reserve below 64 by one segment while the shared store is not empty. -/
def execReserveRefill (s : State) : Host.Outcome State Fault Refusal :=
  answer s (if trafficOn s then refillReserves s else s)

/-! ### Status words -/

/-- BUF_SEG_STATUS. -/
def segStatusWord (s : State) : Nat :=
  let fb := ((List.range 64).filter (bankFenced s)).length
  let held := ((heldSegs s).filter (fun g => !bankFenced s (g % 64))).length
  freeSegs s + held * 2 ^ 21 + fb * 2 ^ 42
/-- Fenced pseudo-channels of H2-H5. -/
def fencedSpillPcs (s : State) : Nat := ((List.range 128).filter (fun p => isFenced s (resId 0x0D (64 + p)))).length
/-- BUF_BLK_STATUS. -/
def blkStatusWord (s : State) : Nat :=
  let held := s.buf.blocks.length
  (25165824 - held - 196608 * fencedSpillPcs s) + held * 2 ^ 25 + fencedSpillPcs s * 2 ^ 50
/-- BUF_POOL_STATUS. -/
def poolStatusWord (s : State) (p : Nat) : Nat :=
  let x := poolOf s p
  x.used + b2n x.warnOn * 2 ^ 21 + b2n x.pauseOn * 2 ^ 22 + b2n x.stopOn * 2 ^ 23 +
  b2n (decide (x.segLimit < x.used)) * 2 ^ 24 + x.blocks * 2 ^ 32
/-- BUF_POOL_DROPS. -/
def poolDropsWord (s : State) (p : Nat) : Nat :=
  counter s 0x09 p 0 % 2 ^ 32 + counter s 0x09 p 1 % 2 ^ 16 * 2 ^ 32
/-- BUF_AGENT_STATUS. -/
def agentStatusWord (s : State) (a : Nat) : Nat :=
  reserveOf s a + counter s 0x0A a 3 % 2 ^ 16 * 2 ^ 16 + counter s 0x0A a 2 % 2 ^ 16 * 2 ^ 32 +
  counter s 0x0A a 1 % 2 ^ 16 * 2 ^ 48
/-- BUF_BANK_STATUS. -/
def bankStatusWord (s : State) (b : Nat) : Nat := bankHeld s b + b2n (bankFenced s b) * 2 ^ 15
/-- BUF_ACCOUNT_STATUS. -/
def acctStatusWord (s : State) (a : Nat) : Nat :=
  let x := acctOf s a
  x.used + b2n x.xoff * 2 ^ 21 + b2n x.forced * 2 ^ 22 + x.forcePool * 2 ^ 23 + counter s 0x0B a 0 % 2 ^ 32 * 2 ^ 32

end Sys2Proof.Machine
end

