-- ==== Sys2Proof/Machine/Gates.lean ====
section
/-! DEFINITION. Gate lists: the position in a cycle, the gate test and what can never pass (R273-R277 09_queues_and_scheduling). -/

namespace Sys2Proof.Machine

/-- Port speed in Gb/s of a SPEED code (R100). -/
def speedGbps (code : Nat) : Nat := [10, 25, 50, 100, 200, 400, 800, 1600].getD code 0
/-- Speed of a port in Gb/s, 0 where no physical section is committed. -/
def portGbps (s : State) (p : Nat) : Nat := match (portOf s p).phys with | some f => speedGbps f.speed | none => 0

/-- The entries reached in a cycle as (states, duration): the last one holds to the end of the cycle, or the cycle cuts it off (R273). -/
def gateSegs : Nat → List (Nat × Nat) → List (Nat × Nat)
  | _, [] => []
  | left, [(st, _)] => if left = 0 then [] else [(st, left)]
  | left, (st, d) :: rest =>
    if left = 0 then [] else if left ≤ d then [(st, left)] else (st, d) :: gateSegs (left - d) rest

/-- Position in the cycle at an NTIME (R275), a floored modulus. -/
def gatePos (l : GateList) (ntime : Nat) : Nat := (((ntime : Int) - l.start) % (l.cycle : Int)).toNat

/-- Entry index, the rest of its duration and the entries after it, at a position. -/
def gateAt : Nat → Nat → List (Nat × Nat) → Nat × List (Nat × Nat)
  | i, _, [] => (i, [])
  | i, pos, (st, d) :: rest => if pos < d then (i, (st, d - pos) :: rest) else gateAt (i + 1) (pos - d) rest

/-- Time for which gate `q` stays open over these entries; none where it is open in all of them. -/
def openFor (q : Nat) : List (Nat × Nat) → Option Nat
  | [] => none
  | (st, d) :: rest => if bit st q then (openFor q rest).map (· + d) else some 0

/-- Longest open window of gate `q` over these entries, given the run that leads into them. -/
def longestOpen (q : Nat) : Nat → List (Nat × Nat) → Nat
  | run, [] => run
  | run, (st, d) :: rest => if bit st q then longestOpen q (run + d) rest else max run (longestOpen q 0 rest)

/-- Gates of a port. -/
def gateOf (s : State) (p : Nat) : Gate := mgetD s.sched.gates p {}
/-- Change the gates of a port. -/
def modGate (p : Nat) (f : Gate → Gate) (s : State) : State := { s with sched.gates := mmod s.sched.gates p {} f }

/-- A frame of `len` octets takes no longer than `t` ns at `gbps` (R276). -/
def fitsIn (len adj gbps t : Nat) : Bool := decide ((len + adj) * 8 ≤ t * gbps)

/-- The gate test of R276. -/
def gateTest (s : State) (port q len : Nat) : Bool :=
  let g := gateOf s port
  match g.oper with
  | none => bit g.states q
  | some l =>
    let segs := gateSegs l.cycle l.entries
    match openFor q ((gateAt 0 (gatePos l s.time.ntime) segs).2 ++ segs) with
    | none => true
    | some t => t != 0 && fitsIn len g.fitAdj (portGbps s port) t

/-- A frame can never pass its gate in the operational list (R277). -/
def gateTooLong (s : State) (port q len : Nat) : Bool :=
  let g := gateOf s port
  match g.oper with
  | none => false
  | some l =>
    let segs := gateSegs l.cycle l.entries
    if segs.all (fun e => bit e.1 q) then false
    else !fitsIn len g.fitAdj (portGbps s port) (longestOpen q 0 (segs ++ segs))

/-- The entry and states in force at the present NTIME. -/
def gateNow (s : State) (g : Gate) : Gate :=
  match g.oper with
  | none => g
  | some l =>
    let r := gateAt 0 (gatePos l s.time.ntime) (gateSegs l.cycle l.entries)
    match r.2 with
    | [] => g
    | (st, _) :: _ => { g with states := st, index := r.1 }

/-- GATE_ADVANCE (R273): the gate engine follows NTIME. -/
def execGateAdvance (port : Nat) (s : State) : Host.Outcome State Fault Refusal :=
  answer s (if running s && (gateOf s port).oper.isSome then modGate port (gateNow s) s else s)

/-- Start time T of a list (R274). -/
def gateStart (base cycle now : Nat) : Nat :=
  if now + 16 ≤ base then base else base + ceilDiv (now + 16 - base) cycle * cycle

end Sys2Proof.Machine
end

