-- ==== Sys2Proof/Machine/Queues.lean ====
section
/-! DEFINITION. Queues: bindings, parts, depth, requests and credit, flushes, age, and the spill of tails to HBM (R240-R246 08_buffer_manager, R250-R254, R264-R268, R272 09_queues_and_scheduling, R292-R296 10_fabric_interface). -/

namespace Sys2Proof.Machine

/-! ### Queues and bindings -/

/-- A queue by number. -/
def queueOf (s : State) (q : QId) : Queue := mgetD (if q.egress then s.sched.eqs else s.sched.voqs) q.num {}
/-- Change a queue. -/
def modQueue (q : QId) (f : Queue → Queue) (s : State) : State :=
  if q.egress then { s with sched.eqs := mmod s.sched.eqs q.num {} f }
  else { s with sched.voqs := mmod s.sched.voqs q.num {} f }
/-- Settings of a queue after reset (R258). -/
def qcfgReset (q : QId) : QCfg :=
  { band := q.num % 8, profile := 0, weight := 1, pool := 0,
    parent := if q.egress then (if q.num / 8 ≤ 191 then 9 + q.num / 8 else 201) else 1 + q.num / 131072 }
/-- Settings of a queue. -/
def qcfgOf (s : State) (q : QId) : QCfg := (queueOf s q).cfg.getD (qcfgReset q)
/-- Queue profile (R265). -/
def profileOf (s : State) (p : Nat) : Profile := mgetD s.sched.profiles p {}
/-- Largest queue age limit in force on any queue, profile 0 of every queue that is not set among them (R84, R258). -/
def maxAgeLimit (s : State) : Nat :=
  let used := s.sched.voqs.map (fun e => (qcfgOf s ⟨false, e.1⟩).profile) ++ s.sched.eqs.map (fun e => (qcfgOf s ⟨true, e.1⟩).profile)
  (0 :: used).foldl (fun a p => max a ((profileOf s p).ageUs * 1000)) 0
/-- AGE_LIMIT of a queue in ns. -/
def ageLimit (s : State) (q : QId) : Nat := (profileOf s (qcfgOf s q).profile).ageUs * 1000

/-- VOQ group binding after reset (R254). -/
def voqBindReset (g : Nat) : Bind :=
  if g % 16384 < 24 then { kind := 1, device := 0, target := g % 16384 * 8 + g / 16384, mapped := true } else {}
/-- Binding of a VOQ group. -/
def voqBindOf (s : State) (g : Nat) : Bind := mgetD s.sched.voqBind g (voqBindReset g)
/-- Egress group binding after reset (R254). -/
def eqBindReset (g : Nat) : Bind := if g < 192 then { kind := 1, target := g, mapped := true } else {}
/-- Binding of an egress queue group. -/
def eqBindOf (s : State) (g : Nat) : Bind := mgetD s.sched.eqBind g (eqBindReset g)

/-- Key of a destination: kind 1 port of a device, 2 slice, 3 port of the peer. -/
def destKey (kind device target : Nat) : Nat :=
  if kind = 1 then device * 256 + target else if kind = 2 then 2 ^ 20 + target else 2 ^ 21 + target
/-- Destination map entry (R251). -/
def destGroup (s : State) (kind device target : Nat) : Option Nat :=
  let k := destKey kind device target
  let d := if kind = 1 && device = 0 && target < 192 then target % 8 * 16384 + target / 8 + 1 else 0
  match mgetD s.sched.destMap k d with | 0 => none | g + 1 => some g
/-- Arrival group of a target (R252). -/
def arrivalGroup (s : State) (kind target : Nat) : Option Nat :=
  let d := if kind = 1 && target < 192 then target + 1 else 0
  match mgetD s.sched.arrival (destKey kind 0 target) d with | 0 => none | g + 1 => some g

/-- Credit target of a binding: the port, host DMA 192, the pair link 193. -/
def creditTarget (b : Bind) : Nat := if b.kind = 1 then b.target else if b.kind = 2 then 192 else 193
/-- The destination lies on this device: slices, the pair link, and every destination in fabric-less mode. -/
def destLocal (s : State) (b : Bind) : Bool := b.kind != 1 || !s.fabric.connected || b.device == s.fabric.device

/-- Egress queue of a target for an offset. -/
def arrivalQueue (s : State) (kind target offset : Nat) : Option Nat :=
  (arrivalGroup s kind target).map (fun g => g * 8 + offset)

/-- A queue's packets on die, first first. -/
def onDie (q : Queue) : List Nat := q.head ++ q.tail
/-- The queue holds no packet in any part. -/
def qEmpty (q : Queue) : Bool := q.head.isEmpty && q.tail.isEmpty && q.spill.isEmpty
/-- FRAME_LEN of a held packet. -/
def frameLen (s : State) (h : Nat) : Nat := (mgetD s.buf.heads h {}).recLen

/-! ### Credit (R272, R292-R296) -/

/-- Credit target settings. -/
def targetOf (s : State) (t : Nat) : Target := mgetD s.sched.targets t {}
/-- Change a credit target. -/
def modTarget (t : Nat) (f : Target → Target) (s : State) : State :=
  { s with sched.targets := mmod s.sched.targets t {} f }
/-- A fabric peer. -/
def peerOf (s : State) (d : Nat) : Peer := mgetD s.fabric.peers d {}
/-- Change a fabric peer. -/
def modPeer (d : Nat) (f : Peer → Peer) (s : State) : State := { s with fabric.peers := mmod s.fabric.peers d {} f }

/-- A credit message of R292. -/
def creditWord (msg voq target offset value : Nat) : Nat :=
  msg * 2 ^ 60 + voq * 2 ^ 40 + target * 2 ^ 32 + offset * 2 ^ 29 + value % 2 ^ 29
/-- Put a credit message in front of a device. -/
def sendCredit (device word : Nat) (s : State) : State :=
  modPeer device (fun p => { p with msgs := p.msgs ++ [(word, s.time.uptime)] }) s
/-- Books of a (target, device) pair: issued, consumed, returned (R301), with the counters of section 0x10. -/
def book (t device pos n : Nat) (s : State) : State :=
  count 0x10 t pos n (modTarget t (fun x =>
    let b := mgetD x.books device (0, 0, 0)
    let b' := if pos = 0 then (b.1 + n, b.2.1, b.2.2) else if pos = 1 then (b.1, b.2.1 + n, b.2.2) else (b.1, b.2.1, b.2.2 + n)
    { x with books := mset x.books device b' }) s)
/-- All request table entries (R293). -/
def requestCount (s : State) : Nat := s.sched.targets.foldl (fun a t => a + t.2.requests.length) 0
/-- Add a request, or keep it; a full table counts REQ_OVERFLOW (R293). -/
def addRequest (t device voq offset : Nat) (s : State) : State :=
  if (targetOf s t).requests.contains (device, voq, offset) then s
  else if 262144 ≤ requestCount s then count 0x0E 0 5 1 s
  else modTarget t (fun x => { x with requests := x.requests ++ [(device, voq, offset)] }) s
/-- Remove a request. -/
def dropRequest (t device voq offset : Nat) (s : State) : State :=
  modTarget t (fun x => { x with requests := x.requests.filter (· != (device, voq, offset)) }) s

/-- Return the positive balance of a VOQ that emptied (R296). -/
def returnCredit (v : Nat) (s : State) : State :=
  let q := queueOf s ⟨false, v⟩
  let b := voqBindOf s (v / 8)
  if q.credit ≤ 0 then s
  else
    let n := q.credit.toNat
    let s := modQueue ⟨false, v⟩ (fun q => { q with credit := 0 }) s
    if b.kind = 0 then s
    else if destLocal s b then book (creditTarget b) s.fabric.device 2 n s
    else
      let s := sendCredit b.device (creditWord 4 v b.target (v % 8) n) s
      modPeer b.device (fun p =>
        let a := mgetD p.audit b.target (0, 0, false)
        { p with audit := mset p.audit b.target (a.1, (a.2.1 + n) % 2 ^ 29, true) }) s

/-- A VOQ is requesting while it holds a packet and its balance is below its depth (R293). -/
def wantsCredit (s : State) (v : Nat) : Bool :=
  let q := queueOf s ⟨false, v⟩
  !qEmpty q && decide (q.credit < (q.depth : Int)) && (voqBindOf s (v / 8)).kind != 0

/-- After a VOQ changed: an empty VOQ returns its balance, and REQUEST_ON or REQUEST_OFF follows (R293, R296). -/
def voqSettle (v : Nat) (s : State) : State :=
  let s := if qEmpty (queueOf s ⟨false, v⟩) then returnCredit v s else s
  let b := voqBindOf s (v / 8)
  let want := wantsCredit s v
  if want = (queueOf s ⟨false, v⟩).requesting then s
  else
    let s := modQueue ⟨false, v⟩ (fun q => { q with requesting := want, reqSince := if want then s.time.uptime + 1 else 0 }) s
    if b.kind = 0 then s
    else if destLocal s b then
      (if want then addRequest else dropRequest) (creditTarget b) s.fabric.device v (v % 8) s
    else sendCredit b.device (creditWord (if want then 1 else 2) v b.target (v % 8) 0) s

/-! ### Enqueue and removal -/

/-- Segments of the head part. -/
def headSegs (s : State) (q : Queue) : Nat := q.head.foldl (fun a h => a + pktSegs s h) 0
/-- Segments of the tail part. -/
def tailSegs (s : State) (q : Queue) : Nat := q.tail.foldl (fun a h => a + pktSegs s h) 0

/-- Every stack of H2-H5 is unavailable (R246). -/
def spillGone (s : State) : Bool :=
  (List.range 4).all (fun n => !(mgetD s.hbm (2 + n) {}).ready || (List.range 32).all (fun p => isFenced s (resId 0x0D (64 + n * 32 + p))))
/-- BLOCK_LIMIT of a pool, 0 while every stack is unavailable (R246). -/
def blockLimitOf (s : State) (pool : Nat) : Nat := if spillGone s then 0 else (poolOf s pool).blockLimit
/-- Packing is stopped for the queues of a pool: it never spills, or its blocks have reached the limit (R240, R241). -/
def packingStopped (s : State) (pool : Nat) : Bool :=
  (poolOf s pool).spillSeg == 0 || decide (blockLimitOf s pool ≤ (poolOf s pool).blocks)

/-- The tail part joins the head part: the spilled part is empty and no packing is in progress (R241). -/
def joinTail (q : QId) (s : State) : State :=
  let x := queueOf s q
  if x.spill.isEmpty && !x.tail.isEmpty && x.packed = 0 then
    modQueue q (fun x => { x with head := x.head ++ x.tail, tail := [] }) s else s
/-- A tail part that opened and cannot be packed joins the head part where that is empty, or where the pool has SPILL_SEG 0 (R240, R241; DEDUCED, log entry 95). -/
def joinIdle (q : QId) (s : State) : State :=
  let x := queueOf s q
  let pool := (qcfgOf s q).pool
  if !x.tail.isEmpty && ((poolOf s pool).spillSeg == 0 || (x.head.isEmpty && packingStopped s pool)) then joinTail q s else s

/-- Take the first packet out of the head part; its buffer stays held. -/
def popHead (q : QId) (s : State) : State :=
  match (queueOf s q).head with
  | [] => s
  | h :: _ => joinIdle q (modQueue q (fun x => { x with head := x.head.drop 1, depth := x.depth - frameLen s h }) s)

/-- Element of a queue's counters: section 0x0C for VOQs, 0x0D for egress queues. -/
def qSection (q : QId) : Nat := if q.egress then 0x0D else 0x0C

/-- Free a held packet and count it. -/
def dropPkt (h sec elem pos : Nat) (s : State) : State := count sec elem pos 1 (freePkt h s)

/-- A packet met in a fenced bank is dropped as BANK_FENCED of the pool it is charged to (R245). -/
def bankDrop (seg : Nat) (s : State) : State := dropPkt seg 0x09 (mgetD s.buf.heads seg {}).pool 2 s

/-- Heads of an egress queue that can never pass their gate are dropped and counted on the port. -/
def dropTooLong (e : Nat) : Nat → State → State
  | 0, s => s
  | k + 1, s =>
    let b := eqBindOf s (e / 8)
    match (queueOf s ⟨true, e⟩).head with
    | [] => s
    | h :: _ =>
      if b.kind = 1 && gateTooLong s b.target (e % 8) (frameLen s h) then
        dropTooLong e k (dropPkt h 0x02 b.target 7 (popHead ⟨true, e⟩ s))
      else s

/-- Sum of the depths of a target's egress queues (R270). -/
def targetDepth (s : State) (t : Nat) : Nat :=
  s.sched.eqs.foldl (fun a e =>
    let b := eqBindOf s (e.1 / 8)
    if (if t < 192 then b.kind == 1 && b.target == t else if t = 192 then b.kind == 2 else b.kind == 3) then a + e.2.depth else a) 0

/-- Depth rule of R270 with its hysteresis. -/
def depthRule (t : Nat) (s : State) : State :=
  let x := targetOf s t
  let d := targetDepth s t
  let stop := if x.stopKib * 1024 ≤ d then true else if d ≤ x.resumeKib * 1024 then false else x.stopped
  if stop = x.stopped then s else modTarget t (fun x => { x with stopped := stop }) s

/-- Settle a queue after a change: a VOQ keeps its request; an egress queue drops head frames that can never pass their gate as they reach the head, and its credit target follows the depth rule (R270, R277, R293). -/
def qSettle (q : QId) (s : State) : State :=
  if q.egress then
    let s := dropTooLong q.num (onDie (queueOf s q)).length s
    let b := eqBindOf s (q.num / 8)
    if b.kind = 0 then s else depthRule (creditTarget b) s
  else voqSettle q.num s

/-- Add a held packet at the back of a queue (R240, R241): the head part, or the tail part once it is open. -/
def pushQueue (q : QId) (h : Nat) (s : State) : State :=
  let s := joinIdle q s
  let x := queueOf s q
  let p := poolOf s (qcfgOf s q).pool
  let tail := !x.spill.isEmpty || !x.tail.isEmpty ||
    (p.spillSeg != 0 && decide (p.spillSeg < headSegs s x + pktSegs s h))
  let len := frameLen s h
  let s := modHead h (fun y => { y with enq := s.time.uptime, voqAt := if q.egress then y.voqAt else some s.time.uptime }) s
  qSettle q (modQueue q (fun x => { x with
    head := if tail then x.head else x.head ++ [h], tail := if tail then x.tail ++ [h] else x.tail,
    depth := x.depth + len }) s)

/-- Free the blocks of a queue's spilled part; segments whose write is not complete are freed with it (R244). -/
def dropSpill (q : QId) (s : State) : State :=
  let x := queueOf s q
  let s := x.spill.foldl (fun s b =>
    let k := mgetD s.buf.blocks b {}
    let s := k.freeing.foldl (fun s h => freePkt h s) s
    modPool k.pool (fun p => { p with blocks := p.blocks - 1 }) { s with buf.blocks := mdel s.buf.blocks b }) s
  modQueue q (fun x => { x with spill := [], spilled := 0, packed := 0 }) s

/-- Flush a queue (R121, R244): every part is freed and each packet counted at the named counter. -/
def flushQueue (q : QId) (sec elem pos : Nat) (s : State) : State :=
  let x := queueOf s q
  if qEmpty x then s
  else
    let s := count sec elem pos x.spilled s
    let s := dropSpill q s
    let s := (onDie x).foldl (fun s h => dropPkt h sec elem pos s) s
    qSettle q (modQueue q (fun x => { x with head := [], tail := [], depth := 0 }) s)

/-- Flush the eight queues of a group. -/
def flushGroup (egress : Bool) (g : Nat) (counterOf : Nat → Nat × Nat × Nat) (s : State) : State :=
  (List.range 8).foldl (fun s i =>
    let c := counterOf (g * 8 + i)
    flushQueue ⟨egress, g * 8 + i⟩ c.1 c.2.1 c.2.2 s) s

/-- Egress queue groups that hold packets and are bound to a target. -/
def eqGroupsOf (s : State) (kind target : Nat) : List Nat :=
  ((s.sched.eqs.map (fun e => e.1 / 8)).eraseDups).filter (fun g =>
    (eqBindOf s g).kind == kind && (eqBindOf s g).target == target)
/-- VOQ groups that hold queues with state and are bound to a destination. -/
def voqGroupsOf (s : State) (kind device target : Nat) : List Nat :=
  ((s.sched.voqs.map (fun e => e.1 / 8)).eraseDups).filter (fun g =>
    let b := voqBindOf s g
    b.kind == kind && b.target == target && (kind != 1 || !s.fabric.connected || b.device == device))

/-- Flush every egress queue of a local port, counting each frame on the port: HOLD_FLUSH 4, ADMIN_FLUSH 5. -/
def flushPortQueues (port pos : Nat) (s : State) : State :=
  (eqGroupsOf s 1 port).foldl (fun s g => flushGroup true g (fun _ => (0x02, port, pos)) s) s
/-- Flush the VOQs bound for a destination, each packet counted as DEST_DOWN of its VOQ. -/
def flushDestVoqs (kind device target : Nat) (s : State) : State :=
  (voqGroupsOf s kind device target).foldl (fun s g => flushGroup false g (fun v => (0x0C, v, 6)) s) s

/-! ### Drop curve and age (R264, R266-R268) -/

/-- Curve of a colour: 0 green, 1 yellow, 2 and 3 red. -/
def curveOf (p : Profile) (colour : Nat) : Curve :=
  if colour = 0 then p.green else if colour = 1 then p.yellow else p.red

/-- The average after an arrival: avg + (depth − avg) ÷ 2^W in whole octets, rounded down (DESIGN CHOICE, log entry 17). -/
def newAverage (avg depth w : Nat) : Nat := ((avg : Int) + ((depth : Int) - avg) / 2 ^ w).toNat

/-- Whether a curve drops at an average and a 16-bit draw: the probability of R264 in units of 2⁻¹⁶ against the draw. -/
def curveDrops (c : Curve) (avg draw : Nat) : Bool :=
  if c.maxKib = 0 then false
  else if c.maxKib * 1024 ≤ avg then true
  else if avg < c.minKib * 1024 then false
  else decide (draw * ((c.maxKib - c.minKib) * 1024 * 256) < c.maxP * (avg - c.minKib * 1024) * 65536)

/-- Offer an arrival to the drop curve of a queue: updates the average, answers whether it is dropped (counted by colour). -/
def offerCurve (q : QId) (colour : Nat) (s : State) : Bool × State :=
  let x := queueOf s q
  let p := profileOf s (qcfgOf s q).profile
  let avg := newAverage x.avg x.depth p.avgShift
  let s := if avg = x.avg then s else modQueue q (fun x => { x with avg := avg }) s
  let c := curveOf p colour
  if c.maxKib = 0 || avg < c.minKib * 1024 then (false, s)
  else if c.maxKib * 1024 ≤ avg then (true, count (qSection q) q.num (2 + min colour 2) 1 s)
  else
    let r := draw 16 s
    if curveDrops c avg r.1 then (true, count (qSection q) q.num (2 + min colour 2) 1 r.2) else (false, r.2)

/-- A held packet is older than a limit in ns. -/
def overAge (s : State) (h limit : Nat) : Bool := decide ((mgetD s.buf.heads h {}).origin + limit < s.time.uptime)

/-! ### Spill and refill (R241-R243, R246) -/

/-- Octets of a packet's record: header, carried metadata and frame, padded to 8 (R226). -/
def recordSize (len : Nat) : Nat := ceilDiv (8 + 128 + len) 8 * 8
/-- Octets of records that the tail part still has to pack. -/
def tailOctets (s : State) (x : Queue) : Nat :=
  x.tail.foldl (fun a h => a + recordSize (mgetD s.buf.heads h {}).frame.length) 0 - x.packed

/-- The pseudo-channel of H2-H5 that a spill block lies in, counted from H2's first: consecutive blocks of a stack lie in consecutive ones (R226, R420, R421). -/
def blockPc (b : Nat) : Nat := b / 6291456 * 32 + b % 32
/-- Block `k` of a pseudo-channel. -/
def blockIn (pc k : Nat) : Nat := pc / 32 * 6291456 + k * 32 + pc % 32

/-- A block may be taken from a pseudo-channel that is not fenced. -/
def blockOk (s : State) (b : Nat) : Bool :=
  (mget s.buf.blocks b).isNone && !isFenced s (resId 0x0D (64 + blockPc b)) &&
  (mgetD s.hbm (2 + b / 6291456) {}).ready

/-- The blocks of a pseudo-channel in use, as indices of its list. -/
def blocksOf (s : State) (pc : Nat) : List Nat :=
  sortAsc (((s.buf.blocks.map (·.1)).filter (fun b => blockPc b == pc)).map (· % 6291456 / 32))
/-- Choose a free block: a free value among those of the pseudo-channels in service (log entry 1); none where no list holds one. -/
def takeBlock (s : State) : Option Nat × State :=
  let pcs := (List.range 128).filter (fun p => !isFenced s (resId 0x0D (64 + p)) && (mgetD s.hbm (2 + p / 32) {}).ready &&
    decide ((blocksOf s p).length < 196608))
  if pcs.isEmpty then (none, s)
  else
    let r := drawBelow pcs.length s
    let pc := pcs.getD r.1 0
    let d := drawBelow (196608 - (blocksOf s pc).length) r.2
    (some (blockIn pc (kthFree (blocksOf s pc) d.1)), d.2)

/-- The stored form of a packet: its head without a segment. -/
def asRecord (s : State) (h : Nat) : Head := mgetD s.buf.heads h {}

/-- The record of a packet as it stands in blocks: header, carried metadata, frame, padding (R226). -/
def spillRecord (h : Head) : List Byte :=
  fit (recordSize h.frame.length)
    (leBytes 8 (h.frame.length % 2 ^ 14 + h.enq % 2 ^ 48 * 2 ^ 16) ++ fit 128 h.meta_ ++ h.frame)

/-- A block of a chain. -/
def blockOf (s : State) (b : Nat) : Block := mgetD s.buf.blocks b {}
/-- Change a held block. -/
def modBlock (b : Nat) (f : Block → Block) (s : State) : State := { s with buf.blocks := mset s.buf.blocks b (f (blockOf s b)) }

/-- The 32-byte header of a held block (R226); NEXT_BLOCK of the last one is 0 (DESIGN CHOICE, log entry 41). -/
def blockHeader (s : State) (b : Nat) : List Byte :=
  let k := blockOf s b
  let next := ((queueOf s k.queue).spill.dropWhile (· != b)).getD 1 0
  let last := !((queueOf s k.queue).spill.contains b) || (queueOf s k.queue).spill.getLast? == some b
  leBytes 4 (next + b2n last * 2 ^ 31) ++ leBytes 4 (k.queue.num + b2n k.queue.egress * 2 ^ 30) ++ leBytes 4 k.seq ++
  leBytes 2 k.begins ++ leBytes 2 k.payload.length ++ leBytes 1 k.pool ++ leBytes 1 0x13 ++ zeros 14
/-- The 4,096 bytes of a held block whose write has completed. -/
def blockBytes (s : State) (b : Nat) : List Byte := fit 4096 (blockHeader s b ++ (blockOf s b).payload)

/-- Free the first block of a queue's chain; the tail part joins where the spilled part is then empty, and what reaches the head is settled (R277). -/
def freeFirstBlock (q : QId) (s : State) : State :=
  match (queueOf s q).spill with
  | [] => s
  | b :: _ =>
    let k := blockOf s b
    qSettle q (joinTail q (modQueue q (fun x => { x with spill := x.spill.drop 1 })
      (modPool k.pool (fun p => { p with blocks := p.blocks - 1 }) { s with buf.blocks := mdel s.buf.blocks b })))
/-- Free the blocks at the front of the chain in which no record begins or continues any more (R242). -/
def freeEmptyFront (q : QId) : Nat → State → State
  | 0, s => s
  | n + 1, s =>
    match (queueOf s q).spill with
    | [] => s
    | b :: _ =>
      let k := blockOf s b
      if k.records.isEmpty && !k.continues && !k.writing then freeEmptyFront q n (freeFirstBlock q s) else s

/-- Take back the record that is packed in part at the end of a chain, given from its last block: it is in no block any more. -/
def cutPartial : List Nat → State → State
  | [], s => s
  | b :: bs, s =>
    let k := blockOf s b
    if !k.continues then s
    else
      let s := modBlock b (fun k => { k with continues := false, records := k.records.dropLast }) s
      if k.records.isEmpty then cutPartial bs s else s
/-- The first packet of the tail part is packed in part no longer. -/
def unpack (q : QId) (s : State) : State :=
  let x := queueOf s q
  if x.packed = 0 then s else modQueue q (fun x => { x with packed := 0 }) (cutPartial x.spill.reverse s)

/-- Packets at the front of the tail part with a segment in a fenced bank, which the spill engine meets, are dropped as BANK_FENCED (R245). -/
def dropFencedTail (q : QId) : Nat → State → State
  | 0, s => s
  | n + 1, s =>
    match (queueOf s q).tail with
    | [] => s
    | h :: _ =>
      if inFencedBank s h then
        let s := unpack q s
        let s := modQueue q (fun x => { x with tail := x.tail.drop 1, depth := x.depth - frameLen s h }) s
        dropFencedTail q n (qSettle q (dropPkt h 0x09 (asRecord s h).pool 2 s))
      else s

/-- Fill a block from the tail part: `room` octets are left in it. A packet in a fenced bank ends the block; the next packing drops it. -/
def packInto : Nat → QId → Nat → Nat → State → State
  | 0, _, _, _, s => s
  | n + 1, q, b, room, s =>
    let x := queueOf s q
    match x.tail with
    | [] => s
    | h :: rest =>
      let bytes := (spillRecord (asRecord s h)).drop x.packed
      let begin := fun (k : Block) => if x.packed = 0 then { k with records := k.records ++ [asRecord s h], begins := k.begins + 1 } else { k with contIn := true }
      if room = 0 || inFencedBank s h then s
      else if bytes.length ≤ room then
        let s := modBlock b (fun k => { begin k with payload := k.payload ++ bytes, freeing := k.freeing ++ [h] }) s
        packInto n q b (room - bytes.length) (modQueue q (fun x => { x with tail := rest, packed := 0, spilled := x.spilled + 1 }) s)
      else
        let s := modBlock b (fun k => { begin k with payload := k.payload ++ bytes.take room, continues := true }) s
        modQueue q (fun x => { x with packed := x.packed + room }) s

/-- The tail part is to be packed: it holds 4,064 octets of records, or its oldest packet has waited 2 µs (R241). -/
def packs (q : QId) (s : State) : Bool :=
  let x := queueOf s q
  match x.tail with
  | [] => false
  | h :: _ => decide (4064 ≤ tailOctets s x) || decide ((asRecord s h).enq + 2000 ≤ s.time.uptime)
/-- PACKING (R241): a block is packed when the tail holds 4,064 octets of records or its oldest packet has waited 2 µs; it is charged to the pool of the first packet in it (R258). The packets that the spill engine then meets in fenced banks are dropped first (R245). -/
def packing (q : QId) (s : State) : State :=
  if !packs q s then s
  else if packingStopped s (qcfgOf s q).pool then qSettle q (joinIdle q s)
  else
    let s := dropFencedTail q (queueOf s q).tail.length s
    let x := queueOf s q
    match x.tail with
    | [] => s
    | h :: _ =>
      if !packs q s then s
      else match takeBlock s with
      | (none, s) => s
      | (some b, s) =>
        let pool := (asRecord s h).pool
        let k : Block := { queue := q, seq := x.spillSeq, pool := pool, writing := true }
        let s := modPool pool (fun p => { p with blocks := p.blocks + 1 }) { s with buf.blocks := mset s.buf.blocks b k }
        packInto 64 q b 4064 (modQueue q (fun x => { x with spill := x.spill ++ [b], spillSeq := (x.spillSeq + 1) % 2 ^ 32 }) s)

/-- PACKING. -/
def execPacking (q : QId) (s : State) : Host.Outcome State Fault Refusal :=
  answer s (if trafficOn s then packing q s else s)

/-- BLOCK_WRITE_COMPLETE (R241): the segments of the records that end in the block are freed. -/
def execBlockWriteComplete (b : Nat) (s : State) : Host.Outcome State Fault Refusal :=
  answer s (match mget s.buf.blocks b with
    | none => s
    | some k =>
      if !k.writing || !trafficOn s then s
      else
        let s := { s with buf.blocks := mset s.buf.blocks b { k with writing := false, freeing := [] } }
        k.freeing.foldl (fun s h => freePkt h s) s)

/-- Write one record back into the head part: dropped where it is past its age limit, counted by its queue (R242), or where no segment is free, counted as EMPTY and NO_BUFFER (R230). -/
def refillOne (q : QId) (r : Head) (s : State) : State :=
  let s := modQueue q (fun x => { x with spilled := x.spilled - 1 }) s
  let gone := fun (s : State) => qSettle q (modQueue q (fun x => { x with depth := x.depth - r.recLen }) s)
  if r.origin + ageLimit s q < s.time.uptime then gone (count (qSection q) q.num 5 1 s)
  else match allocPkt 0x13 { r with owner := 0x13 } s with
    | (some h, s) =>
      let s := modHead h (fun y => { y with enq := r.enq, owner := if q.egress then 0x0E else 0x0C }) s
      qSettle q (modQueue q (fun x => { x with head := x.head ++ [h] }) s)
    | (none, s) => gone s

/-- The blocks after the first that the continuing record of the first runs through, up to the one it ends in; none while one of them is not in the chain or not written. -/
def contEnd (s : State) : List Nat → Option Nat
  | [] => none
  | b :: bs =>
    let k := blockOf s b
    if k.writing then none
    else if k.records.isEmpty && k.continues then (contEnd s bs).map (· + 1) else some 0

/-- The spill engine reads a block: the latency is a free value of 32 bits (R411 point 7). -/
def readBlock (b : Nat) (s : State) : State := hbmRead (64 + blockPc b) (2 ^ 32) s

/-- REFILL (R242): the complete records of the first block, then its continuing record once the block it ends in is read; each block is freed with the last record that stands in it. -/
def refill (q : QId) (s : State) : State :=
  let x := queueOf s q
  match x.spill with
  | [] => s
  | b :: rest =>
    let k := blockOf s b
    if k.writing || (poolOf s (qcfgOf s q).pool).refillSeg ≤ headSegs s x then s
    else
      let last := if k.continues then k.records.getLast? else none
      let done := if k.continues then k.records.dropLast else k.records
      let s := if done.isEmpty then s else readBlock b s
      let s := done.foldl (fun s r => refillOne q r s) s
      let s := modBlock b (fun k => { k with records := last.toList }) s
      match last with
      | none => freeEmptyFront q x.spill.length s
      | some l =>
        match contEnd s rest with
        | none => s
        | some mids =>
          let s := ((if done.isEmpty then [b] else []) ++ rest.take (mids + 1)).foldl (fun s b => readBlock b s) s
          freeEmptyFront q 1 ((List.range (mids + 1)).foldl (fun s _ => freeFirstBlock q s) (refillOne q l s))

/-- REFILL. -/
def execRefill (q : QId) (s : State) : Host.Outcome State Fault Refusal :=
  answer s (if trafficOn s then refill q s else s)

/-! ### The age scanner (R268) -/

/-- Discard records of the spilled part for age: they leave the depth and are counted. -/
def discardRecs (q : QId) (rs : List Head) (s : State) : State :=
  modQueue q (fun x => { x with spilled := x.spilled - rs.length, depth := x.depth - rs.foldl (fun a r => a + r.recLen) 0 })
    (count (qSection q) q.num 5 rs.length s)

/-- The blocks after the first that the continuing record of the first runs through, written or under a write, up to the one it ends in; none where it ends in none of the chain. -/
def chainEnd (s : State) : List Nat → Option Nat
  | [] => none
  | b :: bs =>
    let k := blockOf s b
    if k.records.isEmpty && k.continues then (chainEnd s bs).map (· + 1) else some 0
/-- Discard the due records of the first block, then of the blocks that come to the front as emptied ones are freed. -/
def scanSpill (q : QId) (due : Int → Bool) : Nat → State → State
  | 0, s => s
  | n + 1, s =>
    match (queueOf s q).spill with
    | [] => s
    | b :: rest =>
      let k := blockOf s b
      let last := if k.continues then k.records.getLast? else none
      let whole := if k.continues then k.records.dropLast else k.records
      let gone := whole.filter (fun r => due r.origin)
      let s := modBlock b (fun k => { k with records := whole.filter (fun r => !due r.origin) ++ last.toList }) (discardRecs q gone s)
      let s := match last, chainEnd s rest with
        | some l, some mids => if due l.origin then
            (b :: rest.take mids).foldl (fun s c => modBlock c (fun k => { k with
              continues := false, records := if c = b then k.records.dropLast else k.records }) s) (discardRecs q [l] s)
          else s
        | _, _ => s
      let s' := freeEmptyFront q 1 s
      if (queueOf s' q).spill.head? == some b then s' else scanSpill q due n s'

/-- AGE_SCAN (R268): the scanner drops every packet of the queue that will pass its limit within the next 100 µs, from the head to the tail. -/
def ageScan (q : QId) (s : State) : State :=
  let lim := ageLimit s q
  let due := fun (origin : Int) => decide (origin + lim < s.time.uptime + 100000)
  let s := match (queueOf s q).tail with
    | h :: _ => if due (asRecord s h).origin then unpack q s else s
    | [] => s
  let gone := (onDie (queueOf s q)).filter (fun h => due (asRecord s h).origin)
  let lost := gone.foldl (fun a h => a + frameLen s h) 0
  let s := modQueue q (fun x => { x with
    head := x.head.filter (fun h => !gone.contains h), tail := x.tail.filter (fun h => !gone.contains h), depth := x.depth - lost }) s
  let s := gone.foldl (fun s h => dropPkt h (qSection q) q.num 5 s) s
  qSettle q (joinIdle q (scanSpill q due (queueOf s q).spill.length s))

/-- AGE_SCAN. -/
def execAgeScan (q : QId) (s : State) : Host.Outcome State Fault Refusal :=
  answer s (if trafficOn s && !qEmpty (queueOf s q) then ageScan q s else s)

/-! ### Loss of spilled parts (R246) -/

/-- The spilled part of a queue is lost (R246): SPILL_LOST of its pool; blocks in healthy pseudo-channels become orphans, held and charged until the reclaim sweep. A packet packed in part is still whole in the tail part. -/
def loseSpill (q : QId) (s : State) : State :=
  let s := unpack q s
  let x := queueOf s q
  let octets := x.spill.foldl (fun a b => (blockOf s b).records.foldl (fun a r => a + r.recLen) a) 0
  let s := count 0x09 (qcfgOf s q).pool 3 x.spilled s
  let s := x.spill.foldl (fun s b =>
    let k := blockOf s b
    let s := k.freeing.foldl (fun s h => freePkt h s) s
    if isFenced s (resId 0x0D (64 + blockPc b)) then
      modPool k.pool (fun p => { p with blocks := p.blocks - 1 }) { s with buf.blocks := mdel s.buf.blocks b }
    else modBlock b (fun k => { k with orphan := true, records := [], freeing := [] }) s) s
  qSettle q (joinTail q (modQueue q (fun x => { x with spill := [], spilled := 0, packed := 0, depth := x.depth - octets }) s))

/-- Blocks leave their pools and are no longer held. -/
def releaseBlocks (bs : List Nat) (s : State) : State :=
  bs.foldl (fun s b => modPool (blockOf s b).pool (fun p => { p with blocks := p.blocks - 1 }) { s with buf.blocks := mdel s.buf.blocks b }) s

/-- RECLAIM_SWEEP (R246): orphaned blocks return to their lists. -/
def execReclaimSweep (s : State) : Host.Outcome State Fault Refusal :=
  answer s (if trafficOn s then releaseBlocks ((s.buf.blocks.filter (fun b => b.2.orphan)).map (·.1)) s else s)

end Sys2Proof.Machine
end

