-- ==== Sys2Proof/Machine/Sched.lean ====
section
/-! DEFINITION. Scheduler trees, shapers, gate lists and the egress credit generator, with the commands of the classes BUFFER and SCHED (R250-R277 09_queues_and_scheduling, R235, R236 08_buffer_manager, R292-R296 10_fabric_interface). -/

namespace Sys2Proof.Machine

/-! ### Nodes (R255-R257) -/

/-- A node after reset (R255, R258); a configurable node does not exist and has level 0. -/
def nodeReset (n : Nat) : Node := if n ≤ 8 then { level := 3 } else if n ≤ 202 then { level := 2 } else {}
/-- Node `n`. -/
def nodeOf (s : State) (n : Nat) : Node := mgetD s.sched.nodes n (nodeReset n)
/-- Change node `n`. -/
def modNode (n : Nat) (f : Node → Node) (s : State) : State :=
  { s with sched.nodes := mset s.sched.nodes n (f (nodeOf s n)) }

/-- The nodes from `n` up to its root, `n` first. -/
def ancestors (s : State) : Nat → Nat → List Nat
  | 0, _ => []
  | k + 1, n => if n ≤ 8 then [n] else n :: ancestors s k (nodeOf s n).parent

/-- M × 2^E kb/s of a 16-bit M and a 4-bit E. -/
def rateKbps (m e : Nat) : Nat := m * 2 ^ e
/-- CIR of a rate word in kb/s, 0 for none. -/
def cirOf (w : Nat) : Nat := rateKbps (bitsOf w 15 0) (bitsOf w 19 16)
/-- PIR of a rate word in kb/s. -/
def pirOf (w : Nat) : Nat := rateKbps (bitsOf w 35 20) (bitsOf w 39 36)
/-- PIR_UNLIMITED. -/
def unlimited (w : Nat) : Bool := bit w 40
/-- A rate word obeys R263. -/
def rateOk (w : Nat) : Bool :=
  if unlimited w then bitsOf w 15 0 == 0 else bitsOf w 35 20 != 0 && decide (cirOf w ≤ pirOf w)

/-! ### Shapers (R262) -/

/-- One octet in the units of a bucket: at r kb/s a bucket gains r units in 1 ns. -/
def octetUnit : Nat := 8000000

/-- Refill a node's buckets up to now; contents above a size are clipped. -/
def refillNode (now : Nat) (x : Node) : Node :=
  let dt := now - x.last
  { x with last := now,
           committed := min ((x.cbs * octetUnit : Nat) : Int) (x.committed + (cirOf x.rate * dt : Nat)),
           peak := if unlimited x.rate then ((x.pbs * octetUnit : Nat) : Int)
             else min ((x.pbs * octetUnit : Nat) : Int) (x.peak + (pirOf x.rate * dt : Nat)) }
/-- A node's peak bucket lets it send. -/
def peakOk (x : Node) : Bool := unlimited x.rate || decide (0 ≤ x.peak)
/-- A node is in commitment (R259). -/
def committedOk (x : Node) : Bool := bitsOf x.rate 15 0 != 0 && decide (0 ≤ x.committed)
/-- Octets a node charges for a packet (R261). -/
def nodeLen (x : Node) (len : Nat) : Nat := Int.toNat (max 1 ((len : Int) + x.lenAdj))

/-! ### Readiness (R259) -/

/-- The slices of a link can do DMA: the link is up and PF1 is not in D3hot (R366). -/
def pf1Dma (s : State) (link : Nat) : Bool :=
  s.host.linkUp.contains link && !asleep s (pf1Key link)
/-- Receive delivery of a slice runs: it is ACTIVE (R371, R393). -/
def sliceServes (s : State) (n : Nat) : Bool :=
  match mget s.host.slices n with | some x => x.state == 1 && pf1Dma s x.link | none => false
/-- The target of an egress queue takes frames: a port is UP, a slice is served, the pair link carries. -/
def targetAccepts (s : State) (b : Bind) : Bool :=
  if b.kind = 1 then (portOf s b.target).link == 1
  else if b.kind = 2 then sliceServes s b.target else if b.kind = 3 then s.pair.link != 0 && s.pair.retrain.isNone else false
/-- An egress queue is stopped by pause (R124). -/
def pausedQueue (s : State) (e : Nat) : Bool :=
  let b := eqBindOf s (e / 8)
  b.kind == 1 && bit (portOf s b.target).rxPaused (e % 8)
/-- The head frame of an egress queue waits for its gate. -/
def gateWaits (s : State) (e : Nat) : Bool :=
  let b := eqBindOf s (e / 8)
  match (queueOf s ⟨true, e⟩).head with
  | [] => false
  | h :: _ => b.kind == 1 && !gateTest s b.target (e % 8) (frameLen s h)
/-- A queue is ready. -/
def queueReady (s : State) (q : QId) : Bool :=
  let x := queueOf s q
  if q.egress then
    !x.head.isEmpty && targetAccepts s (eqBindOf s (q.num / 8)) && !pausedQueue s q.num && !gateWaits s q.num
  else !x.head.isEmpty && decide (0 < x.credit)

/-! ### Selection (R260, R261) -/

/-- A child of a node: a queue or a node. -/
inductive Child where
  | queue (q : QId)
  | node (n : Nat)
deriving DecidableEq, Repr

/-- Band, weight, start tag, finish tag and whether the child was ready at the last selection. -/
structure ChildState where
  band : Nat
  weight : Nat
  s : Nat
  f : Nat
  was : Bool
deriving DecidableEq, Repr

/-- What the scheduler keeps of a child. -/
def childState (s : State) : Child → ChildState
  | .queue q => ⟨(qcfgOf s q).band, (qcfgOf s q).weight, (queueOf s q).s, (queueOf s q).f, (queueOf s q).wasReady⟩
  | .node n => ⟨(nodeOf s n).band, (nodeOf s n).weight, (nodeOf s n).s, (nodeOf s n).f, (nodeOf s n).wasReady⟩
/-- Write a child's tags. -/
def setTags (c : Child) (st fin : Nat) (was : Bool) (s : State) : State :=
  match c with
  | .queue q => modQueue q (fun x => { x with s := st, f := fin, wasReady := was }) s
  | .node n => modNode n (fun x => { x with s := st, f := fin, wasReady := was }) s

/-- Tags are compared modulo 2⁴⁸: `a` before `b`. -/
def tagBefore (a b : Nat) : Bool := a != b && decide ((b + 2 ^ 48 - a) % 2 ^ 48 < 2 ^ 47)
/-- The later of two tags. -/
def tagMax (a b : Nat) : Nat := if tagBefore a b then b else a
/-- Order number of a child among equal tags: queues before nodes, lower numbers first. -/
def childOrder : Child → Nat
  | .queue q => q.num
  | .node n => 2 ^ 20 + n

/-- A child becomes ready or stops being ready: S = max(V, F) when it becomes ready. -/
def refreshChild (parent : Nat) (c : Child) (ready : Bool) (s : State) : State :=
  let x := childState s c
  if ready = x.was then s
  else if ready then setTags c (tagMax (mgetD (nodeOf s parent).v x.band 0) x.f) x.f true s
  else setTags c x.s x.f false s

/-- The better of two candidates: higher band, then smaller tag, then lower number. -/
def better (s : State) (a b : Child) : Child :=
  let x := childState s a
  let y := childState s b
  if x.band != y.band then (if y.band < x.band then a else b)
  else if x.s != y.s then (if tagBefore x.s y.s then a else b)
  else if childOrder a ≤ childOrder b then a else b

/-- Queues that hold packets, with the path of nodes above each. -/
def pathsOf (s : State) (egress : Bool) (keep : Nat → Bool) : List (QId × List Nat) :=
  (((if egress then s.sched.eqs else s.sched.voqs).filter (fun e => keep e.1)).map (fun e =>
    ((⟨egress, e.1⟩ : QId), ancestors s 4 (qcfgOf s ⟨egress, e.1⟩).parent)))

/-- The child of `n` on a path that a queue hangs from. -/
def childOn (n : Nat) (q : QId) : List Nat → Option Child
  | [] => none
  | a :: rest =>
    if a = n then some (.queue q)
    else match rest with
      | b :: _ => if b = n then some (.node a) else childOn n q rest
      | [] => none

/-- Children of `n` that lead to one of these queues. -/
def childrenOf (n : Nat) (ps : List (QId × List Nat)) : List Child := (ps.filterMap (fun p => childOn n p.1 p.2)).eraseDups

/-- A queue is ready and every node above it lets it send. -/
def pathReadyNow (s : State) (p : QId × List Nat) : Bool := queueReady s p.1 && p.2.all (fun n => peakOk (nodeOf s n))

/-- One selection at node `n` among the ready queues `ps`: the chosen child. -/
def chooseChild (s : State) (n : Nat) (ps : List (QId × List Nat)) : Option Child :=
  let cs := childrenOf n ps
  let committed := cs.filter (fun c => match c with | .queue _ => false | .node m => committedOk (nodeOf s m))
  match (if committed.isEmpty then cs else committed) with
  | [] => none
  | c :: rest => some (rest.foldl (better s) c)

/-- Descend from node `n` to a queue: the queue and the (node, chosen child) pairs of the path. -/
def descend (s : State) (ps : List (QId × List Nat)) : Nat → Nat → List (Nat × Child) → Option (QId × List (Nat × Child))
  | 0, _, _ => none
  | k + 1, n, acc =>
    match chooseChild s n ps with
    | none => none
    | some (.queue q) => some (q, acc ++ [(n, .queue q)])
    | some (.node m) => descend s ps k m (acc ++ [(n, .node m)])

/-- Refill every node above these queues and bring the tags of their children up to date: a child is ready by what stands in it and below it, whatever the nodes above it (R259, R261). -/
def refreshTree (all : List (QId × List Nat)) (s : State) : State :=
  let nodes := (all.map (·.2)).flatten.eraseDups
  let s := nodes.foldl (fun s n => modNode n (refillNode s.time.uptime) s) s
  nodes.foldl (fun s n =>
    let ready := childrenOf n (all.filter (fun p => queueReady s p.1 && (p.2.takeWhile (· != n)).all (fun m => peakOk (nodeOf s m))))
    (childrenOf n all).foldl (fun s c => refreshChild n c (ready.contains c) s) s) s

/-- The start and finish tags after a selection with length `len`. -/
def chargeChild (parent : Nat) (c : Child) (len : Nat) (s : State) : State :=
  let x := childState s c
  let l := match c with | .queue _ => len | .node m => nodeLen (nodeOf s m) len
  let fin := (x.s + l * 4096 / x.weight) % 2 ^ 48
  setTags c fin fin true (modNode parent (fun y => { y with v := mset y.v x.band x.s }) s)
/-- Take the packet's length from both buckets of a node. -/
def chargeNode (len n : Nat) (s : State) : State :=
  modNode n (fun x =>
    let l : Int := ((nodeLen x len * octetUnit : Nat) : Int)
    { x with committed := x.committed - l, peak := if unlimited x.rate then x.peak else x.peak - l }) s

/-- Account a selection along its path: tags and buckets. -/
def chargePath (path : List (Nat × Child)) (len : Nat) (s : State) : State :=
  let s := path.foldl (fun s p => chargeChild p.1 p.2 len s) s
  path.foldl (fun s p => chargeNode len p.1 s) s

/-! ### Dropping what may not be sent (R267, R277) -/

/-- Head frames that the dequeue drops before it selects, one after the other: past their age where the queue is ready, too long for their gate (R267, R277). -/
def clearHeads (q : QId) : Nat → State → State
  | 0, s => s
  | n + 1, s =>
    let s := if q.egress then dropTooLong q.num (onDie (queueOf s q)).length s else s
    match (queueOf s q).head with
    | [] => s
    | h :: _ =>
      if queueReady s q && overAge s h (ageLimit s q) then
        clearHeads q n (qSettle q (dropPkt h (qSection q) q.num 5 (popHead q s)))
      else s

/-- Select a queue under node `root` among the queues of `keep` (R260): aged heads are dropped and the selection made again. -/
def selectQueue (egress : Bool) (keep : Nat → Bool) (root : Nat) (s : State) : Option (QId × List (Nat × Child)) × State :=
  let nums := ((if egress then s.sched.eqs else s.sched.voqs).filter (fun e => keep e.1)).map (·.1)
  let s := nums.foldl (fun s n => clearHeads ⟨egress, n⟩ ((onDie (queueOf s ⟨egress, n⟩)).length + 1) s) s
  let all := pathsOf s egress keep
  let s := refreshTree all s
  (descend s ((pathsOf s egress keep).filter (pathReadyNow s)) 5 root [], s)

/-- A node that no queue hangs under any more is not ready (R261). -/
def idleNodes (s : State) : State :=
  let used := fun (n : Nat) => (pathsOf s true (fun _ => true) ++ pathsOf s false (fun _ => true)).any (fun p => p.2.contains n)
  { s with sched.nodes := mmap s.sched.nodes (fun n x => if x.wasReady && !used n then { x with wasReady := false } else x) }
/-- Bring the buckets and tags of every scheduler up to date (R259, R261; log entry 88). -/
def refreshSchedulers (s : State) : State :=
  idleNodes (refreshTree (pathsOf s true (fun _ => true)) (refreshTree (pathsOf s false (fun _ => true)) s))

/-- The VOQ that the scheduler of a sector sends from next. -/
def selectVoq (sector : Nat) (s : State) : Option (QId × List (Nat × Child)) × State :=
  selectQueue false (fun v => v / 131072 == sector) (1 + sector) s

/-- The egress queue that a target takes its next frame from: 0-191 a port, 192 host DMA, 193 the pair link. -/
def selectEgress (target : Nat) (s : State) : Option (QId × List (Nat × Child)) × State :=
  selectQueue true (fun e =>
    let b := eqBindOf s (e / 8)
    if target < 192 then b.kind == 1 && b.target == target else if target = 192 then b.kind == 2 else b.kind == 3) 0 s

/-! ### The credit generator (R269-R272, R293, R294) -/

/-- Egress queue that a packet of a VOQ offset reaches at a credit target. -/
def requestQueue (s : State) (t voq offset : Nat) : Option Nat :=
  if t < 192 then arrivalQueue s 1 t offset
  else arrivalQueue s (if t = 192 then 2 else 3) (voqBindOf s (voq / 8)).target offset

/-- Automatic rate of a target before the factor 65/64, in kb/s (R269). -/
def nominalKbps (s : State) (t : Nat) : Nat :=
  if t = 192 then 800000000 else if t = 193 then 3200000000
  else
    let speed := portGbps s t * 1000000
    let w := (nodeOf s (9 + t)).rate
    if unlimited w then speed else min speed (pirOf w)
/-- Credit rate in units of 1/64 kb/s. -/
def creditRate64 (s : State) (t : Nat) : Nat :=
  let x := targetOf s t
  if x.rateM = 0 then nominalKbps s t * 65 else min (rateKbps x.rateM x.rateE * 64) (nominalKbps s t * 65)

/-- Credit is withheld from an offset by the pool of its arrival queue (R237, R270). -/
def poolWithholds (s : State) (e offset : Nat) : Bool :=
  let p := poolOf s (qcfgOf s ⟨true, e⟩).pool
  p.stopOn || (p.pauseOn && bit p.lowMask offset)

/-- A request that may be granted now. -/
def grantable (s : State) (t : Nat) (r : Nat × Nat × Nat) : Bool :=
  match requestQueue s t r.2.1 r.2.2 with
  | some e => !poolWithholds s e r.2.2
  | none => true

/-- Band and weight of an offset: those of the arrival queue of a port, the reset ones for host DMA and the pair link (log entry 18). -/
def offsetCfg (s : State) (t offset : Nat) : Nat × Nat :=
  if t < 192 then match arrivalQueue s 1 t offset with
    | some e => ((qcfgOf s ⟨true, e⟩).band, (qcfgOf s ⟨true, e⟩).weight)
    | none => (offset, 1)
  else (offset, 1)

/-- Bring the tags of a target's offsets up to date. -/
def refreshOffsets (t : Nat) (ready : Nat → Bool) (s : State) : State :=
  (List.range 8).foldl (fun s o =>
    let x := targetOf s t
    let g := mgetD x.tags o (0, 0, false)
    if ready o = g.2.2 then s
    else
      let st := if ready o then tagMax (mgetD x.v (offsetCfg s t o).1 0) g.2.1 else g.1
      modTarget t (fun x => { x with tags := mset x.tags o (st, g.2.1, ready o) }) s) s

/-- The better of two offsets. -/
def betterOffset (s : State) (t a b : Nat) : Nat :=
  let x := targetOf s t
  let ba := (offsetCfg s t a).1
  let bb := (offsetCfg s t b).1
  let sa := (mgetD x.tags a (0, 0, false)).1
  let sb := (mgetD x.tags b (0, 0, false)).1
  if ba != bb then (if bb < ba then a else b)
  else if sa != sb then (if tagBefore sa sb then a else b) else min a b

/-- Add a grant to a local VOQ: its balance, the loop time of R295, and what it requests from then on. -/
def addGrant (v : Nat) (s : State) : State :=
  let q : QId := ⟨false, v⟩
  let since := (queueOf s q).reqSince
  let s := modQueue q (fun x => { x with credit := x.credit + 4096, reqSince := 0 }) s
  voqSettle v (if since = 0 then s else monEvent 6 v (s.time.uptime + 1 - since) s)

/-- Credit earned since the last grant, at most the next grant. -/
def earnCredit (t : Nat) (s : State) : State :=
  modTarget t (fun x => { x with tokens := min 0 (x.tokens + (creditRate64 s t * (s.time.uptime - x.last) : Nat)),
                                 last := s.time.uptime }) s

/-- Issue one grant to a request. -/
def issueGrant (t : Nat) (r : Nat × Nat × Nat) (s : State) : State :=
  let offset := r.2.2
  let x := targetOf s t
  let g := mgetD x.tags offset (0, 0, false)
  let cfg := offsetCfg s t offset
  let fin := (g.1 + 4096 * 4096 / cfg.2) % 2 ^ 48
  let gseq := mgetD x.gseq r.1 0
  let s := modTarget t (fun x => { x with
    tags := mset x.tags offset (fin, fin, true), v := mset x.v cfg.1 g.1,
    tokens := x.tokens - 4096 * 512000000,
    requests := x.requests.filter (· != r) ++ [r] }) s
  let s := book t r.1 0 4096 s
  if r.1 = s.fabric.device || !s.fabric.connected then addGrant r.2.1 s
  else
    sendCredit r.1 (creditWord 3 r.2.1 t offset (gseq * 2 ^ 13)) (modTarget t (fun x => { x with
      gseq := mset x.gseq r.1 ((gseq + 1) % 2 ^ 16),
      sent := mset x.sent r.1 (((gseq, s.time.uptime) :: mgetD x.sent r.1 []).take 65536) }) s)

/-- The target may issue credit at all: R270 and its rate. -/
def targetIssues (s : State) (t : Nat) : Bool :=
  let x := targetOf s t
  (192 ≤ t || (portOf s t).link == 1) && !x.stopped && decide (0 ≤ x.tokens) && decide (0 < creditRate64 s t)

/-- GRANT_ISSUE (R269-R271). -/
def grantIssue (t : Nat) (s : State) : State :=
  if !trafficOn s || 194 ≤ t then s
  else
    let s := earnCredit t s
    if !targetIssues s t then s
    else
      let open_ := (targetOf s t).requests.filter (grantable s t)
      let s := refreshOffsets t (fun o => (targetOf s t).requests.any (fun r => r.2.2 == o)) s
      match (List.range 8).filter (fun o => open_.any (fun r => r.2.2 == o)) with
      | [] => s
      | o :: rest =>
        let best := rest.foldl (betterOffset s t) o
        match open_.find? (fun r => r.2.2 == best) with
        | none => s
        | some r => issueGrant t r s

/-- GRANT_ISSUE. -/
def execGrantIssue (t : Nat) (s : State) : Host.Outcome State Fault Refusal := answer s (grantIssue t s)

/-! ### GATE_LIST_START (R274, R275) -/

/-- At T the administrative list becomes the operational list and every head is checked against it. -/
def gateListStart (port : Nat) (s : State) : State :=
  let g := gateOf s port
  match g.admin with
  | none => s
  | some l =>
    if s.time.ntime < l.start || !running s then s
    else
      let s := modGate port (fun g => gateNow s { g with admin := none, oper := some l, fitAdj := l.fitAdj }) s
      ((s.sched.eqs.map (·.1)).filter (fun e => (eqBindOf s (e / 8)).kind == 1 && (eqBindOf s (e / 8)).target == port)).foldl
        (fun s e => qSettle ⟨true, e⟩ s) s

/-- Every pending list whose T a step of NTIME has reached or passed starts at once (R275). -/
def startGates (s : State) : State := (s.sched.gates.map (·.1)).foldl (fun s p => gateListStart p s) s

/-- GATE_LIST_START. -/
def execGateListStart (port : Nat) (s : State) : Host.Outcome State Fault Refusal := answer s (gateListStart port s)

/-! ### SCHED_NODE_SET (R255-R257, R263) -/

/-- Level of a fixed node. -/
def fixedLevel (n : Nat) : Nat := if n ≤ 8 then 3 else 2

/-- The parent chain of `n` reaches a root with rising levels (R256). -/
def chainOk (s : State) : Nat → Nat → Nat → Option Nat
  | 0, _, _ => none
  | k + 1, level, n =>
    if (nodeOf s n).level ≤ level then none else if n ≤ 8 then some n else chainOk s k (nodeOf s n).level (nodeOf s n).parent

/-- A queue under a parent lies in the right scheduler (R256): a VOQ under its sector's root, an egress queue under the node of its target. -/
def queuePlaceOk (s : State) (q : QId) (parent : Nat) : Bool :=
  match chainOk s 4 0 parent with
  | none => false
  | some root =>
    if q.egress then
      let b := eqBindOf s (q.num / 8)
      root == 0 && (if b.kind = 1 then (ancestors s 4 parent).contains (9 + b.target)
        else if b.kind = 2 then (ancestors s 4 parent).contains 201
        else if b.kind = 3 then (ancestors s 4 parent).contains 202 else true)
    else root == 1 + q.num / 131072

/-- Queues that are set or hold packets, under this node. -/
def queuesUnder (s : State) (n : Nat) : List QId :=
  ((s.sched.voqs.map (fun e => (⟨false, e.1⟩ : QId))) ++ (s.sched.eqs.map (fun e => (⟨true, e.1⟩ : QId)))).filter
    (fun q => (ancestors s 4 (qcfgOf s q).parent).contains n)

/-- The first field of a node's section that breaks the tree as it will stand at the commit point (R256): PARENT, LEVEL, or PARENT again for the queues below. -/
def treeFail (s : State) (n : Nat) : Option Fail :=
  let x := nodeOf s n
  firstFail [
    (decide (n ≤ 8) || x.level == 0 || (chainOk s 4 x.level x.parent).isSome, badField 8),
    (s.sched.nodes.all (fun m => m.2.level == 0 || m.1 ≤ 202 || m.2.parent != n || decide (m.2.level < x.level)), badField 5),
    ((queuesUnder s n).all (fun q => queuePlaceOk s q (qcfgOf s q).parent), badField 8)]

/-- A node still has a child. -/
def hasChild (s : State) (n : Nat) : Bool :=
  s.sched.nodes.any (fun x => x.2.level != 0 && 202 < x.1 && x.2.parent == n) ||
  (s.sched.voqs.any (fun e => (qcfgOf s ⟨false, e.1⟩).parent == n)) ||
  (s.sched.eqs.any (fun e => (qcfgOf s ⟨true, e.1⟩).parent == n))

/-- A child has work: the queue, or a queue below the node, holds a packet. -/
def hasWorkBelow (s : State) : Child → Bool
  | .queue q => !qEmpty (queueOf s q)
  | .node n => (queuesUnder s n).any (fun q => !qEmpty (queueOf s q))
/-- A child that moved to another parent while it has work takes the virtual time of its band there as start tag (R257). -/
def joinBand (c : Child) (parent : Nat) (s : State) : State :=
  let x := childState s c
  if hasWorkBelow s c then setTags c (mgetD (nodeOf s parent).v x.band 0) x.f true s else s

/-- SCHED_NODE_SET, 0x0B02 C. -/
def schedNodeSetSpec : CmdSpec :=
  { opcode := 0x0B02, kind := .c, layout := plain 40 [rsv 14 2, (16, 8, 2 ^ 64 - 2 ^ 41), rsv 32 8],
    replicated := fun _ => true,
    fields := fun c _ =>
      let n := c.at 0 4
      if c.at 4 1 = 1 then firstFail [(decide (n < 131072), badField 0)]
      else firstFail [
        (decide (n < 131072), badField 0), (decide (c.at 4 1 ≤ 1), badField 4),
        (if n ≤ 202 then c.at 5 1 == fixedLevel n else c.at 5 1 == 1 || c.at 5 1 == 2, badField 5),
        (decide (c.at 6 1 ≤ 7), badField 6),
        (decide (-32 ≤ signed 8 (c.at 7 1)) && decide (signed 8 (c.at 7 1) ≤ 31), badField 7),
        (if n ≤ 202 then c.at 8 4 == 0 else decide (c.at 8 4 < 131072), badField 8),
        (decide (1 ≤ c.at 12 2) && decide (c.at 12 2 ≤ 4096), badField 12), (rateOk (c.at 16 8), badField 16),
        (decide (2048 ≤ c.at 24 4) && decide (c.at 24 4 ≤ 16777216), badField 24),
        (decide (2048 ≤ c.at 28 4) && decide (c.at 28 4 ≤ 16777216), badField 28)],
    objects := fun c _ => [objKey 3 (c.at 0 4) 0],
    object := fun c _ _ => c.at 0 4,
    apply := fun c s =>
      let n := c.at 0 4
      if c.at 4 1 = 1 then
        if n ≤ 202 || hasChild s n then .error (failWith St.wrongState)
        else if (nodeOf s n).level = 0 then .error (failWith St.notFound)
        else .ok ({ s with sched.nodes := mdel s.sched.nodes n }, [])
      else
        let old := nodeOf s n
        let fresh : Bool := old.level == 0
        let x := { old with
          level := c.at 5 1, band := c.at 6 1, lenAdj := signed 8 (c.at 7 1), parent := c.at 8 4, weight := c.at 12 2,
          rate := c.at 16 8, cbs := c.at 24 4, pbs := c.at 28 4 }
        let x := if fresh then
          { x with committed := (x.cbs * octetUnit : Nat), peak := (x.pbs * octetUnit : Nat), last := s.time.uptime }
          else { refillNode s.time.uptime old with
            level := x.level, band := x.band, lenAdj := x.lenAdj, parent := x.parent, weight := x.weight,
            rate := x.rate, cbs := x.cbs, pbs := x.pbs }
        let s' := { s with sched.nodes := mset s.sched.nodes n x }
        .ok ((if fresh || old.parent == x.parent then s' else joinBand (.node n) x.parent s'), [])
    settled := fun c s => treeFail s (c.at 0 4) }

/-! ### SCHED_QUEUE_SET (R250-R253, R258, R264, R269) -/

/-- A curve of a profile at an offset (R264). -/
def curveOkAt (c : Cmd) (off : Nat) : Bool := c.at (off + 3) 3 == 0 || decide (c.at off 3 < c.at (off + 3) 3)
/-- Read a curve. -/
def curveAt (c : Cmd) (off : Nat) : Curve := { minKib := c.at off 3, maxKib := c.at (off + 3) 3, maxP := c.at (off + 6) 1 }
/-- Write a curve's 8 bytes. -/
def curveBytes (c : Curve) : List Byte := leBytes 3 c.minKib ++ leBytes 3 c.maxKib ++ leBytes 1 c.maxP ++ zeros 1

/-- A group holds a packet, or a VOQ of it holds credit (R253). -/
def groupBusy (s : State) (egress : Bool) (g : Nat) : Bool :=
  (List.range 8).any (fun i =>
    let q := queueOf s ⟨egress, g * 8 + i⟩
    !qEmpty q || (!egress && decide (0 < q.credit)))

/-- Bind a VOQ group; MAP 1 makes it the destination's entry, and a group bound elsewhere leaves the entry it held (log entry 19). -/
def bindVoq (g : Nat) (b : Bind) (s : State) : State :=
  let old := voqBindOf s g
  let s := if old.kind != 0 && (old.kind != b.kind || old.device != b.device || old.target != b.target) &&
      destGroup s old.kind old.device old.target == some g then
    { s with sched.destMap := mset s.sched.destMap (destKey old.kind old.device old.target) 0 } else s
  let s := { s with sched.voqBind := mset s.sched.voqBind g b }
  if b.mapped && b.kind != 0 then { s with sched.destMap := mset s.sched.destMap (destKey b.kind b.device b.target) (g + 1) } else s

/-- Bind an egress queue group, in the same manner. -/
def bindEgress (g : Nat) (b : Bind) (s : State) : State :=
  let old := eqBindOf s g
  let s := if old.kind != 0 && (old.kind != b.kind || old.target != b.target) && arrivalGroup s old.kind old.target == some g then
    { s with sched.arrival := mset s.sched.arrival (destKey old.kind 0 old.target) 0 } else s
  let s := { s with sched.eqBind := mset s.sched.eqBind g b }
  if b.mapped && b.kind != 0 then { s with sched.arrival := mset s.sched.arrival (destKey b.kind 0 b.target) (g + 1) } else s

/-- Checks of a SCHED_QUEUE_SET section that need no committed state. -/
def queueSetFields (c : Cmd) (s : State) : Option Fail :=
  match c.at 0 1 with
  | 0 => firstFail [
      (decide (c.at 1 1 ≤ 1), badField 1), (decide (c.at 2 1 ≤ 7), badField 2),
      (decide (c.at 4 4 < (if c.at 1 1 = 0 then 1048576 else 131072)), badField 4),
      (decide (c.at 8 4 < 131072), badField 8),
      (decide (1 ≤ c.at 12 2) && decide (c.at 12 2 ≤ 4096), badField 12), (decide (c.at 14 1 < 64), badField 14)]
  | 1 => firstFail [
      (decide (c.at 1 1 ≤ 3), badField 1), (decide (c.at 2 1 ≤ 1), badField 2), (decide (c.at 4 4 < 131072), badField 4),
      (if c.at 1 1 = 1 then decide (c.at 8 2 < 2048) else c.at 8 2 == 0, badField 8),
      (if c.at 1 1 = 0 then true else decide (c.at 10 2 < (if c.at 1 1 = 2 then 4096 else 192)), badField 10)]
  | 2 => firstFail [
      (decide (c.at 1 1 ≤ 3), badField 1), (decide (c.at 2 1 ≤ 1), badField 2), (decide (c.at 4 4 < 16384), badField 4),
      (if c.at 1 1 = 0 then true else decide (c.at 8 2 < (if c.at 1 1 = 2 then 4096 else 192)), badField 8)]
  | 3 => firstFail [
      (decide (c.at 2 1 ≤ 15), badField 2),
      (decide (1000 ≤ c.at 4 4) && decide (c.at 4 4 ≤ 1000000), badField 4),
      (curveOkAt c 8, badField 8), (curveOkAt c 16, badField 16), (curveOkAt c 24, badField 24)]
  | _ =>
    let t := c.at 2 2
    firstFail [
      (decide (t < 194), badField 2), (decide (c.at 6 1 ≤ 15), badField 6),
      (c.at 4 2 == 0 || nominalKbps s t == 0 || decide (rateKbps (c.at 4 2) (c.at 6 1) * 64 ≤ nominalKbps s t * 65), badField 4),
      (decide (64 ≤ c.at 8 4) && decide (c.at 8 4 ≤ 1048576), badField 8), (decide (c.at 12 4 < c.at 8 4), badField 12)]

/-- Every tombstone waits at least for the largest limit now in force (R84). -/
def raiseTombs (s : State) : State :=
  { s with mgt.tombs := s.mgt.tombs.map (fun t => { t with limit := max t.limit (maxAgeLimit s) }) }

/-- What a SCHED_QUEUE_SET section changes. -/
def queueSetApply (c : Cmd) (s : State) : Except Fail State :=
  match c.at 0 1 with
  | 0 =>
    let q : QId := ⟨c.at 1 1 == 1, c.at 4 4⟩
    let old := qcfgOf s q
    let cfg : QCfg := { band := c.at 2 1, profile := c.at 3 1, parent := c.at 8 4, weight := c.at 12 2, pool := c.at 14 1 }
    let s := modQueue q (fun x => { x with cfg := some cfg }) s
    .ok (raiseTombs (if old.parent = cfg.parent && old.band = cfg.band then s else joinBand (.queue q) cfg.parent s))
  | 1 =>
    let g := c.at 4 4
    let b : Bind := { kind := c.at 1 1, device := c.at 8 2, target := c.at 10 2, mapped := c.at 2 1 == 1 }
    let old := voqBindOf s g
    if (old.kind != b.kind || old.device != b.device || old.target != b.target) && groupBusy s false g then
      .error (failWith St.wrongState)
    else .ok (bindVoq g b s)
  | 2 =>
    let g := c.at 4 4
    let b : Bind := { kind := c.at 1 1, target := c.at 8 2, mapped := c.at 2 1 == 1 }
    let old := eqBindOf s g
    if (old.kind != b.kind || old.target != b.target) && groupBusy s true g then .error (failWith St.wrongState)
    else .ok (bindEgress g b s)
  | 3 =>
    let p : Profile := { avgShift := c.at 2 1, ageUs := c.at 4 4, green := curveAt c 8, yellow := curveAt c 16, red := curveAt c 24 }
    .ok (raiseTombs { s with sched.profiles := mset s.sched.profiles (c.at 1 1) p })
  | _ => .ok (depthRule (c.at 2 2) (modTarget (c.at 2 2) (fun x => { x with
      rateM := c.at 4 2, rateE := c.at 6 1, stopKib := c.at 8 4, resumeKib := c.at 12 4 }) s))

/-- The places of the queues that a section names, as they will stand at the commit point (R256). -/
def queueSettled (c : Cmd) (s : State) : Option Fail :=
  let q : QId := ⟨c.at 1 1 == 1, c.at 4 4⟩
  match c.at 0 1 with
  | 0 => if queuePlaceOk s q (qcfgOf s q).parent then none else some (badField 8)
  | 2 =>
    if (List.range 8).any (fun i => let e : QId := ⟨true, c.at 4 4 * 8 + i⟩; !queuePlaceOk s e (qcfgOf s e).parent)
    then some (badField 8) else none
  | _ => none

/-- The object a SCHED_QUEUE_SET section names (R76). -/
def queueSetObject (c : Cmd) : Nat :=
  match c.at 0 1 with
  | 0 => objKey 4 (c.at 4 4) (c.at 1 1)
  | 1 => objKey 5 (c.at 4 4) 1
  | 2 => objKey 5 (c.at 4 4) 2
  | 3 => objKey 5 (c.at 1 1) 3
  | _ => objKey 5 (c.at 2 2) 4

/-- A VOQ group or an egress queue group is bound to a slice. -/
def boundTo (n : Nat) (egress : Bool) (g : Nat) (s : State) : Bool :=
  let b := if egress then eqBindOf s g else voqBindOf s g
  b.kind == 2 && b.target == n
/-- A queue section or a group that a slice names is not its own: it is bound to another destination, or the command would bind it to one (R58). -/
def foreignQueue (n sec g : Nat) (egress : Bool) (s : State) : Bool :=
  match sec with
  | 0 => !boundTo n egress (g / 8) s
  | 1 => !boundTo n false g s
  | 2 => !boundTo n true g s
  | _ => true

/-- SCHED_QUEUE_SET, 0x0B03 C. -/
def schedQueueSetSpec : CmdSpec :=
  { opcode := 0x0B03, kind := .c, replicated := fun _ => true,
    layout := fun c => match c.at 0 1 with
      | 0 => .ok { len := 16, rsvd := [rsv 15 1] }
      | 1 => .ok { len := 16, rsvd := [rsv 3 1, rsv 12 4] }
      | 2 => .ok { len := 16, rsvd := [rsv 3 1, rsv 10 6] }
      | 3 => .ok { len := 32, rsvd := [rsv 3 1, rsv 15 1, rsv 23 1, rsv 31 1] }
      | 4 => .ok { len := 16, rsvd := [rsv 1 1, rsv 7 1] }
      | _ => .error (badField 0),
    fields := queueSetFields,
    foreign := fun n c s => foreignQueue n (c.at 0 1) (c.at 4 4) (c.at 1 1 == 1) s ||
      (c.at 0 1 == 1 && c.at 1 1 != 0 && (c.at 1 1 != 2 || c.at 10 2 != n)) || (c.at 0 1 == 2 && c.at 1 1 != 0 && (c.at 1 1 != 2 || c.at 8 2 != n)),
    objects := fun c _ => [queueSetObject c],
    object := fun c _ _ => queueSetObject c / 2 ^ 8 % 2 ^ 32,
    apply := fun c s => (queueSetApply c s).map (fun s => (s, []))
    settled := queueSettled }

/-! ### SCHED_GATE_SET (R273, R274) -/

/-- An entry of a gate list at a position of the payload. -/
def gateEntryOk (c : Cmd) (i : Nat) : Bool :=
  let d := c.at (28 + 8 * i) 4
  d % 8 == 0 && decide (64 ≤ d) && decide (d ≤ 1000000000)

/-- What a snapshot tells of a gate list beside its command: whether it is operational, and its start (R314; the layout is DESIGN CHOICE, log entry 38). -/
def gateNote (operational : Bool) (l : GateList) : Nat := 1 + b2n operational * 2 + l.start % 2 ^ 62 * 4
/-- SCHED_GATE_SET, 0x0B04 C. -/
def schedGateSetSpec : CmdSpec :=
  { opcode := 0x0B04, kind := .c, replicated := fun _ => true,
    layout := fun c => plain (24 + 8 * c.at 4 2)
      ([rsv 6 2, rsv 20 4] ++ (List.range (min (c.at 4 2) 1024)).map (fun i => rsv (25 + 8 * i) 3)) c,
    fields := fun c _ =>
      let n := c.at 4 2
      let on := c.at 2 1 == 1
      firstFail ([
        (decide (c.at 0 2 < 192), badField 0), (decide (c.at 2 1 ≤ 1), badField 2),
        (if on then decide (1 ≤ n) && decide (n ≤ 1024) else n == 0, badField 4),
        (!on || (c.at 16 4 % 8 == 0 && decide (1024 ≤ c.at 16 4) && decide (c.at 16 4 ≤ 1000000000)), badField 16)] ++
        (List.range (min n 1024)).map (fun i => (gateEntryOk c i, badField (28 + 8 * i)))),
    objects := fun c _ => [objKey 6 (c.at 0 2) 0],
    object := fun c _ _ => c.at 0 2,
    apply := fun c s =>
      if c.at 2 1 = 0 then
        .ok (modGate (c.at 0 2) (fun _ => { fitAdj := c.at 3 1 }) s, [])
      else
        let told := c.path == .peer && bit c.bufAddr 0
        let l : GateList := {
          base := c.at 8 8
          cycle := c.at 16 4
          fitAdj := c.at 3 1
          entries := (List.range (c.at 4 2)).map (fun i => (c.at (24 + 8 * i) 1, c.at (28 + 8 * i) 4))
          start := if told then c.bufAddr / 4 else gateStart (c.at 8 8) (c.at 16 4) s.time.ntime }
        .ok (modGate (c.at 0 2) (fun g => if told && bit c.bufAddr 1 then { g with oper := some l, fitAdj := l.fitAdj, last := some l }
          else { g with admin := some l, last := some l }) s, []) }

/-! ### SCHED_GET -/

/-- A gate list in the payload layout of SCHED_GATE_SET. -/
def gateListBytes (port fitAdj : Nat) : Option GateList → List Byte
  | none => leBytes 2 port ++ zeros 1 ++ leBytes 1 fitAdj ++ zeros 20
  | some l => leBytes 2 port ++ leBytes 1 1 ++ leBytes 1 l.fitAdj ++ leBytes 2 l.entries.length ++ zeros 2 ++
      leBytes 8 l.base ++ leBytes 4 l.cycle ++ zeros 4 ++ (l.entries.map (fun e => leBytes 1 e.1 ++ zeros 3 ++ leBytes 4 e.2)).flatten

/-- Section 0 of a queue. -/
def queueBytes (s : State) (q : QId) : List Byte :=
  let x := qcfgOf s q
  zeros 1 ++ leBytes 1 (b2n q.egress) ++ leBytes 1 x.band ++ leBytes 1 x.profile ++ leBytes 4 q.num ++ leBytes 4 x.parent ++
  leBytes 2 x.weight ++ leBytes 1 x.pool ++ zeros 1
/-- The payload of SCHED_NODE_SET for a node. -/
def nodeBytes (s : State) (n : Nat) : List Byte :=
  let x := nodeOf s n
  leBytes 4 n ++ zeros 1 ++ leBytes 1 x.level ++ leBytes 1 x.band ++ leBytes 1 (unsigned 8 x.lenAdj) ++ leBytes 4 x.parent ++
  leBytes 2 x.weight ++ zeros 2 ++ leBytes 8 x.rate ++ leBytes 4 x.cbs ++ leBytes 4 x.pbs ++ zeros 8

/-- Section 1: a VOQ group binding. -/
def voqBindBytes (g : Nat) (b : Bind) : List Byte :=
  leBytes 1 1 ++ leBytes 1 b.kind ++ leBytes 1 (b2n b.mapped) ++ zeros 1 ++ leBytes 4 g ++ leBytes 2 b.device ++ leBytes 2 b.target ++ zeros 4
/-- Section 2: an egress queue group binding. -/
def eqBindBytes (g : Nat) (b : Bind) : List Byte :=
  leBytes 1 2 ++ leBytes 1 b.kind ++ leBytes 1 (b2n b.mapped) ++ zeros 1 ++ leBytes 4 g ++ leBytes 2 b.target ++ zeros 6

/-- SCHED_GET's result. -/
def schedGetResult (s : State) (sec i : Nat) : List Byte :=
  match sec with
  | 0 => queueBytes s ⟨bit i 31, i % 2 ^ 31⟩
  | 1 => voqBindBytes i (voqBindOf s i)
  | 2 => eqBindBytes i (eqBindOf s i)
  | 3 =>
    let p := profileOf s i
    leBytes 1 3 ++ leBytes 1 i ++ leBytes 1 p.avgShift ++ zeros 1 ++ leBytes 4 p.ageUs ++ curveBytes p.green ++
    curveBytes p.yellow ++ curveBytes p.red
  | 4 =>
    let t := targetOf s i
    leBytes 1 4 ++ zeros 1 ++ leBytes 2 i ++ leBytes 2 t.rateM ++ leBytes 1 t.rateE ++ zeros 1 ++ leBytes 4 t.stopKib ++
    leBytes 4 t.resumeKib
  | 5 => nodeBytes s i
  | _ =>
    let g := gateOf s i
    gateListBytes i g.fitAdj g.last ++ gateListBytes i g.fitAdj g.oper

/-- Number of objects of a section of SCHED_GET. -/
def schedIndexOk (sec i : Nat) : Bool :=
  match sec with
  | 0 => if bit i 31 then decide (i % 2 ^ 31 < 131072) else decide (i < 1048576)
  | 1 => decide (i < 131072) | 2 => decide (i < 16384) | 3 => decide (i < 256) | 4 => decide (i < 194)
  | 5 => decide (i < 131072) | _ => decide (i < 192)

/-- SCHED_GET, 0x0B01 R. -/
def schedGetSpec : CmdSpec :=
  { opcode := 0x0B01, kind := .r, layout := plain 8 [rsv 1 3],
    foreign := fun n c s => foreignQueue n (c.at 0 1) (c.at 4 4 % 2 ^ 31) (c.at 0 1 == 0 && bit (c.at 4 4) 31) s,
    resLen := fun c s => (schedGetResult s (c.at 0 1) (c.at 4 4)).length,
    fields := fun c _ => firstFail [(decide (c.at 0 1 ≤ 6), badField 0), (schedIndexOk (c.at 0 1) (c.at 4 4), badField 4)],
    run := fun c s =>
      if c.at 0 1 = 5 && (nodeOf s (c.at 4 4)).level = 0 then .error (failWith St.notFound)
      else .ok { s := s, result := schedGetResult s (c.at 0 1) (c.at 4 4), log := .silent } }

/-! ### BUFFER_POOL_SET and BUFFER_GET (R235, R236) -/

/-- BUFFER_POOL_SET, 0x0A02 C. -/
def bufferPoolSetSpec : CmdSpec :=
  { opcode := 0x0A02, kind := .c, replicated := fun _ => true,
    layout := fun c => match c.at 0 1 with
      | 0 => .ok { len := 48, rsvd := [rsv 3 1, rsv 36 12] }
      | 1 => .ok { len := 24, rsvd := [rsv 1 1, rsv 16 8] }
      | _ => .error (badField 0),
    fields := fun c _ =>
      if c.at 0 1 = 0 then firstFail [
        (decide (c.at 1 1 < 64), badField 1), (decide (c.at 4 4 ≤ 1047296), badField 4),
        (decide (c.at 8 4 ≤ c.at 12 4), badField 8), (decide (c.at 12 4 ≤ c.at 16 4), badField 12),
        (decide (c.at 16 4 ≤ c.at 4 4), badField 16), (decide (c.at 20 4 ≤ c.at 8 4), badField 20),
        (decide (c.at 24 4 ≤ 25165824), badField 24),
        (c.at 28 4 == 0 || (decide (64 ≤ c.at 28 4) && decide (c.at 28 4 ≤ 1047296)), badField 28),
        (if c.at 28 4 = 0 then c.at 32 4 == 0 else decide (16 ≤ c.at 32 4) && decide (c.at 32 4 ≤ c.at 28 4), badField 32)]
      else firstFail [
        (decide (c.at 2 2 < 192), badField 2), (decide (64 ≤ c.at 4 4) && decide (c.at 4 4 ≤ 1047296), badField 4),
        (decide (c.at 8 4 < c.at 4 4), badField 8), (decide (c.at 12 4 ≤ 1047296), badField 12)],
    objects := fun c _ => [objKey 7 (if c.at 0 1 = 0 then c.at 1 1 else c.at 2 2) (c.at 0 1)],
    object := fun c _ _ => if c.at 0 1 = 0 then c.at 1 1 else c.at 2 2,
    apply := fun c s =>
      if c.at 0 1 = 0 then
        .ok (poolLevels (c.at 1 1) (modPool (c.at 1 1) (fun p => { p with
          lowMask := c.at 2 1, segLimit := c.at 4 4, warn := c.at 8 4, pause := c.at 12 4, stop := c.at 16 4, hyst := c.at 20 4,
          blockLimit := c.at 24 4, spillSeg := c.at 28 4, refillSeg := c.at 32 4 }) s), [])
      else
        let cfg : AcctCfg := { xoffSeg := c.at 4 4, xonSeg := c.at 8 4, headroom := c.at 12 4 }
        let s := { s with buf.acctCfg := mset s.buf.acctCfg (c.at 2 2) cfg }
        .ok ((List.range 8).foldl (fun s i => acctUpdate (c.at 2 2 * 8 + i) s) s, []) }

/-- STATE of BUFFER_GET section 2. -/
def spillState (s : State) (q : QId) : Nat :=
  let x := queueOf s q
  let p := poolOf s (qcfgOf s q).pool
  if x.spill.isEmpty && x.tail.isEmpty then 0
  else if blockLimitOf s (qcfgOf s q).pool ≤ p.blocks && !x.tail.isEmpty then 3
  else if x.tail.isEmpty then 2 else 1

/-- BUFFER_GET's result. -/
def bufferGetResult (s : State) (sec i : Nat) : List Byte :=
  match sec with
  | 0 =>
    let p := poolOf s i
    zeros 1 ++ leBytes 1 i ++ leBytes 1 p.lowMask ++ zeros 1 ++ leBytes 4 p.segLimit ++ leBytes 4 p.warn ++ leBytes 4 p.pause ++
    leBytes 4 p.stop ++ leBytes 4 p.hyst ++ leBytes 4 p.blockLimit ++ leBytes 4 p.spillSeg ++ leBytes 4 p.refillSeg ++ zeros 12
  | 1 =>
    let a := acctCfgOf s (i / 8)
    leBytes 1 1 ++ zeros 1 ++ leBytes 2 (i / 8) ++ leBytes 4 a.xoffSeg ++ leBytes 4 a.xonSeg ++ leBytes 4 a.headroom ++ zeros 8
  | _ =>
    let q : QId := ⟨bit i 31, i % 2 ^ 31⟩
    let x := queueOf s q
    leBytes 4 (headSegs s x) ++ leBytes 4 (tailSegs s x) ++ leBytes 4 x.spill.length ++ leBytes 4 x.spilled ++
    leBytes 1 (spillState s q) ++ leBytes 1 (qcfgOf s q).pool ++ zeros 14

/-- BUFFER_GET, 0x0A01 R. -/
def bufferGetSpec : CmdSpec :=
  { opcode := 0x0A01, kind := .r, layout := plain 8 [rsv 1 3],
    resLen := fun c s => (bufferGetResult s (c.at 0 1) (c.at 4 4)).length,
    fields := fun c _ => firstFail [
      (decide (c.at 0 1 ≤ 2), badField 0),
      (match c.at 0 1 with
        | 0 => decide (c.at 4 4 < 64) | 1 => decide (c.at 4 4 < 1536) | _ => schedIndexOk 0 (c.at 4 4), badField 4)],
    run := fun c s => .ok { s := s, result := bufferGetResult s (c.at 0 1) (c.at 4 4), log := .silent } }

/-! ### Status words -/

/-- SCH_NODE_BUCKETS: the buckets as refilled up to now. -/
def nodeBucketsWord (now : Nat) (n : Node) : Nat :=
  let x := refillNode now n
  unsigned 32 (x.committed / (octetUnit : Int)) + unsigned 32 (x.peak / (octetUnit : Int)) * 2 ^ 32
/-- SCH_QUEUE_STATUS. -/
def queueStatusWord (s : State) (q : QId) : Nat :=
  let x := queueOf s q
  min (x.depth / 1024) (2 ^ 24 - 1) + b2n (queueReady s q) * 2 ^ 24 + b2n (q.egress && gateWaits s q.num) * 2 ^ 25 +
  b2n (q.egress && pausedQueue s q.num) * 2 ^ 26 + (if q.egress then 0 else unsigned 32 x.credit * 2 ^ 32)
/-- SCH_GATE_STATUS. -/
def gateStatusWord (s : State) (p : Nat) : Nat :=
  let g := gateNow s (gateOf s p)
  g.states + b2n g.oper.isSome * 2 ^ 8 + b2n g.admin.isSome * 2 ^ 9 + g.index * 2 ^ 10
/-- The words that follow SCH_GATE_STATUS: OPER_START, PENDING_START and the two counts. -/
def gateWord (s : State) (p i : Nat) : Nat :=
  let g := gateOf s p
  match i with
  | 0 => gateStatusWord s p
  | 1 => (g.oper.map (·.start)).getD 0
  | 2 => (g.admin.map (·.start)).getD 0
  | _ => counter s 0x02 p 7 % 2 ^ 32 + counter s 0x02 p 8 % 2 ^ 32 * 2 ^ 32

end Sys2Proof.Machine
end

