-- ==== Sys2Proof/Machine/Cells.lean ====
section
/-! DEFINITION. Cells and the spray set (R283-R285, R289, R292 10_fabric_interface): how the device puts a cell on its fabric lanes. -/

namespace Sys2Proof.Machine

/-- CRC-24 of a cell payload (R283). -/
def pcrc (bs : List Byte) : Nat := crcN 24 0x864CFB 0xB704CE bs
/-- CRC-16 of a cell header (R283). -/
def hcrc (bs : List Byte) : Nat := crcN 16 0x1021 0xFFFF bs

/-- The fields of a cell header, without its CRCs (R283). -/
structure CellHead where
  typ : Nat
  dest : Nat
  src : Nat
  voq : Nat
  seq : Nat
  paylen : Nat
  firstValid : Bool
  firstOff : Nat
deriving DecidableEq, Repr

/-- The bytes of a cell: bit 127 of the header is sent first. -/
def cellBytes (h : CellHead) (payload : List Byte) : List Byte :=
  let top := h.typ * 2 ^ 124 + h.dest * 2 ^ 113 + h.src * 2 ^ 102 + h.voq * 2 ^ 82 + h.seq % 2 ^ 24 * 2 ^ 58 +
    h.paylen * 2 ^ 54 + b2n h.firstValid * 2 ^ 53 + h.firstOff % 256 * 2 ^ 45 + pcrc payload * 2 ^ 16
  let first := beBytes 14 (top / 2 ^ 16)
  first ++ beBytes 2 (hcrc first) ++ payload

/-- Read a header of 16 bytes; none where its TYPE is 0 or its HCRC fails (R285). -/
def readHead (bs : List Byte) : Option (CellHead × Nat) :=
  let w := beNat (fit 16 bs)
  if bitsOf w 127 124 = 0 || hcrc (fit 14 bs) != bitsOf w 15 0 then none
  else some ({ typ := bitsOf w 127 124, dest := bitsOf w 123 113, src := bitsOf w 112 102, voq := bitsOf w 101 82,
               seq := bitsOf w 81 58, paylen := bitsOf w 57 54, firstValid := bit w 53, firstOff := bitsOf w 52 45 },
             bitsOf w 39 16)

/-- A fabric or pair lane. -/
def laneOf (s : State) (l : Nat) : Lane := mgetD s.fabric.lanes l {}
/-- Change a lane. -/
def modLane (l : Nat) (f : Lane → Lane) (s : State) : State := { s with fabric.lanes := mmod s.fabric.lanes l {} f }
/-- Fabric lanes in ACTIVE, by lane index of R19 (192 to 495). -/
def spraySet (s : State) : List Nat :=
  (s.fabric.lanes.filter (fun l => 192 ≤ l.1 && decide (l.1 < 496) && l.2.state == 4)).map (·.1)
/-- The next lane of the rotation; none where the spray set is empty (R289). -/
def nextLane (s : State) : Option Nat :=
  let set := spraySet s
  match set.find? (fun l => s.fabric.spray ≤ l) with
  | some l => some l
  | none => set.head?
/-- Send a cell on the next lane of the rotation, `n` times on consecutive lanes. -/
def sprayCell : Nat → List Byte → State → State
  | 0, _, s => s
  | n + 1, bs, s =>
    match nextLane s with
    | none => s
    | some l => sprayCell n bs (emit (.cell l bs) { s with fabric.spray := l + 1 })

/-- Send a unicast cell on the stream to a device (R289): CREDIT twice, DATA once. -/
def sendUnicast (device typ voq : Nat) (first : Option Nat) (payload : List Byte) (s : State) : State :=
  let h : CellHead := { typ := typ, dest := device, src := s.fabric.device, voq := voq, seq := (peerOf s device).txSeq,
                        paylen := payload.length / 16 - 4, firstValid := first.isSome, firstOff := first.getD 0 }
  count 0x0F device 3 1 (sprayCell (if typ = 2 then 2 else 1) (cellBytes h payload)
    (modPeer device (fun p => { p with txSeq := (p.txSeq + 1) % 2 ^ 24 }) s))

/-- Flood a cell (R289): PORT_STATUS and DEVICE_DOWN twice, PRESENCE once; nothing while the spray set is empty. -/
def floodCell (typ : Nat) (payload : List Byte) (s : State) : State :=
  if (spraySet s).isEmpty then s
  else
    let h : CellHead := { typ := typ, dest := 0, src := s.fabric.device, voq := 0, seq := s.fabric.floodSeq, paylen := 0,
                          firstValid := false, firstOff := 0 }
    sprayCell (if typ = 4 then 1 else 2) (cellBytes h (fit 64 payload)) { s with fabric.floodSeq := (s.fabric.floodSeq + 1) % 2 ^ 24 }

/-- INCARNATION of this device: the low 16 bits of its boot number (R282). -/
def incarnation (s : State) : Nat := bootNo s % 2 ^ 16

end Sys2Proof.Machine
end

