-- ==== Sys2Proof/Machine/Ports.lean ====
section
/-! DEFINITION. Network ports: placement, staging checks, MACsec, link states, pause, protection groups and the commands of class PORT (R98-R131, R501, R502 04_network_ports). -/

namespace Sys2Proof.Machine

/-! ### Placement (R98-R100, R113) -/

/-- Lanes of a physical section: the combinations of R100; 0 where there is none. -/
def ethLanes (speed rate : Nat) : Nat :=
  match speed, rate with
  | 0, 0 => 1 | 1, 1 => 1 | 2, 2 => 1 | 2, 1 => 2 | 3, 3 => 1 | 3, 2 => 2 | 3, 1 => 4 | 4, 4 => 1 | 4, 3 => 2 | 4, 2 => 4
  | 5, 4 => 2 | 5, 3 => 4 | 5, 2 => 8 | 6, 4 => 4 | 6, 3 => 8 | 7, 4 => 8 | _, _ => 0
/-- Lanes of FlexO-1, FlexO-2 and FlexO-4 as FOIC1.4, FOIC2.4 and FOIC4.8 of G.709.1 (log entry 21, PRESUMED). -/
def framedLanes (speed : Nat) : Nat := if speed = 3 || speed = 4 then 4 else if speed = 5 then 8 else 0
/-- Lane count of a physical section. -/
def physLanes (f : Phys) : Nat := if f.framed = 1 then framedLanes f.speed else ethLanes f.speed f.rate
/-- The signalling rate of its lanes as a class: the LANE_RATE codes, then the framed rates of FlexO-1 (16) and of FlexO-2 and 4 (17). -/
def rateClass (f : Phys) : Nat := if f.framed = 1 then (if f.speed = 3 then 16 else 17) else f.rate

/-- Octet lanes of a port with this section. -/
def lanesOf (f : Phys) : List Nat := (List.range (physLanes f)).map (· + f.firstLane)
/-- FEC codes a lane rate allows (R104). -/
def fecOk (rate fec : Nat) : Bool :=
  match rate with
  | 0 => decide (fec ≤ 1) | 1 => decide (fec ≤ 3) | _ => fec == 3

/-- Other configured ports of the port's octet. -/
def octetPorts (s : State) (port : Nat) : List Phys :=
  (s.ports.filter (fun p => p.1 / 8 == port / 8 && p.1 != port)).filterMap (fun p => p.2.phys)

/-- A physical section overlaps no other port (R99). -/
def placeOk (s : State) (port : Nat) (f : Phys) : Bool :=
  (octetPorts s port).all (fun o => (lanesOf f).all (fun l => !(lanesOf o).contains l))
/-- A physical section mixes no lane rates in a quad (R98, R113). -/
def ratesOk (s : State) (port : Nat) (f : Phys) : Bool :=
  (octetPorts s port).all (fun o =>
    rateClass o == rateClass f || (lanesOf f).all (fun l => (lanesOf o).all (fun m => l / 4 != m / 4)))

/-- The physical section of a PORT_CONFIG. -/
def physOf (c : Cmd) : Phys :=
  { speed := c.at 8 1, rate := c.at 9 1, firstLane := c.at 10 1, fec := c.at 11 1, training := c.at 12 1, framed := c.at 13 1,
    txInvert := c.at 14 1, rxInvert := c.at 15 1 }

/-! ### Protection groups (R127-R130, R502) -/

/-- A port of a peer device is UP as far as this device knows (R298). -/
def remoteUp (s : State) (device port : Nat) : Bool := (peerOf s device).present && mgetD (peerOf s device).ports port 0 == 1
/-- Liveness of a member of a protection group. -/
def memberLive (s : State) (m : Nat) : Bool :=
  let port := m % 256
  if m / 2 ^ 30 = 0 then (portOf s port).live
  else if m / 2 ^ 30 = 1 then
    (if s.fabric.connected && bitsOf m 26 16 != s.fabric.device then remoteUp s (bitsOf m 26 16) port
     else bitsOf m 26 16 == s.fabric.device && (portOf s port).live)
  else s.pair.link != 0 && mgetD s.pair.ports port 0 == 1

/-- Note a link state change or a switch for its record (R123). -/
def noteLink (object : Nat) (s : State) : State :=
  { s with journal.linkPending := s.journal.linkPending ++ [(s.time.uptime, object)] }

/-- Make a member active; a change is a switch. -/
def setActive (g active : Nat) (s : State) : State :=
  let x := mgetD s.groups g {}
  if x.active = active then s
  else noteLink (g * 2 ^ 16) { s with groups := mset s.groups g { x with active := active, switches := (x.switches + 1) % 2 ^ 32 } }

/-- The active member that liveness gives (R129). -/
def groupChoice (s : State) (x : ProtGroup) : Nat :=
  if x.active = 1 && memberLive s x.backup then 1
  else if memberLive s x.primary then 0 else if memberLive s x.backup then 1 else 2

/-- Start, keep or end the wait-to-restore of a group. -/
def settleWait (g : Nat) (s : State) : State :=
  let x := mgetD s.groups g {}
  let run := x.active == 1 && x.revertive && memberLive s x.primary
  let w := if !run then none else some (x.wtrEnd.getD (s.time.uptime + x.wtrS * 1000000000))
  if w = x.wtrEnd then s else { s with groups := mset s.groups g { x with wtrEnd := w } }

/-- Re-evaluate every configured group after liveness changed (R128). -/
def settleGroups (s : State) : State :=
  s.groups.foldl (fun s g =>
    settleWait g.1 (setActive g.1 (groupChoice s (mgetD s.groups g.1 {})) s)) s

/-! ### Link states (R118-R122) -/

/-- A PORT_STATUS cell payload: the message in all eight slots (log entry 22). -/
def portStatusPayload (port state change : Nat) : List Byte :=
  (List.replicate 8 (leBytes 1 port ++ leBytes 1 state ++ leBytes 1 change ++ zeros 5)).flatten

/-- Tell the fabric and the peer of a port's state (R298, R327); in the safe state the fabric is told nothing (R300). -/
def announcePort (port : Nat) (s : State) : State :=
  let p := portOf s port
  let s := if s.fabric.connected && !s.faults.safe then floodCell 3 (portStatusPayload port p.link p.change) s else s
  if s.pair.link != 0 then pairSend 3 [2, port, p.link, p.change] s else s

/-- Enter a link state (R119): liveness, records, announcements, flushes, groups. `flush` is the counter of flushed frames. Link states go on in the safe state, whose held packets stay, uncounted (R444). -/
def enterLink (port link flush : Nat) (s : State) : State :=
  let p := portOf s port
  if p.link = link then s
  else
    let s := modPort port (fun p => { p with
      link := link, live := link == 1, change := (p.change + 1) % 256,
      downCount := if link = 2 then (p.downCount + 1) % 2 ^ 24 else p.downCount,
      holdSince := if link = 2 then some s.time.uptime else none,
      upSince := if link = 1 then none else p.upSince,
      storm := if link = 1 then p.storm else 0, stormSince := if link = 1 then p.stormSince else [] }) s
    let s := announcePort port (noteLink port s)
    let s := if (link = 3 || link = 0) && !s.faults.safe then
      flushDestVoqs 1 s.fabric.device port (flushPortQueues port flush s) else s
    settleGroups s

/-- A failure condition holds (R118): UP goes to HOLD, HOLD and DOWN restart their up delay. -/
def portFails (port : Nat) (c : PortCond) (s : State) : State :=
  let p := portOf s port
  let s := modPort port (fun p => { p with
    conds := if p.conds.contains c then p.conds else p.conds ++ [c], good := false, upSince := none }) s
  let s := settleLine s.faults.safe port s
  if p.link = 1 then enterLink port 2 4 s else s

/-- The octet or a lane of the port is fenced: powered down (R439). -/
def laneFenced (s : State) (port : Nat) : Bool :=
  isFenced s (resId 0x08 (port / 8)) ||
  (((portOf s port).phys.map lanesOf).getD []).any (fun l => isFenced s (resId 0x01 (port / 8 * 8 + l)))
/-- A pipeline that serves the port is fenced (R439). -/
def pipesFenced (s : State) (port : Nat) : Bool := isFenced s (resId 0x0C (port / 16)) || isFenced s (resId 0x0C (16 + port / 16))
/-- The conditions that hold without a new detection: a fence of its octet, lane or pipelines, SERVICE 0 (R439, R441), framed actions. -/
def standing (s : State) (port : Nat) : List PortCond :=
  let p := portOf s port
  (if laneFenced s port || pipesFenced s port || service s == 0 then [.fenced] else []) ++
  (if p.los || p.lof || (p.tim && (match p.framed with | some f => f.timAct == 1 | none => false)) then [.framedActions] else [])

/-- No condition holds any more: the up delay starts (R119). -/
def portGood (port : Nat) (s : State) : State :=
  let p := portOf s port
  let left := standing s port
  let ok := left.isEmpty && p.phys.isSome
  settleLine s.faults.safe port (modPort port (fun p => { p with
    conds := left, good := ok,
    upSince := if ok && (p.link = 2 || p.link = 3) then some (p.upSince.getD s.time.uptime) else none }) s)

/-- PORT_FAILURE. -/
def execPortFailure (port : Nat) (c : PortCond) (s : State) : Host.Outcome State Fault Refusal :=
  answer s (if running s && port < 192 then portFails port c s else s)
/-- LINK_GOOD. -/
def execLinkGood (port : Nat) (s : State) : Host.Outcome State Fault Refusal :=
  answer s (if running s && port < 192 then portGood port s else s)

/-- UP_DELAY (R119, R121): a hold time that has expired takes the port through DOWN first. -/
def execUpDelay (port : Nat) (s : State) : Host.Outcome State Fault Refusal :=
  answer s (
    let p := portOf s port
    match p.upSince with
    | none => s
    | some t =>
      if !running s || !p.good || !(p.link = 2 || p.link = 3) || s.time.uptime < t + p.fwd.upDelayUs * 1000 then s
      else
        let late := match p.holdSince with | some h => decide (h + p.fwd.holdUs * 1000 ≤ s.time.uptime) | none => false
        enterLink port 1 4 (if p.link = 2 && late then enterLink port 3 4 s else s))

/-- HOLD_TIME (R121). -/
def execHoldTime (port : Nat) (s : State) : Host.Outcome State Fault Refusal :=
  answer s (match (portOf s port).holdSince with
    | some h => if running s && (portOf s port).link = 2 && h + (portOf s port).fwd.holdUs * 1000 ≤ s.time.uptime then
        enterLink port 3 4 s else s
    | none => s)

/-- WAIT_TO_RESTORE (R129). -/
def execWaitToRestore (g : Nat) (s : State) : Host.Outcome State Fault Refusal :=
  answer s (
    let x := mgetD s.groups g {}
    match x.wtrEnd with
    | some t =>
      if running s && t ≤ s.time.uptime && x.active = 1 && memberLive s x.primary then settleWait g (setActive g 0 s) else s
    | none => s)

/-- LINK_STATE_RECORD (R123): the oldest change is journalled with OPCODE 0x0600, from the reserve where need be. -/
def execLinkStateRecord (s : State) : Host.Outcome State Fault Refusal :=
  answer s (match s.journal.linkPending with
    | [] => s
    | (at_, object) :: rest =>
      if !mailboxReady s then s
      else (journalCmd { uptime := at_, generation := s.mgt.generation, object := object, opcode := 0x0600, resource := 0,
                         origin := 0x5000 } { s with journal.linkPending := rest }).2)

/-! ### Framed mode (R113-R117) -/

/-- The framed port's consequent actions start or end with its defects. -/
def settleFramed (port : Nat) (s : State) : State :=
  let p := portOf s port
  let on := (standing s port).contains .framedActions
  if on = p.conds.contains .framedActions then s
  else if on then portFails port .framedActions s
  else
    let s := settleLine s.faults.safe port (modPort port (fun p => { p with conds := p.conds.filter (· != .framedActions) }) s)
    if (portOf s port).conds.isEmpty then portGood port s else s

/-- The port runs in framed mode. -/
def isFramed (p : Port) : Bool := match p.phys with | some f => f.framed == 1 | none => false

/-- FRAMED_DEFECT (R116). -/
def execFramedDefect (port : Nat) (d : Defect) (declared : Bool) (s : State) : Host.Outcome State Fault Refusal :=
  answer s (if !running s || !isFramed (portOf s port) || !(portOf s port).enabled then s
    else settleFramed port (modPort port (fun p => match d with
      | .los => { p with los := declared } | .lof => { p with lof := declared }) s))

/-- The fields that TIM_MODE selects differ between a TTI and the expected values (R115). -/
def traceMismatch (f : Framed) (tti : List Byte) : Bool :=
  (bit f.timMode 0 && slice tti 0 16 != f.expSapi) || (bit f.timMode 1 && slice tti 16 16 != f.expDapi)

/-- TTI_MULTIFRAME (R115): three identical values in a row make the accepted TTI. The BDI bit of the same path monitoring overhead shows as BDI_RX (R131; log entry 60). -/
def execTtiMultiframe (port : Nat) (tti : Multiframe) (s : State) : Host.Outcome State Fault Refusal :=
  answer s (
    let p := portOf s port
    match p.framed with
    | none => s
    | some f =>
      if !running s || !isFramed p || !p.enabled || p.los || p.lof then s
      else
        let v := fit 64 tti.trace
        let n := if v = p.ttiSeen.1 then p.ttiSeen.2 + 1 else 1
        let s := modPort port (fun p => { p with ttiSeen := (v, min n 3), bdiRx := tti.bdi }) s
        if n < 3 then s
        else settleFramed port (modPort port (fun p => { p with tti := some v, tim := traceMismatch f v }) s))

/-! ### Pause (R124-R126) -/

/-- Nanoseconds of a number of quanta at the port's speed, rounded up. -/
def quantaNs (s : State) (port q : Nat) : Nat := if portGbps s port = 0 then 0 else ceilDiv (q * 512) (portGbps s port)

/-- Pause or resume one priority. -/
def pausePrio (port prio q : Nat) (s : State) : State :=
  if q = 0 then modPort port (fun p => { p with
    rxPaused := withBit p.rxPaused prio false, pauseEnd := mdel p.pauseEnd prio, pausedSince := mdel p.pausedSince prio }) s
  else
    let end_ := s.time.uptime + quantaNs s port q
    modPort port (fun p => { p with
      rxPaused := withBit p.rxPaused prio true, pauseEnd := mset p.pauseEnd prio end_,
      pausedSince := if bit p.rxPaused prio then p.pausedSince else mset p.pausedSince prio s.time.uptime }) s

/-- A received MAC control frame (R124, R126): always consumed. -/
def macControl (port : Nat) (bs : List Byte) (s : State) : State :=
  let p := portOf s port
  let op := beNat (slice bs 14 2)
  if op = 1 && p.fwd.flow = 1 then
    (List.range 8).foldl (fun s i => pausePrio port i (beNat (slice bs 16 2)) s) (count 0x01 port 8 1 s)
  else if op = 0x0101 && p.fwd.flow = 2 then
    let named := (setBits 8 (beNat (slice bs 17 1))).filter (fun i => bit p.fwd.pfcMask i)
    let ignored := named.filter (fun i => bit p.storm i)
    let s := if ignored.isEmpty then s else count 0x01 port 10 1 s
    let s := if named.isEmpty || named.length != ignored.length then count 0x01 port 8 1 s else s
    (named.filter (fun i => !bit p.storm i)).foldl (fun s i => pausePrio port i (beNat (slice bs (18 + 2 * i) 2)) s) s
  else count 0x01 port 9 1 s

/-- EtherType of a frame. -/
def etherType (bs : List Byte) : Nat := beNat (slice bs 12 2)

/-- The receive path of the port takes frames in (R501, R117, R439). -/
def receives (s : State) (port : Nat) : Bool :=
  trafficOn s && decide (port < 192) && (portOf s port).enabled && !(portOf s port).conds.contains .framedActions &&
  !laneFenced s port && (mgetD s.power.domains (3 + port / 32) {}).on

/-- PAUSE_FRAME. -/
def execPauseFrame (port : Nat) (bs : List Byte) (s : State) : Host.Outcome State Fault Refusal :=
  answer s (if receives s port && etherType bs = 0x8808 then macControl port bs s else s)

/-- PAUSE_EXPIRY (R124): the quanta have elapsed; link pause ends for every queue at once. -/
def execPauseExpiry (port prio : Nat) (s : State) : Host.Outcome State Fault Refusal :=
  answer s (
    let p := portOf s port
    let done := fun (i : Nat) => bit p.rxPaused i && decide (mgetD p.pauseEnd i 0 ≤ s.time.uptime)
    if prio < 8 && done prio then
      (if p.fwd.flow = 1 then (List.range 8).filter done else [prio]).foldl (fun s i => pausePrio port i 0 s) s
    else s)

/-- XOFF_REPEAT (R125). -/
def execXoffRepeat (port prio : Nat) (s : State) : Host.Outcome State Fault Refusal :=
  answer s (
    let p := portOf s port
    let i := if p.fwd.flow = 1 then 0 else prio
    if prio < 8 && bit p.txXoff prio && mgetD p.xoffAt i 0 + quantaNs s port 32768 ≤ s.time.uptime then
      sendPause port (if p.fwd.flow = 1 then none else some prio) 0xFFFF s
    else s)

/-- STORM (R126). -/
def execStorm (port prio : Nat) (s : State) : Host.Outcome State Fault Refusal :=
  answer s (
    let p := portOf s port
    match mget p.pausedSince prio with
    | none => s
    | some t =>
      if trafficOn s && p.fwd.flow = 2 && p.fwd.stormMs != 0 && p.link = 1 && !bit p.storm prio &&
          t + p.fwd.stormMs * 1000000 ≤ s.time.uptime then
        noteLink port (modPort port (fun p => { p with storm := withBit p.storm prio true, stormSince := mset p.stormSince prio s.time.uptime })
          (pausePrio port prio 0 s))
      else s)

/-- STORM_END (R126). -/
def execStormEnd (port prio : Nat) (s : State) : Host.Outcome State Fault Refusal :=
  answer s (
    let p := portOf s port
    match mget p.stormSince prio with
    | none => s
    | some t =>
      if t + 1000000000 ≤ s.time.uptime then
        noteLink port (modPort port (fun p => { p with storm := withBit p.storm prio false, stormSince := mdel p.stormSince prio }) s)
      else s)

/-! ### MACsec (R108-R112; IEEE 802.1AE as the standard defines it, log entry 20) -/

/-- Nonce of GCM-AES-XPN-256: SSCI and the 64-bit PN, XOR the salt. -/
def xpnIv (sa : Sa) (pn : Nat) : List Byte :=
  List.zipWith (fun (a b : Byte) => a ^^^ b) (beBytes 4 sa.ssci ++ beBytes 8 pn) (fit 12 sa.salt)

/-- SecTAG with an explicit SCI (log entry 23). -/
def secTag (sa : Sa) (pn len : Nat) : List Byte :=
  [0x88, 0xE5] ++ beBytes 1 (0x20 + (if sa.mode = 2 then 0x0C else 0) + sa.an) ++ beBytes 1 (if len < 48 then len else 0) ++
  beBytes 4 (pn % 2 ^ 32) ++ beBytes 8 sa.sci

/-- A protected frame: addresses, SecTAG, secure data, ICV. -/
def protectFrame (sa : Sa) (pn : Nat) (frame : List Byte) : List Byte :=
  let addr := frame.take 12
  let data := frame.drop 12
  let tag := secTag sa pn data.length
  if sa.mode = 2 then
    let r := gcmSeal sa.sak (xpnIv sa pn) (addr ++ tag) data
    addr ++ tag ++ r.1 ++ r.2
  else addr ++ tag ++ data ++ (gcmSeal sa.sak (xpnIv sa pn) (addr ++ tag ++ data) []).2

/-- The transmit SA in use. -/
def txSa (p : Port) : Option Sa := p.sas.find? (fun a => a.direction == 0 && a.mode != 0)

/-- Change an SA of a port. -/
def modSa (port : Nat) (sa : Sa) (f : Sa → Sa) (s : State) : State :=
  modPort port (fun p => { p with sas := p.sas.map (fun a =>
    if a.direction == sa.direction && a.an == sa.an && a.sc == sa.sc then f a else a) }) s

/-- MACsec on transmit (R108, R111): none where the frame is dropped as PN_EXHAUSTED; the flag says that it is protected. -/
def macsecTx (port : Nat) (frame : List Byte) (s : State) : Option (List Byte × Bool) × State :=
  match txSa (portOf s port) with
  | none => (some (frame, false), s)
  | some sa =>
    if etherType frame = 0x888E then (some (frame, false), s)
    else if 2 ^ 64 ≤ sa.pn then (none, count 0x02 port 6 1 s)
    else
      let warn := !sa.warned && decide (2 ^ 64 - 2 ^ 32 < sa.pn + 1)
      let s := modSa port sa (fun a => { a with pn := a.pn + 1, warned := a.warned || warn }) s
      let s := if warn then modPort port (fun p => { p with pnWarn := true }) s else s
      (some (protectFrame sa sa.pn frame, true), s)

/-- What receive processing makes of a frame: the frame and whether it was protected, or none where it is dropped. -/
structure RxSec where
  frame : List Byte
  secured : Bool
deriving DecidableEq, Repr

/-- 64-bit PN of a received 32-bit PN (802.1AEbw): the upper half of the next expected one, plus one where the lower half has wrapped. -/
def recoverPn (next low : Nat) : Nat :=
  let hi := next / 2 ^ 32
  if 2 ^ 31 ≤ next % 2 ^ 32 && low < 2 ^ 31 then (hi + 1) * 2 ^ 32 + low else hi * 2 ^ 32 + low

/-- Validate a frame with a SecTAG, its secure data and its ICV against an SA in use (R112). -/
def validateSa (port : Nat) (sa : Sa) (frame tag data icv : List Byte) (s : State) : Option RxSec × State :=
  let enc := bit (u8 tag 2) 3
  let pn := recoverPn sa.next (beNat (slice tag 4 4))
  let addr := frame.take 12
  let plain := if enc then gcmOpen sa.sak (xpnIv sa pn) (addr ++ tag) data icv
    else (gcmOpen sa.sak (xpnIv sa pn) (addr ++ tag ++ data) [] icv).map (fun _ => data)
  if pn < sa.pn then (none, count 0x01 port 16 1 s)
  else match plain with
    | some d =>
      let s := modSa port sa (fun a => { a with next := max a.next (pn + 1), pn := max a.pn (max a.next (pn + 1) - a.window) }) s
      (some ⟨addr ++ d, true⟩, s)
    | none =>
      if sa.mode = 2 then (none, count 0x01 port 18 1 s)
      else (some ⟨addr ++ data, true⟩, count 0x01 port 17 1 s)

/-- Receive processing of MACsec (R112). A port without a receive SA passes every frame; the port is strict where one of its SAs is. The SecTAG is checked as IEEE 802.1AE has it: SL gives the octets of secure data where there are fewer than 48 (log entry 23). -/
def macsecRx (port : Nat) (frame : List Byte) (s : State) : Option RxSec × State :=
  let p := portOf s port
  let rx := p.sas.filter (fun a => a.direction == 1)
  let strict := rx.any (fun a => a.mode == 2)
  if rx.all (fun a => a.mode == 0) || etherType frame = 0x888E then (some ⟨frame, false⟩, s)
  else if etherType frame != 0x88E5 then
    if strict then (none, count 0x01 port 12 1 s) else (some ⟨frame, false⟩, count 0x01 port 11 1 s)
  else
    let tci := u8 frame 14
    let tagLen := if bit tci 5 then 16 else 8
    let tag := slice frame 12 tagLen
    let body := frame.drop (12 + tagLen)
    let sl := u8 frame 15
    let short := decide (body.length < (if sl = 0 then 48 else sl) + 16)
    if bit tci 7 || (bit tci 5 && (bit tci 6 || bit tci 4)) || 64 ≤ sl || short || bit tci 3 != bit tci 2 then
      (none, count 0x01 port 13 1 s)
    else
      let data := body.take (if sl = 0 then body.length - 16 else sl)
      let icv := (body.drop data.length).take 16
      let sci := if bit tci 5 then beNat (slice tag 8 8) else beNat (slice frame 6 6) * 2 ^ 16 + 1
      let sc := rx.filter (fun a => a.sci == sci)
      let an := tci % 4
      match sc.find? (fun a => a.an == an) with
      | some sa =>
        if sa.mode = 0 then
          if strict then (none, count 0x01 port 19 1 s)
          else (some ⟨frame.take 12 ++ data, true⟩, count 0x01 port 20 1 s)
        else validateSa port sa frame tag data icv s
      | none =>
        if strict then (none, count 0x01 port (if sc.isEmpty then 15 else 19) 1 s)
        else (some ⟨frame.take 12 ++ data, true⟩, count 0x01 port (if sc.isEmpty then 14 else 20) 1 s)

/-! ### Reception (R101, R106, R114, R501) -/

/-- Count what the FEC of a lane of the port reports (R106). -/
def fecCount (port : Nat) (x : Nat × Nat × Nat × Nat) (s : State) : State :=
  let l := port / 8 * 8 + x.1 % 8
  count 0x03 l 2 x.2.2.2 (count 0x03 l 1 x.2.2.1 (count 0x03 l 0 x.2.1 s))

/-- FRAME_RECEIVE: the staging checks in their order, then the frame waits for a header slot. -/
def frameReceive (f : RxFrame) (s : State) : State :=
  let p := portOf s f.port
  let len := f.bytes.length + 4
  if !receives s f.port then s
  else
  let s := f.fec.foldl (fun s x => fecCount f.port x s) s
  if isFramed p && !f.adapted then count 0x01 f.port 7 1 s
  else if !f.room || pipesFenced s f.port then count 0x01 f.port 6 1 s
  else if f.fecError then count 0x01 f.port 3 1 s
  else if len < 64 then count 0x01 f.port 4 1 s
  else if p.fwd.maxFrame < len then count 0x01 f.port 5 1 s
  else if !f.fcsOk then count 0x01 f.port 2 1 s
  else if etherType f.bytes = 0x8808 then macControl f.port f.bytes s
  else match macsecRx f.port f.bytes s with
    | (none, s) => s
    | (some r, s) =>
      let a : Arrival := { bytes := r.frame, rxTime := s.time.ntime, macsec := r.secured, framed := isFramed p }
      { s with staging := mmod s.staging f.port [] (fun q => q ++ [a]) }

/-- FRAME_RECEIVE. -/
def execFrameReceive (f : RxFrame) (s : State) : Host.Outcome State Fault Refusal := answer s (frameReceive f s)

/-! ### PORT_CONFIG -/

/-- SPEED code that matches an INTERFACE (R113). -/
def interfaceSpeed (i : Nat) : Nat := if i = 1 then 3 else if i = 2 then 4 else 5

/-- Checks of a physical section (R98-R100, R104, R105, R113). -/
def physFields (c : Cmd) (s : State) : Option Fail :=
  let f := physOf c
  firstFail [
    (decide (f.speed ≤ 7) && (f.framed != 1 || (3 ≤ f.speed && decide (f.speed ≤ 5))), badField 8),
    (if f.framed = 1 then f.rate == 0xFF else f.framed != 0 || ethLanes f.speed f.rate != 0, badField 9),
    (decide (f.firstLane ≤ 7) && f.firstLane == c.at 0 2 % 8 && (physLanes f == 0 || f.firstLane % physLanes f == 0), badField 10),
    (if f.framed = 1 then decide (f.fec ≤ 3) else fecOk f.rate f.fec, badField 11),
    (decide (f.training ≤ 2), badField 12), (decide (f.framed ≤ 1), badField 13),
    (placeOk s (c.at 0 2) f, badField 10), (ratesOk s (c.at 0 2) f, badField 9),
    (f.framed != 1 || (match (portOf s (c.at 0 2)).framed with | some g => f.speed == interfaceSpeed g.interface | none => true), badField 8)]

/-- Ports in framed mode besides this one. -/
def framedPorts (s : State) (port : Nat) : Nat := (s.ports.filter (fun p => p.1 != port && isFramed p.2)).length

/-- Checks of the fields of a PORT_CONFIG. -/
def portConfigFields (c : Cmd) (s : State) : Option Fail :=
  if 192 ≤ c.at 0 2 then some (badField 0)
  else match c.at 2 1 with
  | 0 => physFields c s
  | 1 => firstFail [
      (decide (64 ≤ c.at 8 2) && decide (c.at 8 2 ≤ 16000), badField 8), (decide (c.at 10 1 ≤ 2), badField 10),
      (c.at 10 1 == 2 || c.at 11 1 == 0, badField 11), (decide (c.at 12 4 ≤ 100000), badField 12),
      (decide (c.at 16 4 ≤ 10000000), badField 16), (decide (c.at 20 2 ≤ 10000), badField 20),
      (decide (c.at 24 4 < 4096), badField 24)]
  | 2 => firstFail [
      (decide (c.at 8 1 ≤ 1), badField 8), (decide (c.at 9 1 ≤ 3), badField 9),
      (if c.at 8 1 = 0 then c.at 10 1 == 0 else decide (c.at 10 1 ≤ 15), badField 10), (decide (c.at 11 1 ≤ 2), badField 11),
      (decide (c.at 44 4 ≤ 2 ^ 30), badField 44)]
  | _ => firstFail [
      (c.at 8 1 == 1 || c.at 8 1 == 2 || c.at 8 1 == 4, badField 8), (decide (c.at 9 1 ≤ 3), badField 9),
      (decide (c.at 10 1 ≤ 1), badField 10)]

/-- The SA a MACsec section sets. -/
def saOf (c : Cmd) : Sa :=
  { direction := c.at 8 1, an := c.at 9 1, sc := c.at 10 1, mode := c.at 11 1, ssci := c.at 12 4, sci := c.at 16 8, pn := c.at 24 8,
    next := c.at 24 8, setPn := c.at 24 8, salt := slice c.payload 32 12, window := c.at 44 4, sak := slice c.payload 48 32,
    warned := false }

/-- Install an SA (R110): a transmit SA in use ends every other transmit SA. -/
def installSa (sa : Sa) (sas : List Sa) : List Sa :=
  let rest := sas.filter (fun a => !(a.direction == sa.direction && a.an == sa.an && a.sc == sa.sc))
  (if sa.direction = 0 && sa.mode != 0 then rest.map (fun a => if a.direction = 0 then { a with mode := 0 } else a) else rest) ++ [sa]

/-- Before FLOW changes, the XOFF in force is ended in the form in which it was sent (R125). -/
def releaseXoff (n : Nat) (s : State) : State :=
  let p := portOf s n
  let s := if p.txXoff = 0 then s
    else if p.fwd.flow = 1 then sendPause n none 0 s
    else (setBits 8 p.txXoff).foldl (fun s i => sendPause n (some i) 0 s) s
  modPort n (fun p => { p with txXoff := 0, xoffAt := [] }) s
/-- Install a physical section: a port that goes back to Ethernet has no framed defects and no trace (R113-R117). -/
def installPhys (n : Nat) (f : Phys) (s : State) : State :=
  let plain := fun (p : Port) => { p with
    los := false, lof := false, tim := false, bdiRx := false, tti := none, ttiSeen := ([], 0), conds := p.conds.filter (· != .framedActions) }
  settleLine s.faults.safe n (modPort n (fun p =>
    let p := { p with phys := some f, good := false }
    if f.framed = 1 then p else plain p) s)

/-- What a PORT_CONFIG changes. A forwarding section that changes FLOW or PFC_MASK keeps the priorities that the peer has paused only where they stay allowed, and resumes the others (DESIGN CHOICE, log entry 90). A framed section compares the accepted TTI with its expected values at once (R115). -/
def portConfigApply (c : Cmd) (s : State) : Except Fail State :=
  let n := c.at 0 2
  match c.at 2 1 with
  | 0 =>
    if (portOf s n).enabled then .error (failWith St.wrongState)
    else if (physOf c).framed = 1 && 16 ≤ framedPorts s n then .error (failWith St.noSpace)
    else match physFields c s with
      | some f => .error f
      | none => .ok (installPhys n (physOf c) s)
  | 1 =>
    let f : Fwd := { maxFrame := c.at 8 2, flow := c.at 10 1, pfcMask := c.at 11 1, holdUs := c.at 12 4, upDelayUs := c.at 16 4,
                     stormMs := c.at 20 2, defaultAction := c.at 24 4, sourceMac := c.at 28 6 }
    let keep := fun (i : Nat) => f.flow == 1 || (f.flow == 2 && bit f.pfcMask i)
    let same := f.flow == (portOf s n).fwd.flow
    let s := if same then s else releaseXoff n s
    let s := modPort n (fun p => { p with fwd := f }) s
    let s := (List.range 8).foldl (fun s i => if keep i && same then s else pausePrio n i 0 s) s
    .ok ((List.range 8).foldl (fun s i => signalXoff n i (acctUpdate (n * 8 + i) s)) s)
  | 2 => .ok (modPort n (fun p => { p with sas := installSa (saOf c) p.sas }) s)
  | _ =>
    if (portOf s n).enabled then .error (failWith St.wrongState)
    else if (match (portOf s n).phys with | some f => f.framed == 1 && f.speed != interfaceSpeed (c.at 8 1) | none => false) then
      .error (badField 8)
    else
      let f : Framed := { interface := c.at 8 1, timMode := c.at 9 1, timAct := c.at 10 1, expSapi := slice c.payload 16 16,
                          expDapi := slice c.payload 32 16, txTti := slice c.payload 48 64 }
      .ok (settleFramed n (modPort n (fun p => { p with
        framed := some f, tim := match p.tti with | some v => traceMismatch f v | none => p.tim }) s))

/-- PORT_CONFIG, 0x0602 C. -/
def portConfigSpec : CmdSpec :=
  { opcode := 0x0602, kind := .c, replicated := fun c => c.at 2 1 != 2,
    layout := fun c => match c.at 2 1 with
      | 0 => .ok { len := 32, rsvd := [rsv 3 5, rsv 16 16] }
      | 1 => .ok { len := 48, rsvd := [rsv 3 5, rsv 22 2, rsv 34 14] }
      | 2 => .ok { len := 80, rsvd := [rsv 3 5] }
      | 3 => .ok { len := 128, rsvd := [rsv 3 5, rsv 11 5, rsv 112 16] }
      | _ => .error (badField 2),
    fields := portConfigFields,
    objects := fun c _ => [objKey 8 (c.at 0 2) 0],
    object := fun c _ _ => c.at 0 2,
    banked := fun c => (c.at 2 1 == 1 || c.at 2 1 == 2, c.at 2 1 == 1 || c.at 2 1 == 2),
    apply := fun c s => (portConfigApply c s).map (fun s => (s, [])) }

/-! ### PORT_ENABLE, PORT_DISABLE, PORT_PROTECT_SET -/

/-- Enable a port that has a physical section (R103); while every port is held disabled, only note it (R314). -/
def enablePort (n : Nat) (s : State) : State :=
  if s.pair.holding then { s with pair.held := (s.pair.held ++ [n]).eraseDups }
  else if (portOf s n).enabled then s
  else enterLink n 3 4 (settleLine s.faults.safe n
    (modPort n (fun p => { p with enabled := true, upSince := if p.good then some s.time.uptime else none }) s))
/-- Disable a port (R103). -/
def disablePort (n : Nat) (s : State) : State :=
  let s := { s with pair.held := s.pair.held.filter (· != n) }
  let p := portOf s n
  if !p.enabled then s
  else
    let s := modPort n (fun p => { p with
      enabled := false, upSince := none, rxPaused := 0, pauseEnd := [], pausedSince := [] }) s
    enterLink n 0 5 (settleLine s.faults.safe n s)

/-- PORT_ENABLE, 0x0603 C (R103). -/
def portEnableSpec : CmdSpec :=
  { opcode := 0x0603, kind := .c, replicated := fun _ => true, layout := plain 2 [],
    fields := fun c _ => firstFail [(decide (c.at 0 2 < 192), badField 0)],
    objects := fun c _ => [objKey 8 (c.at 0 2) 0],
    object := fun c _ _ => c.at 0 2,
    apply := fun c s =>
      if (portOf s (c.at 0 2)).phys.isNone then .error (failWith St.wrongState) else .ok (enablePort (c.at 0 2) s, []) }

/-- PORT_DISABLE, 0x0604 C (R103). -/
def portDisableSpec : CmdSpec :=
  { opcode := 0x0604, kind := .c, replicated := fun _ => true, layout := plain 2 [],
    fields := fun c _ => firstFail [(decide (c.at 0 2 < 192), badField 0)],
    objects := fun c _ => [objKey 8 (c.at 0 2) 0],
    object := fun c _ _ => c.at 0 2,
    apply := fun c s => .ok (disablePort (c.at 0 2) s, []) }

/-- A member field of PORT_PROTECT_SET (R127). -/
def memberOk (m : Nat) : Bool :=
  decide (m / 2 ^ 30 ≤ 2) && decide (m % 256 < 192) && (m / 2 ^ 30 == 1 || bitsOf m 26 16 == 0)

/-- PORT_PROTECT_SET, 0x0605 C (R127, R502). -/
def portProtectSetSpec : CmdSpec :=
  { opcode := 0x0605, kind := .c, replicated := fun _ => true,
    layout := plain 16 [rsv 3 1, rsv 6 2, (8, 4, 0x3800FF00), (12, 4, 0x3800FF00)],
    fields := fun c _ => firstFail [
      (decide (c.at 0 2 < 4096), badField 0), (decide (c.at 2 1 ≤ 1), badField 2), (decide (c.at 4 2 ≤ 720), badField 4),
      (memberOk (c.at 8 4), badField 8), (memberOk (c.at 12 4), badField 12)],
    objects := fun c _ => [objKey 9 (c.at 0 2) 0],
    object := fun c _ _ => c.at 0 2,
    apply := fun c s =>
      let g := c.at 0 2
      let old := mget s.groups g
      let x := old.getD {}
      let same := old.isSome && x.primary == c.at 8 4 && x.backup == c.at 12 4
      let y := { x with revertive := c.at 2 1 == 1, wtrS := c.at 4 2, primary := c.at 8 4, backup := c.at 12 4 }
      if same then
        let s := { s with groups := mset s.groups g y }
        .ok (if y.revertive == x.revertive then s else settleWait g s, [])
      else
        let s := { s with groups := mset s.groups g { y with wtrEnd := none } }
        .ok (setActive g (if memberLive s y.primary then 0 else if memberLive s y.backup then 1 else 2) s, []) }

/-! ### PORT_GET (R131) -/

/-- NET_PORT_STATUS. -/
def portStatusWord (p : Port) : Nat :=
  p.link + b2n p.live * 4 + b2n (p.good && p.conds.isEmpty) * 8 + b2n (p.conds.contains .localFault) * 16 +
  b2n (p.conds.contains .remoteFault) * 32 + b2n (p.los || p.conds.contains .lossOfSignal) * 64 + b2n p.lof * 128 +
  b2n p.tim * 256 + b2n p.bdiRx * 512 + b2n p.pnWarn * 1024 + p.rxPaused * 2 ^ 16 + p.txXoff * 2 ^ 24 + p.storm * 2 ^ 32 +
  p.downCount * 2 ^ 40
/-- NET_PROT_STATUS. -/
def protStatusWord (g : ProtGroup) : Nat := g.active + b2n g.wtrEnd.isSome * 4 + g.switches * 2 ^ 32

/-- First bytes of a PORT_CONFIG payload. -/
def portHead (n sec : Nat) : List Byte := leBytes 2 n ++ leBytes 1 sec ++ zeros 5
/-- Section 0. -/
def physBytes (n : Nat) (f : Phys) : List Byte :=
  portHead n 0 ++ leBytes 1 f.speed ++ leBytes 1 f.rate ++ leBytes 1 f.firstLane ++ leBytes 1 f.fec ++ leBytes 1 f.training ++
  leBytes 1 f.framed ++ leBytes 1 f.txInvert ++ leBytes 1 f.rxInvert ++ zeros 16
/-- Section 1. -/
def fwdBytes (n : Nat) (f : Fwd) : List Byte :=
  portHead n 1 ++ leBytes 2 f.maxFrame ++ leBytes 1 f.flow ++ leBytes 1 f.pfcMask ++ leBytes 4 f.holdUs ++ leBytes 4 f.upDelayUs ++
  leBytes 2 f.stormMs ++ zeros 2 ++ leBytes 4 f.defaultAction ++ leBytes 6 f.sourceMac ++ zeros 14
/-- Section 2. -/
def saBytes (n dir an sc : Nat) : Option Sa → List Byte
  | none => portHead n 2 ++ leBytes 1 dir ++ leBytes 1 an ++ leBytes 1 sc ++ zeros 69
  | some a => portHead n 2 ++ leBytes 1 dir ++ leBytes 1 an ++ leBytes 1 sc ++ leBytes 1 a.mode ++ leBytes 4 a.ssci ++
      leBytes 8 a.sci ++ leBytes 8 a.setPn ++ fit 12 a.salt ++ leBytes 4 a.window ++ sakShown a.sak
/-- Section 3. -/
def framedBytes (n : Nat) (f : Framed) : List Byte :=
  portHead n 3 ++ leBytes 1 f.interface ++ leBytes 1 f.timMode ++ leBytes 1 f.timAct ++ zeros 5 ++ fit 16 f.expSapi ++
  fit 16 f.expDapi ++ fit 64 f.txTti ++ zeros 16
/-- Payload of PORT_PROTECT_SET as last committed. -/
def protBytes (g : Nat) (x : ProtGroup) : List Byte :=
  leBytes 2 g ++ leBytes 1 (b2n x.revertive) ++ zeros 1 ++ leBytes 2 x.wtrS ++ zeros 2 ++ leBytes 4 x.primary ++ leBytes 4 x.backup

/-- PORT_GET's result; none where the section was never committed, also where a protection group was never set (DESIGN CHOICE, log entry 90). -/
def portGetResult (s : State) (n sec dir an sc : Nat) : Option (List Byte) :=
  let p := portOf s n
  match sec with
  | 0 => p.phys.map (physBytes n)
  | 1 => some (fwdBytes n p.fwd)
  | 2 => some (saBytes n dir an sc (p.sas.find? (fun a => a.direction == dir && a.an == an && a.sc == sc)))
  | 3 => p.framed.map (framedBytes n)
  | 4 => some (leBytes 8 (portStatusWord p))
  | _ => (mget s.groups n).map (fun g => protBytes n g ++ leBytes 8 (protStatusWord g))

/-- PORT_GET, 0x0601 R. -/
def portGetSpec : CmdSpec :=
  { opcode := 0x0601, kind := .r, layout := plain 8 [rsv 6 2],
    resLen := fun c s => ((portGetResult s (c.at 0 2) (c.at 2 1) (c.at 3 1) (c.at 4 1) (c.at 5 1)).getD []).length,
    fields := fun c _ => firstFail [
      (decide (c.at 2 1 ≤ 5), badField 2), (decide (c.at 0 2 < (if c.at 2 1 = 5 then 4096 else 192)), badField 0),
      (if c.at 2 1 = 2 then decide (c.at 3 1 ≤ 1) else c.at 3 1 == 0, badField 3),
      (if c.at 2 1 = 2 then decide (c.at 4 1 ≤ 3) else c.at 4 1 == 0, badField 4),
      (if c.at 2 1 = 2 && c.at 3 1 = 1 then decide (c.at 5 1 ≤ 15) else c.at 5 1 == 0, badField 5)],
    run := fun c s => match portGetResult s (c.at 0 2) (c.at 2 1) (c.at 3 1) (c.at 4 1) (c.at 5 1) with
      | some r => .ok { s := s, result := r, log := .silent }
      | none => .error (failWith St.notFound) }

end Sys2Proof.Machine
end

