-- ==== Sys2Proof/Machine/Cuckoo.lean ====
section
/-! DEFINITION. The engine of one exact-match table instance: candidate buckets, lookup, cuckoo placement, relocation, stash, eviction and refill (R166-R177, R187 06_lookup_tables). -/

namespace Sys2Proof.Machine

/-- Bytes padded to a multiple of 8. -/
def pad8 (n : Nat) : Nat := ceilDiv n 8 * 8

/-- Entry header (R166). -/
def entryHeader (e : Entry) : Nat :=
  1 + b2n e.hit * 2 + b2n e.clearSeen * 4 + b2n e.static * 8 + b2n e.learned * 16 + e.ageEpoch * 2 ^ 8 + e.handle * 2 ^ 24

/-- CRC-32C of R173: the seed as start value, the standard final inversion. -/
def crc32c (seed : Nat) (key : List Byte) : Nat := crc32cRaw seed key ^^^ 0xFFFFFFFF

/-- Candidate buckets of a key (R173). -/
def buckets (x : Table) (key : List Byte) : Nat × Nat :=
  let b0 := crc32c x.seed0 key * x.buckets / 2 ^ 32
  let b1 := crc32c x.seed1 key * x.buckets / 2 ^ 32
  (b0, if b1 = b0 then (b0 + 1) % x.buckets else b1)

/-- Slots of a bucket: slot number is 4 × bucket + slot. -/
def bucketSlots (b : Nat) : List Nat := [4 * b, 4 * b + 1, 4 * b + 2, 4 * b + 3]
/-- The eight slots where a key may stand, b0 first. -/
def places (x : Table) (key : List Byte) : List Nat := bucketSlots (buckets x key).1 ++ bucketSlots (buckets x key).2

/-- The slot among some that holds a key. -/
def slotWith (inst : TInst) (key : List Byte) (ns : List Nat) : Option Nat :=
  ns.find? (fun n => match mget inst.slots n with | some e => e.key == key | none => false)
/-- The stash entry that holds a key. -/
def stashWith (inst : TInst) (key : List Byte) : Option (Nat × Entry) := inst.stash.find? (fun p => p.2.key == key)

/-- A lookup reads b0, b1, the stash and REL (R174). -/
def findEntry (x : Table) (inst : TInst) (key : List Byte) : Option Entry :=
  match slotWith inst key (places x key) with
  | some n => mget inst.slots n
  | none => match stashWith inst key with
    | some p => some p.2
    | none => match inst.rel with
      | some (e, _) => if e.key == key then some e else none
      | none => none

/-- Change an entry wherever it stands: slots, stash and REL hold the same fields and data (R174). -/
def onKey (key : List Byte) (f : Entry → Entry) (inst : TInst) : TInst :=
  let g := fun (e : Entry) => if e.key == key then f e else e
  { inst with slots := mmap inst.slots (fun _ e => g e), stash := mmap inst.stash (fun _ e => g e),
              rel := inst.rel.map (fun p => (g p.1, p.2)) }

/-- The entries of an instance: slots, then the stash. REL holds only copies. -/
def entriesOf (inst : TInst) : List Entry := inst.slots.map (·.2) ++ inst.stash.map (·.2)

/-- Lowest number that is not used. -/
def lowestFree (used : List Nat) : Nat := kthFree (sortAsc used) 0

/-- Lowest free slot of a bucket. -/
def freeSlot (inst : TInst) (b : Nat) : Option Nat := (bucketSlots b).find? (fun n => (mget inst.slots n).isNone)
/-- The other candidate bucket of a key that stands in bucket `b`. -/
def otherBucket (x : Table) (b : Nat) (key : List Byte) : Nat :=
  if (buckets x key).1 = b then (buckets x key).2 else (buckets x key).1
/-- The other bucket of the occupant of a slot. -/
def nextBucket (x : Table) (inst : TInst) (n : Nat) : Option Nat :=
  (mget inst.slots n).map (fun e => otherBucket x (n / 4) e.key)

/-- The paths one move longer: each goes on with the slots of the next bucket that no path has reached. -/
def longerPaths (x : Table) (inst : TInst) : List (List Nat) → List Nat → List (List Nat) × List Nat
  | [], seen => ([], seen)
  | p :: ps, seen =>
    let new := match p.head?.bind (nextBucket x inst) with
      | some b => (bucketSlots b).filter (fun m => !seen.contains m)
      | none => []
    let r := longerPaths x inst ps (seen ++ new)
    (new.map (fun m => m :: p) ++ r.1, r.2)

/-- Breadth-first search for a relocation path (R175 step 4): the free slot it ends in and the slots to move, last first. -/
def searchPath (x : Table) (inst : TInst) : Nat → List (List Nat) → List Nat → Option (Nat × List Nat)
  | 0, _, _ => none
  | d + 1, paths, seen =>
    match paths.findSome? (fun p => ((p.head?.bind (nextBucket x inst)).bind (freeSlot inst)).map (fun y => (y, p))) with
    | some r => some r
    | none =>
      let r := longerPaths x inst paths seen
      searchPath x inst d r.1 r.2

/-- Move one entry by copy-then-switch (R176): HIT set, and REL holds the copy from now on. -/
def moveEntry (now src dst : Nat) (inst : TInst) : TInst :=
  match mget inst.slots src with
  | none => inst
  | some e =>
    let e := { e with hit := true }
    { inst with slots := mset (mdel inst.slots src) dst e, rel := some (e, now) }

/-- Make the moves of a path from its end backwards; answers the slot freed last. -/
def makeMoves (now : Nat) : Nat → List Nat → TInst → TInst × Nat
  | y, [], inst => (inst, y)
  | y, n :: rest, inst => makeMoves now n rest (moveEntry now n y inst)

/-- What an insert did. -/
structure Placed where
  inst : TInst
  evicted : Option Entry := none
  moves : Nat := 0

/-- The age of a candidate for eviction (R187). -/
def evictAge (inst : TInst) (e : Entry) : Nat := (inst.sweeps + 2 ^ 16 - e.ageEpoch % 2 ^ 16) % 2 ^ 16

/-- Slots of the candidates for eviction: the entries of b0 and b1 that are not STATIC and not already deleted. -/
def evictable (x : Table) (inst : TInst) (gone : List (List Byte)) (key : List Byte) : List Nat :=
  (places x key).eraseDups.filter (fun n => match mget inst.slots n with
    | some e => !e.static && !gone.contains e.key
    | none => false)

/-- The oldest of some slots, the first among equals. -/
def oldestSlot (inst : TInst) : List Nat → Option Nat
  | [] => none
  | n :: ns =>
    let age := fun (m : Nat) => match mget inst.slots m with | some e => evictAge inst e | none => 0
    match oldestSlot inst ns with
    | none => some n
    | some m => some (if age n < age m then m else n)

/-- The victim under FULL_POLICY 1 or 2; `rnd` chooses under policy 2. -/
def victim (x : Table) (inst : TInst) (gone : List (List Byte)) (key : List Byte) (rnd : Nat) : Option Nat :=
  let ns := evictable x inst gone key
  if x.policy.full = 1 then oldestSlot inst ns
  else if x.policy.full = 2 then ns[rnd % ns.length]?
  else none

/-- Steps 2 to 6 of R175 for a key that is not present: none where the insert is refused with NO_SPACE. `held` is the number of entries that count against CAPACITY, `gone` the keys whose delete is pending. -/
def placeEntry (x : Table) (inst : TInst) (gone : List (List Byte)) (held : Nat) (e : Entry) (now rnd : Nat) : Option Placed :=
  let b := buckets x e.key
  let evict : Option Placed :=
    match victim x inst gone e.key rnd with
    | none => none
    | some n =>
      let old := mget inst.slots n
      let drop := fun (r : Option (Entry × Nat)) => match r, old with
        | some (m, t), some o => if m.key == o.key then none else some (m, t)
        | r, _ => r
      some { inst := { inst with slots := mset inst.slots n e, rel := drop inst.rel }, evicted := old }
  if x.capacity ≤ held then evict
  else match (freeSlot inst b.1).or (freeSlot inst b.2) with
    | some n => some { inst := { inst with slots := mset inst.slots n e } }
    | none =>
      match searchPath x inst 8 ((places x e.key).map (fun n => [n])) (places x e.key) with
      | some (y, path) =>
        let r := makeMoves now y path inst
        some { inst := { r.1 with slots := mset r.1.slots r.2 e }, moves := path.length }
      | none =>
        match (List.range 64).find? (fun i => (mget inst.stash i).isNone) with
        | some i => some { inst := { inst with stash := mset inst.stash i e } }
        | none => evict

/-- Free a key wherever it stands; a freed slot takes the lowest stash entry that may live there (R177). -/
def removeKey (x : Table) (key : List Byte) (now : Nat) (inst : TInst) : TInst :=
  let slot := slotWith inst key (places x key)
  let inst := { inst with stash := inst.stash.filter (fun p => p.2.key != key),
                          rel := match inst.rel with
                            | some (e, t) => if e.key == key then none else some (e, t)
                            | none => none }
  match slot with
  | none => inst
  | some n =>
    let inst := { inst with slots := mdel inst.slots n }
    match inst.stash.find? (fun p => (buckets x p.2.key).1 == n / 4 || (buckets x p.2.key).2 == n / 4) with
    | none => inst
    | some (i, e) =>
      let e := { e with hit := true }
      { inst with stash := mdel inst.stash i, slots := mset inst.slots n e, rel := some (e, now) }

end Sys2Proof.Machine
end

