-- ==== Sys2Proof/Machine/Trie.lean ====
section
/-! DEFINITION. Antler tries: node formats, the walk, and the building, publishing and freeing of nodes and blocks (R178-R181 06_lookup_tables). -/

namespace Sys2Proof.Machine

/-! ### Formats (R178) -/

/-- DEFAULT and DEFAULT_VALID, DEFAULT in bits [21:0]. -/
def defaultBits (d : Option Nat) : Nat := match d with | some r => r % 2 ^ 22 + 2 ^ 22 | none => 0
/-- The 8 bytes of a head node. -/
def headWord (n : HeadNode) : Nat :=
  n.kind % 4 + (if n.kind = 1 then (n.stride - 1) % 16 * 2 ^ 2 else 0) + defaultBits n.default_ * 2 ^ 6 + n.pointer % 2 ^ 32 * 2 ^ 32
/-- The 32 bytes of an extension or leaf block. -/
def blockWord : TrieBlock → Nat
  | .leaf es => es.length % 8 +
      ((List.range es.length).zipWith (fun i e => (e.len % 16 + e.bits % 256 * 2 ^ 4 + e.result % 2 ^ 22 * 2 ^ 12) * 2 ^ (18 + 34 * i)) es).foldl (· + ·) 0
  | .extension n skip d cs => n % 64 + skip * 2 ^ (38 - n) + defaultBits d * 2 ^ 38 +
      ((List.range 4).zipWith (fun i c => (c.getD 0xFFFFFFFF) % 2 ^ 32 * 2 ^ (64 + 32 * i)) cs).foldl (· + ·) 0

/-! ### The walk (R179) -/

/-- The `n` address bits after the first `d` of an address of `w` bits. -/
def nextBits (w addr d n : Nat) : Nat := addr / 2 ^ (w - d - n) % 2 ^ n
/-- Node `i` of the run of head nodes that begins at an index. -/
def headAt (tr : Trie) (first i : Nat) : HeadNode := (mgetD tr.head first []).getD i {}
/-- The later of two results. -/
def orBest (d best : Option Nat) : Option Nat := match d with | some r => some r | none => best
/-- The first entry of a leaf block whose LEN bits equal the address bits after `d`. -/
def leafFind (w addr d : Nat) (es : List LeafEntry) (best : Option Nat) : Option Nat :=
  match es.find? (fun e => decide (d + e.len ≤ w) && e.bits / 2 ^ (8 - e.len) == nextBits w addr d e.len) with
  | some e => some e.result
  | none => best
/-- The leaf block at an index. -/
def leafAt (tr : Trie) (w addr i d : Nat) (best : Option Nat) : Option Nat :=
  match mget tr.blocks i with
  | some (.leaf es) => leafFind w addr d es best
  | _ => best
/-- The extension block at an index. -/
def extensionAt (tr : Trie) (w addr i d : Nat) (best : Option Nat) : Option Nat :=
  match mget tr.blocks i with
  | some (.extension n skip dflt cs) =>
    let best := orBest dflt best
    if nextBits w addr d n != skip then best
    else match cs.getD (nextBits w addr (d + n) 2) none with
      | some c => leafAt tr w addr c (d + n + 2) best
      | none => best
  | _ => best
/-- The loop of R179 over at most `k` head nodes. -/
def walkHead (tr : Trie) (w addr : Nat) : Nat → HeadNode → Nat → Option Nat → Option Nat
  | 0, _, _, best => best
  | k + 1, n, d, best =>
    let best := orBest n.default_ best
    match n.kind with
    | 0 => best
    | 1 => walkHead tr w addr k (headAt tr n.pointer (nextBits w addr d n.stride)) (d + n.stride) best
    | 2 => leafAt tr w addr n.pointer d best
    | _ => extensionAt tr w addr n.pointer d best
/-- RESULT of the longest match of an address in a VRF. -/
def trieLookup (tr : Trie) (w vrf addr : Nat) : Option Nat := walkHead tr w addr 7 (headAt tr vrf 0) 0 none

/-- The head node at which the loop of R179 ends within `k` head nodes, with the depth there. -/
def walkEnd (tr : Trie) (w addr : Nat) : Nat → HeadNode → Nat → HeadNode × Nat
  | 0, n, d => (n, d)
  | k + 1, n, d =>
    if n.kind = 1 then walkEnd tr w addr k (headAt tr n.pointer (nextBits w addr d n.stride)) (d + n.stride) else (n, d)
/-- The leaf block to which the walk goes on from an extension block. -/
def leafAfter (tr : Trie) (w addr i d : Nat) : Option Nat :=
  match mget tr.blocks i with
  | some (.extension n skip _ cs) => if nextBits w addr d n == skip then cs.getD (nextBits w addr (d + n) 2) none else none
  | _ => none
/-- Extension and leaf blocks that the lookup of an address reads, in order (R180): none where it ends in the head. -/
def blocksRead (tr : Trie) (w vrf addr : Nat) : List Nat :=
  let e := walkEnd tr w addr 6 (headAt tr vrf 0) 0
  match e.1.kind with
  | 0 | 1 => []
  | 2 => [e.1.pointer]
  | _ => e.1.pointer :: (leafAfter tr w addr e.1.pointer e.2).toList
/-- The trie without blocks that cannot be read: a walk that comes to one ends with the best result before it (R429). -/
def Trie.without (tr : Trie) (gone : List Nat) : Trie := { tr with blocks := tr.blocks.filter (fun b => !gone.contains b.1) }

/-! ### Building (R178-R180; log entry 24) -/

/-- A prefix as the builder takes it: length, address of `w` bits, RESULT. -/
structure Prefix where
  len : Nat
  addr : Nat
  result : Nat
deriving DecidableEq, Repr

/-- Limits of a table: address width, head nodes, blocks; `force` builds where the formats or the space do not let the firmware. -/
structure TrieRoom where
  w : Nat
  heads : Nat
  blocks : Nat
  force : Bool
deriving DecidableEq, Repr

/-- Two addresses agree in their first `d` bits. -/
def agree (w d a b : Nat) : Bool := a / 2 ^ (w - d) == b / 2 ^ (w - d)
/-- The longest prefix of at most `d` bits that covers an address. -/
def coverOf (w d a : Nat) (ps : List Prefix) : Option Prefix :=
  (ps.filter (fun p => decide (p.len ≤ d) && agree w p.len p.addr a)).foldl
    (fun best p => match best with | some b => if b.len < p.len then some p else best | none => some p) none
/-- The prefixes longer than `d` under a node. -/
def innerOf (w d a : Nat) (ps : List Prefix) : List Prefix := ps.filter (fun p => decide (d < p.len) && agree w d p.addr a)

/-- Insert in decreasing order of LEN. -/
def insertLeaf (e : LeafEntry) : List LeafEntry → List LeafEntry
  | [] => [e]
  | x :: xs => if x.len < e.len then e :: x :: xs else x :: insertLeaf e xs
/-- The leaf entry of a prefix below depth `d`: BITS is left-aligned in 8 bits, and holds all LEN bits of an entry beyond the format. -/
def leafEntry (w d : Nat) (p : Prefix) : LeafEntry :=
  let n := p.len - d
  ⟨n, nextBits w p.addr d n * 2 ^ (8 - n), p.result⟩
/-- The leaf entries of prefixes below depth `d`, in decreasing order of LEN. -/
def leafEntries (w d : Nat) (ps : List Prefix) : List LeafEntry := ps.foldr (fun p es => insertLeaf (leafEntry w d p) es) []
/-- A leaf block holds these entries. -/
def leafFits (es : List LeafEntry) : Bool := decide (es.length ≤ 7) && es.all (fun e => decide (e.len ≤ 8))

/-- What stands below a node that is not internal: nothing, a leaf block, or an extension with its skip and its four children. -/
inductive Bottom where
  | nothing
  | leaf (es : List LeafEntry)
  | extension (skipLen skip : Nat) (children : List (List LeafEntry))
deriving DecidableEq, Repr

/-- The longest skip from depth `d` that every prefix shares and none ends strictly inside. -/
def skipOf (w d : Nat) (ps : List Prefix) : Nat :=
  match ps with
  | [] => 0
  | p :: rest =>
    let cap := rest.foldl (fun m q => min m (q.len - d)) (min (p.len - d) (min 32 (w - 2 - d)))
    ((List.range (cap + 1)).reverse.find? (fun n => rest.all (fun q => agree w (d + n) p.addr q.addr))).getD 0
/-- The children of an extension whose skip ends at depth `d`; a prefix that ends within the next two bits is expanded into them. -/
def extChildren (w d a : Nat) (ps : List Prefix) : List (List LeafEntry) :=
  (List.range 4).map (fun i =>
    let b := (a / 2 ^ (w - d) * 4 + i) * 2 ^ (w - d - 2)
    leafEntries w (d + 2) (innerOf w (d + 2) b ps) ++ (match coverOf w (d + 2) b ps with | some p => [⟨0, 0, p.result⟩] | none => []))
/-- The bottom that holds these prefixes under depth `d`, if one does; only IPv6 tables have extensions. -/
def bottomOf (w d : Nat) (ps : List Prefix) : Option Bottom :=
  match ps with
  | [] => some .nothing
  | p :: _ =>
    let es := leafEntries w d ps
    if leafFits es then some (.leaf es)
    else if w = 32 || w < d + 2 then none
    else
      let n := skipOf w d ps
      let cs := extChildren w (d + n) p.addr ps
      if cs.all leafFits then some (.extension n (nextBits w p.addr d n) cs) else none

/-- The least depth from `d` on, below a limit, at which every node has a bottom. -/
def neededDepth (w : Nat) (ps : List Prefix) : Nat → Nat → Nat
  | 0, d => d
  | k + 1, d =>
    let deep := ps.filter (fun p => d < p.len)
    if deep.all (fun p => (bottomOf w d (innerOf w d p.addr deep)).isSome) then d else neededDepth w ps k (d + 1)

/-- Lowest start, from `lo` on, of `n` consecutive indices outside rising runs of (first index, length). -/
def freeRun (n : Nat) : Nat → List (Nat × Nat) → Nat
  | lo, [] => lo
  | lo, k :: ks => if k.1 < lo then freeRun n lo ks else if lo + n ≤ k.1 then lo else freeRun n (k.1 + k.2) ks

/-- Write a block into the lowest free place of the leaf region. -/
def newBlock (g : TrieRoom) (b : TrieBlock) (tr : Trie) : Option (Nat × Trie) :=
  let i := freeRun 1 0 (tr.blocks.map (fun b => (b.1, 1)))
  if !g.force && g.blocks ≤ i then none else some (i, { tr with blocks := mset tr.blocks i b })
/-- Write the leaf blocks of an extension; a child without entries has none. -/
def newLeaves (g : TrieRoom) : List (List LeafEntry) → Trie → Option (List (Option Nat) × Trie)
  | [], tr => some ([], tr)
  | [] :: rest, tr => (newLeaves g rest tr).map (fun r => (none :: r.1, r.2))
  | es :: rest, tr => match newBlock g (.leaf es) tr with
    | none => none
    | some (i, tr) => (newLeaves g rest tr).map (fun r => (some i :: r.1, r.2))

/-- Build the node at depth `d` over address `a` with at most `r` internal nodes on each path below: the node, and the trie with all it points to in free space (R181 step 1). -/
def buildNode (g : TrieRoom) : Nat → Nat → Nat → List Prefix → Trie → Option (HeadNode × Trie)
  | r, d, a, ps, tr =>
    let cover := coverOf g.w d a ps
    let dflt := cover.map (·.result)
    let es := innerOf g.w d a ps
    let leaf := fun (l : List LeafEntry) => (newBlock g (.leaf l) tr).map (fun p => ({ kind := 2, default_ := dflt, pointer := p.1 }, p.2))
    match bottomOf g.w d es with
    | some .nothing => some ({ default_ := dflt }, tr)
    | some (.leaf l) => leaf l
    | some (.extension n skip cs) =>
      match newLeaves g cs tr with
      | none => none
      | some (is, tr) => (newBlock g (.extension n skip dflt is) tr).map (fun p => ({ kind := 3, default_ := dflt, pointer := p.1 }, p.2))
    | none => match r with
      | 0 => if g.force then leaf (leafEntries g.w d es) else none
      | r + 1 =>
        let limit := if g.w = 32 then 30 else 96
        let reach := if g.w = 32 then limit else neededDepth g.w es (limit - d - 1) (d + 1)
        let stride := max 1 (ceilDiv (reach - d) (r + 1))
        if 16 < stride || limit < d + stride then (if g.force then leaf (leafEntries g.w d es) else none)
        else
          let n := 2 ^ stride
          let first := freeRun n 4096 (tr.head.map (fun h => (h.1, h.2.length)))
          if !g.force && g.heads < first + n then none
          else
            let kids := (List.range n).foldl (fun (acc : Option (List HeadNode × Trie)) i =>
              match acc with
              | none => none
              | some (ns, tr) => (buildNode g r (d + stride) (a + i * 2 ^ (g.w - d - stride)) (cover.toList ++ es) tr).map
                  (fun p => (p.1 :: ns, p.2))) (some ([], { tr with head := mset tr.head first (List.replicate n {}) }))
            kids.map (fun p => ({ kind := 1, stride := stride, default_ := dflt, pointer := first },
                                { p.2 with head := mset p.2.head first p.1.reverse }))

/-! ### Publishing and freeing (R181) -/

/-- The runs of head nodes and the blocks that a node reaches. -/
def reached (tr : Trie) : Nat → HeadNode → List Nat × List Nat
  | 0, _ => ([], [])
  | k + 1, n =>
    match n.kind with
    | 0 => ([], [])
    | 1 =>
      let below := (mgetD tr.head n.pointer []).map (reached tr k)
      (n.pointer :: (below.map (·.1)).flatten, (below.map (·.2)).flatten)
    | 2 => ([], [n.pointer])
    | _ => ([], n.pointer :: (match mget tr.blocks n.pointer with | some (.extension _ _ _ cs) => cs.filterMap id | _ => []))

/-- A head node on a walk: the run it stands in, its number there, its depth, and the internal nodes that may still stand on a walk from it. -/
structure TrieSite where
  first : Nat
  i : Nat
  depth : Nat
  left : Nat
deriving DecidableEq, Repr

/-- The head nodes that cover a prefix, from a node on. -/
def sitesOf (tr : Trie) (w len addr : Nat) : Nat → Nat → Nat → Nat → List TrieSite
  | 0, first, i, d => [⟨first, i, d, 0⟩]
  | r + 1, first, i, d =>
    let n := headAt tr first i
    ⟨first, i, d, r + 1⟩ :: (if n.kind = 1 && decide (d + n.stride ≤ len) then
      sitesOf tr w len addr r n.pointer (nextBits w addr d n.stride) (d + n.stride) else [])

/-- Build a node anew and publish it with the one write of it; what only its old value reached is freed later. -/
def rebuildAt (g : TrieRoom) (now addr : Nat) (ps : List Prefix) (tr : Trie) (site : TrieSite) : Option Trie :=
  let d := site.depth
  match buildNode g site.left d (addr / 2 ^ (g.w - d) * 2 ^ (g.w - d)) ps tr with
  | none => none
  | some (n, tr') =>
    let gone := reached tr 7 (headAt tr site.first site.i)
    let run := ((mget tr'.head site.first).getD [{}]).set site.i n
    some { tr' with head := (if run = [{}] then mdel tr'.head site.first else mset tr'.head site.first run),
                    old := if gone.1.isEmpty && gone.2.isEmpty then tr'.old else tr'.old ++ [⟨now, gone.1, gone.2⟩] }
/-- Change a trie for one prefix of a VRF: the lowest head node over it that can be built anew is (log entry 24). -/
def trieChange (g : TrieRoom) (now vrf len addr : Nat) (ps : List Prefix) (tr : Trie) : Option Trie :=
  (sitesOf tr g.w len addr 6 vrf 0 0).reverse.foldl (fun done site =>
    match done with | some tr' => some tr' | none => rebuildAt g now addr ps tr site) none

/-- Free the parts of old tries 2 µs after the write that replaced them. -/
def trieSweep (now : Nat) (tr : Trie) : Trie :=
  let due := tr.old.filter (fun o => o.since + 2000 ≤ now)
  { head := due.foldl (fun m o => o.heads.foldl mdel m) tr.head, blocks := due.foldl (fun m o => o.blocks.foldl mdel m) tr.blocks,
    old := tr.old.filter (fun o => now < o.since + 2000) }

end Sys2Proof.Machine
end

