-- ==== Sys2Proof/Machine/Tables.lean ====
section
/-! DEFINITION. Tables of every kind: allocation, entry operations, packet lookups, counter pairs, ternary edits (R160-R190, R503-R505 06_lookup_tables). -/

namespace Sys2Proof.Machine

/-! ### Access -/

/-- Table `t` while it exists. -/
def tableOf (s : State) (t : Nat) : Option Table := (mget s.tables t).filter (fun x => !x.destroyed)
/-- Change table `t`. -/
def modTable (t : Nat) (f : Table → Table) (s : State) : State :=
  match mget s.tables t with
  | some x => { s with tables := mset s.tables t (f x) }
  | none => s
/-- Instance `i` of a table. -/
def instOf (x : Table) (i : Nat) : TInst := mgetD x.insts i {}
/-- A table that no agent reaches: it is lost, or a stack that holds a region of it is not ready (R430, R431; log entry 26). -/
def tableDown (s : State) (x : Table) : Bool := x.lost || x.regions.any (fun r => !(hbmOf s (r / 24576)).ready)

/-- Change an instance. -/
def modInst (t i : Nat) (f : TInst → TInst) (s : State) : State :=
  modTable t (fun x => { x with insts := mmod x.insts i {} f }) s

/-- A committed or staged delete of the entry has not been applied yet (R80 step 6). -/
def deletePending (s : State) (t i : Nat) (key : List Byte) : Bool :=
  let d : Deferred := .entry t i key
  s.mgt.deferring.contains d || s.mgt.commits.any (fun c => c.deferred.contains d)
/-- Keys of an instance whose delete is pending. -/
def pendingKeys (s : State) (t i : Nat) : List (List Byte) :=
  (s.mgt.deferring ++ (s.mgt.commits.map (·.deferred)).flatten).filterMap (fun d => match d with
    | .entry t' i' key => if t' = t && i' = i then some key else none
    | _ => none)
/-- Take a pending delete back: an insert of the same key follows it (R80 step 3). -/
def cancelDelete (t i : Nat) (key : List Byte) (s : State) : State :=
  let keep := fun (d : Deferred) => d != .entry t i key
  { s with mgt.deferring := s.mgt.deferring.filter keep,
           mgt.commits := s.mgt.commits.map (fun c => { c with deferred := c.deferred.filter keep }) }
/-- Leave a delete to phase B. -/
def deferDelete (t i : Nat) (key : List Byte) (s : State) : State :=
  { s with mgt.deferring := s.mgt.deferring ++ [.entry t i key] }

/-- Index of a tombstone or counter pair across instances. -/
def instIndex (i idx : Nat) : Nat := i * 2 ^ 32 + idx
/-- An index is a tombstone (R84). -/
def isTomb (s : State) (kind t idx : Nat) : Bool := s.mgt.tombs.any (fun b => b.kind == kind && b.table == t && b.index == idx)
/-- Make an index a tombstone (R83, R84). -/
def makeTomb (kind t idx : Nat) (s : State) : State :=
  let b : Tomb := { kind := kind, table := t, index := idx, at_ := s.time.uptime, limit := maxAgeLimit s }
  { s with mgt.tombs := s.mgt.tombs ++ [b] }

/-- ENTRY_HANDLE (R168). -/
def entryHandle (t h : Nat) : Nat := t * 2 ^ 32 + h

/-- RESOURCE that names an instance: 0 for a shared table, a network sector otherwise (R162). -/
def instResource (x : Table) (i : Nat) : Nat := if x.scope = 1 then resId 0x10 i else 0
/-- The instance a RESOURCE names; none where R162 refuses it. -/
def instFor (x : Table) (resource : Nat) : Option Nat :=
  if x.scope = 0 then (if resource = 0 then some 0 else none)
  else if resKind resource = 0x10 && resIndex resource < 6 then some (resIndex resource) else none

/-! ### Counter pairs (R184, R185, R213) -/

/-- Value of a pair: HBM value plus cached increments; with `both` the peer copy is added (R320). -/
def pairValue (p : CounterPair) (both : Bool) : Nat × Nat :=
  ((p.packets + p.cachePackets + if both then p.peerPackets else 0) % 2 ^ 64,
   (p.octets + p.cacheOctets + if both then p.peerOctets else 0) % 2 ^ 64)
/-- Bytes of a pair. -/
def pairBytes (v : Nat × Nat) : List Byte := leBytes 8 v.1 ++ leBytes 8 v.2

/-- A miss of a table (section 0x06). -/
def tableMiss (t : Nat) (s : State) : State := count 0x06 t 4 1 s

/-- An uncorrectable burst stands in a stack that holds a region of the table. -/
def tableBurst (s : State) (x : Table) : Bool := s.pchans.any (fun p => p.2.bad && x.regions.any (fun r => r / 24576 == p.1 / 32))
/-- An update of a pair, or an operation of the table engine, meets an uncorrectable burst or not, where one stands in a stack of the table (R429): a free value (log entry 64). -/
def tableMet (s : State) (x : Table) : Bool × State :=
  if tableBurst s x then
    let r := draw 1 s
    (r.1 == 1, r.2)
  else (false, s)

/-- Add one packet and a length to a pair (R213): an absent or tombstoned pair, also of a destroyed table whose number is still allocated, an index beyond CAPACITY or a lost table discards the update as a miss. -/
def countPair (t idx len : Nat) (s : State) : State :=
  if t = 0xFFFF || s.faults.safe then s
  else match tableOf s t with
    | none => if (mget s.tables t).isSome then tableMiss t s else s
    | some x =>
      if x.kind != 4 || tableDown s x || x.capacity ≤ idx then tableMiss t s
      else match mget (instOf x 0).pairs idx with
        | none => tableMiss t s
        | some p =>
          let m := tableMet s x
          let p := if m.1 then { p with packets := 0, octets := 0 } else p
          let p' : CounterPair := { p with
            cachePackets := (p.cachePackets + 1) % 2 ^ 64, cacheOctets := (p.cacheOctets + len) % 2 ^ 64,
            deltaPackets := p.deltaPackets + 1, deltaOctets := p.deltaOctets + len }
          modInst t 0 (fun i => { i with pairs := mset i.pairs idx p' }) m.2

/-! ### Antler tables (R168, R179-R181) -/

/-- Address width of a kind. -/
def antlerWidth (kind : Nat) : Nat := if kind = 1 then 32 else 128
/-- VRF of an Antler key. -/
def antlerVrf (key : List Byte) : Nat := u16 key 0 % 2 ^ 12
/-- Address of an Antler key. -/
def antlerAddr (key : List Byte) : Nat := beNat (key.drop 4)
/-- A prefix covers an address of a VRF. -/
def covers (w : Nat) (prefix_ : List Byte) (vrf addr : Nat) : Bool :=
  antlerVrf prefix_ == vrf && antlerAddr prefix_ / 2 ^ (w - u8 prefix_ 2) == addr / 2 ^ (w - u8 prefix_ 2)
/-- The longest of two prefixes. -/
def longerPrefix (a : Option Entry) (e : Entry) : Option Entry :=
  match a with
  | none => some e
  | some b => if u8 b.key 2 < u8 e.key 2 then some e else some b
/-- The longest prefix of the firmware's own list that covers the address: what a search by command returns, with its handle (R168). -/
def longestMatch (kind : Nat) (es : List Entry) (key : List Byte) : Option Entry :=
  (es.filter (fun e => covers (antlerWidth kind) e.key (antlerVrf key) (antlerAddr key))).foldl longerPrefix none

/-- An entry as the trie takes it. -/
def prefixOf (e : Entry) : Prefix := ⟨u8 e.key 2, antlerAddr e.key, leNat e.data % 2 ^ 22⟩
/-- Head nodes and blocks of a table (R160, R178). -/
def trieRoom (x : Table) (force : Bool) : TrieRoom := ⟨antlerWidth x.kind, x.headUnits * 65536, x.leafMib * 32768, force⟩
/-- The trie of a table after a change of the entries of one key; `es` are the entries that stand then (R181). -/
def retrie (x : Table) (force : Bool) (now : Nat) (key : List Byte) (es : List Entry) : Option Trie :=
  trieChange (trieRoom x force) now (antlerVrf key) (u8 key 2) (antlerAddr key)
    ((es.filter (fun e => antlerVrf e.key == antlerVrf key)).map prefixOf) (instOf x 0).trie
/-- As `retrie`, where the change may not be refused: where the space or the formats do not let the firmware, the trie takes more than they give (log entry 24). -/
def retrieAnyway (x : Table) (now : Nat) (key : List Byte) (es : List Entry) : Trie :=
  ((retrie x false now key es).orElse (fun _ => retrie x true now key es)).getD (instOf x 0).trie

/-- Prefixes in all Antler tables (TBL_LOOKUP_STATUS). -/
def prefixCount (s : State) : Nat :=
  s.tables.foldl (fun a t => if (t.2.kind == 1 || t.2.kind == 2) && !t.2.destroyed then a + (instOf t.2 0).slots.length else a) 0

/-! ### Ternary rules (R145-R149, R182, R183) -/

/-- Rules of a copy of a group. -/
def RuleGroup.copy (g : RuleGroup) (n : Nat) : List Rule := if n = 0 then g.copy0 else g.copy1
/-- KEY_MODE of a copy. -/
def RuleGroup.mode (g : RuleGroup) (n : Nat) : Nat := if n = 0 then g.mode0 else g.mode1
/-- Replace a copy. -/
def RuleGroup.set (g : RuleGroup) (n mode : Nat) (rs : List Rule) : RuleGroup :=
  if n = 0 then { g with mode0 := mode, copy0 := rs } else { g with mode1 := mode, copy1 := rs }
/-- The copy that packets of bank bit `b` search. -/
def RuleGroup.sel (g : RuleGroup) (b : Nat) : Nat := if b = 0 then g.sel0 else g.sel1
/-- Rule group `g`. -/
def groupOfRules (s : State) (g : Nat) : RuleGroup := mgetD s.ruleGroups g {}

/-- A key matches a rule: in every part the key bits where MASK is 1 (R182). -/
def ruleHits (key : Nat) (r : Rule) : Bool := (key ^^^ r.value) &&& r.mask == 0
/-- The winning rule: of those that match, the one whose part 0 has the lowest global index (R182). -/
def firstRule (key : Nat) (rs : List Rule) : Option Rule :=
  (rs.filter (ruleHits key)).foldl (fun best r => match best with | some b => if r.place < b.place then some r else some b | none => some r) none

/-- TCAM entries (80 blocks of 6,400). -/
def tcamSize : Nat := 512000
/-- A TCAM entry: the control bits of R182, the 160-bit VALUE and MASK of its part, and the action word beside part 0. -/
def tcamEntry (g copy mode : Nat) (r : Rule) (part : Nat) : Nat × Nat × Nat × Nat :=
  (1 + copy * 2 + g * 2 ^ 2 + part * 2 ^ 12 + mode * 2 ^ 14, bitsOf r.value (160 * part + 159) (160 * part),
   bitsOf r.mask (160 * part + 159) (160 * part), if part = 0 then r.action else 0)
/-- What the TCAM holds at a global index; none where VALID is 0. -/
def tcamAt (s : State) (i : Nat) : Option (Nat × Nat × Nat × Nat) :=
  (s.ruleGroups.map (fun g => [0, 1].filterMap (fun n =>
    ((g.2.copy n).find? (fun r => decide (r.place ≤ i) && decide (i ≤ r.place + g.2.mode n))).map
      (fun r => tcamEntry g.1 n (g.2.mode n) r (i - r.place))))).flatten.head?
/-- TCAM entries in use: one for each part of each rule of each copy. -/
def tcamUsed (s : State) : Nat :=
  s.ruleGroups.foldl (fun a g => a + g.2.copy0.length * (g.2.mode0 + 1) + g.2.copy1.length * (g.2.mode1 + 1)) 0

/-- Merge two lists of runs by their first index; `k` is at least the sum of their lengths. -/
def mergeRuns : Nat → List (Nat × Nat) → List (Nat × Nat) → List (Nat × Nat)
  | 0, _, _ => []
  | _ + 1, [], b => b
  | _ + 1, a, [] => a
  | k + 1, x :: a, y :: b => if x.1 ≤ y.1 then x :: mergeRuns k a (y :: b) else y :: mergeRuns k (x :: a) b
/-- The places of a copy: (global index, entries). -/
def copyRuns (g : RuleGroup) (n : Nat) : List (Nat × Nat) := (g.copy n).map (fun r => (r.place, g.mode n + 1))
/-- Every place in use, in rising order. -/
def tcamRuns (s : State) : List (Nat × Nat) :=
  s.ruleGroups.foldl (fun acc g => [0, 1].foldl (fun acc n =>
    let c := copyRuns g.2 n
    mergeRuns (acc.length + c.length) acc c) acc) []

/-- Places for `n` rules of `w` entries in rising order from `lo` on, the lowest that are free; the parts of a rule lie in one block. `k` bounds the steps. -/
def tcamPlaces (w : Nat) : Nat → Nat → Nat → List (Nat × Nat) → List Nat
  | 0, _, _, _ => []
  | _, 0, _, _ => []
  | k + 1, n + 1, lo, used =>
    if 6400 < lo % 6400 + w then tcamPlaces w k (n + 1) (lo / 6400 * 6400 + 6400) used
    else match used with
      | [] => lo :: tcamPlaces w k n (lo + w) []
      | u :: us => if u.1 + u.2 ≤ lo then tcamPlaces w k (n + 1) lo us
        else if lo + w ≤ u.1 then lo :: tcamPlaces w k n (lo + w) used
        else tcamPlaces w k (n + 1) (u.1 + u.2) us
/-- Give the rules of a copy their places. -/
def placeRules (w : Nat) (rs : List Rule) (used : List (Nat × Nat)) : List Rule :=
  (tcamPlaces w (2 * rs.length + used.length + 200) rs.length 0 used).zipWith (fun p r => { r with place := p }) rs

/-- Free stretches between `lo` and `hi`, cut at the ends of blocks. -/
def tcamGaps : Nat → Nat → Nat → List (Nat × Nat) → List (Nat × Nat)
  | 0, _, _, _ => []
  | k + 1, lo, hi, used =>
    if hi ≤ lo then []
    else
      let cut := min hi (lo / 6400 * 6400 + 6400)
      match used with
      | [] => (lo, cut - lo) :: tcamGaps k cut hi []
      | u :: us => if u.1 + u.2 ≤ lo then tcamGaps k lo hi us
        else if u.1 ≤ lo then tcamGaps k (u.1 + u.2) hi us
        else (lo, min cut u.1 - lo) :: tcamGaps k (min cut u.1) hi used
/-- Number of places for `w` entries in free stretches. -/
def gapStarts (w : Nat) (gs : List (Nat × Nat)) : Nat := gs.foldl (fun a g => a + (g.2 + 1 - w)) 0
/-- The `j`-th of these places. -/
def gapStart (w : Nat) : Nat → List (Nat × Nat) → Nat
  | _, [] => 0
  | j, g :: gs => if j < g.2 + 1 - w then g.1 + j else gapStart w (j - (g.2 + 1 - w)) gs

/-- Reserved bits of an action word of R149. -/
def actionRsvd (off w : Nat) : Option Fail :=
  firstFail [(bitsOf w 7 7 == 0, failAt St.reservedNonzero off), (bitsOf w 31 13 == 0, failAt St.reservedNonzero (off + 1))]
/-- An action word of R149 obeys its format: the refusal at an offset. -/
def actionFail (off w : Nat) : Option Fail := (actionRsvd off w).orElse (fun _ => if bitsOf w 5 4 != 3 then none else some (badField off))

/-- The copy that edits write (R183). -/
def editCopy (s : State) (g : RuleGroup) : Nat := g.sel (s.mgt.curTag % 2)

/-! ### Memory of tables (R160, R167, R503) -/

/-- Slot size of kind 0 and kind 3 (R167, R503). -/
def slotSize (kind keyBytes dataBytes : Nat) : Nat := 8 + (if kind = 0 then pad8 keyBytes else 0) + pad8 dataBytes

/-- Units or regions of one instance, and the bucket count of kind 0. -/
def memoryFor (kind memory keyBytes dataBytes capacity : Nat) : Nat × Nat :=
  let cell := if memory = 0 then 524288 else 2 ^ 20
  match kind with
  | 0 =>
    let per := cell / (4 * slotSize 0 keyBytes dataBytes)
    let n := ceilDiv (ceilDiv (capacity * 5) 17) per
    (n, n * per)
  | 3 => (ceilDiv capacity (cell / slotSize 3 keyBytes dataBytes), 0)
  | 4 => (ceilDiv (16 * capacity + ceilDiv capacity 4) cell, 0)
  | _ => (0, 0)

/-- Units not allocated. -/
def freeUnits (s : State) : Nat := 128 - s.tables.foldl (fun a t => a + t.2.units) 0

/-- A region is available to tables (R160). -/
def regionFree (s : State) (r : Nat) : Bool :=
  let base := regionBase r
  let mib := 2 ^ 20
  !s.tables.any (fun t => t.2.regions.contains r) &&
  (s.journal.sram || !overlaps base mib s.journal.base (s.journal.sizeMib * mib)) && !meetsTahr base mib &&
  !s.dumps.any (fun d => d.2.dest == 1 && overlaps base mib d.2.base (d.2.depth * dumpFrame d.1 d.2.sections)) &&
  !s.tahr.clusters.any (fun d => d.2.dumpDest == 1 && overlaps base mib d.2.dumpBase (d.2.dumpDepth * 4096))

/-- The lowest `n` free regions from `r` on, below `hi`; none where there are fewer. -/
def takeRegions (s : State) (hi : Nat) : Nat → Nat → Nat → List Nat → Option (List Nat)
  | _, 0, _, acc => some acc.reverse
  | 0, _ + 1, _, _ => none
  | fuel + 1, n + 1, r, acc =>
    if hi ≤ r then none
    else if regionFree s r then takeRegions s hi fuel n (r + 1) (r :: acc)
    else takeRegions s hi fuel (n + 1) (r + 1) acc

/-! ### Entry operations -/

/-- What an entry operation did. -/
structure Did where
  s : State
  handle : Nat
  evicted : Option Entry := none
  moves : Nat := 0

/-- How an insert is asked for. -/
structure Want where
  replace : Bool
  static : Bool := false
  learned : Bool := false
  /-- it applies a record of the pair's active member, whose deletes before it in the same transaction have taken effect there (R316) -/
  peer : Bool := false
  hit : Bool := true
  clearSeen : Bool := false
  /-- the sweeps completed since the entry was inserted -/
  age : Nat := 0
  /-- the handle the entry has on the active (R316) -/
  handle : Option Nat := none
/-- The handle of a new entry: the one asked for, where no entry has it, or the lowest free. -/
def newHandle (w : Want) (used : List Nat) : Nat :=
  match w.handle with
  | some h => if used.contains h then lowestFree used else h
  | none => lowestFree used
/-- What a snapshot tells of an entry beside its command: header bits, age and handle (R314, R316; the layout is DESIGN CHOICE, log entry 38). -/
def entryNote (e : Entry) (sweeps : Nat) : Nat :=
  1 + b2n e.static * 2 + b2n e.learned * 4 + b2n e.hit * 8 + b2n e.clearSeen * 16 +
  (sweeps % 2 ^ 16 + 2 ^ 16 - e.ageEpoch) % 2 ^ 16 * 2 ^ 8 + e.handle * 2 ^ 24
/-- How the insert of a command is asked for; one of the pair's active member may carry a note in its buffer address. -/
def wantOf (c : Cmd) (replace : Bool) : Want :=
  let n := c.bufAddr
  if c.path != .peer then { replace := replace }
  else if bit n 0 then { replace := replace, peer := true, static := bit n 1, learned := bit n 2, hit := bit n 3, clearSeen := bit n 4,
                         age := bitsOf n 23 8, handle := some (bitsOf n 55 24) }
  else { replace := replace, peer := true }

/-- Insert into a kind 0 instance (R175). An insert of the active that finds no room beside entries whose delete is pending takes them out first, as an eviction did there (R188, R316; log entry 38). The rewrite of a present entry leaves its STATIC and LEARNED bits as they are (DESIGN CHOICE, log entry 89). -/
def insertExact (t i : Nat) (x : Table) (key data : List Byte) (w : Want) (s : State) : Except Fail Did :=
  let inst := instOf x i
  let now := s.time.uptime
  match findEntry x inst key with
  | some old =>
    if !w.replace && !deletePending s t i key then .error (failWith St.exists_)
    else .ok { s := modInst t i (onKey key (fun e => { e with data := data, hit := true })) (cancelDelete t i key s),
               handle := old.handle }
  | none =>
    let gone := pendingKeys s t i
    let live := (entriesOf inst).filter (fun e => !gone.contains e.key)
    let e : Entry := { key := key, data := data, hit := w.hit, clearSeen := w.clearSeen, static := w.static, learned := w.learned,
                       ageEpoch := (inst.sweeps + 2 ^ 16 - w.age) % 2 ^ 16 }
    let r := if x.policy.full = 2 then draw 32 s else (0, s)
    let at_ := fun (gone : List (List Byte)) (inst : TInst) => placeEntry x inst gone live.length e now r.1
    let first := at_ gone inst
    let full := match first with | some p => p.evicted.isSome | none => true
    match (if w.peer && full && !gone.isEmpty then at_ [] (gone.foldl (fun inst key => removeKey x key now inst) inst) else first) with
    | none => .error (failWith St.noSpace)
    | some p =>
      let used := (live.filter (fun e => match p.evicted with | some v => e.key != v.key | none => true)).map (·.handle)
      let h := newHandle w used
      .ok { s := modInst t i (fun _ => onKey key (fun e => { e with handle := h }) p.inst) r.2,
            handle := h, evicted := p.evicted, moves := p.moves }

/-- Insert a prefix (R180, R181). -/
def insertPrefix (t : Nat) (x : Table) (key data : List Byte) (w : Want) (s : State) : Except Fail Did :=
  let inst := instOf x 0
  let now := s.time.uptime
  let done := fun (h : Nat) (e : Entry) (s : State) =>
    let slots := mset inst.slots h e
    modInst t 0 (fun i => { i with slots := slots, trie := retrieAnyway x now key (slots.map (·.2)) }) s
  match inst.slots.find? (fun p => p.2.key == key) with
  | some (h, old) =>
    if !w.replace && !deletePending s t 0 key then .error (failWith St.exists_)
    else .ok { s := done h { old with data := data } (cancelDelete t 0 key s), handle := h }
  | none =>
    let roomy := x.headUnits == 64 && decide (1024 ≤ x.leafMib)
    let e : Entry := { key := key, data := data }
    let fits := roomy || (retrie x false now key (e :: inst.slots.map (·.2))).isSome ||
      !Config.trieFull x.headUnits x.leafMib (inst.slots.map (fun p => p.2.key) ++ [key])
    if 16777216 ≤ prefixCount s || !fits then .error (failWith St.noSpace)
    else
      let h := newHandle w (inst.slots.map (·.1))
      .ok { s := done h { e with handle := h } s, handle := h }

/-- Insert at an index of a kind 3 or kind 4 table (R184, R503). -/
def insertIndex (t i : Nat) (x : Table) (key data : List Byte) (w : Want) (s : State) : Except Fail Did :=
  let idx := leNat key
  let inst := instOf x i
  let present := if x.kind = 3 then (mget inst.slots idx).isSome else (mget inst.pairs idx).isSome
  let gone := deletePending s t i key
  if isTomb s 0 t (instIndex i idx) then .error (failWith St.wrongState)
  else if present && !gone && !w.replace then .error (failWith St.exists_)
  else
    let f := fun (inst : TInst) =>
      if x.kind = 3 then { inst with slots := mset inst.slots idx { key := key, data := data, handle := idx } }
      else { inst with pairs := mset inst.pairs idx {} }
    .ok { s := modInst t i f (cancelDelete t i key s), handle := idx }

/-- VALUE, MASK, action and PRIORITY of a kind 5 entry. -/
def ruleOf (key data : List Byte) : Rule :=
  let n := key.length / 2
  { value := leNat (key.take n), mask := leNat (key.drop n), action := leNat (data.take 8), priority := leNat (data.drop 8) }
/-- The rule of a key in the copy that edits write. -/
def ruleFind (rs : List Rule) (key : List Byte) : Option Rule :=
  rs.find? (fun r => r.value == leNat (key.take (key.length / 2)) && r.mask == leNat (key.drop (key.length / 2)))

/-- A group is staged for replacement in an open transaction (R183). -/
def groupStaged (s : State) (g : Nat) : Bool :=
  s.mgt.txns.any (fun t => t.2.staged.any (fun st => st.opcode == 0x0703 && st.cmd.at 0 2 == g)) ||
  s.mgt.deferring.contains (.group g)

/-- Free stretches for a rule that comes after place `a` (its first free entry) and before place `b`. -/
def between (used : List (Nat × Nat)) (a b : Nat) : List (Nat × Nat) := tcamGaps (2 * used.length + 200) a b used

/-- The fewest moves, at most 128, that open a gap by moving the rules at the front of a list one place on towards a free entry: their number and the free stretches for the last of them. `stop` bounds the places. -/
def movesFor (used : List (Nat × Nat)) (w : Nat) (up : Bool) : Nat → Nat → List Rule → Option (Nat × List (Nat × Nat))
  | 0, _, _ => none
  | _, _, [] => none
  | k + 1, n, r :: rs =>
    let gs := match rs with
      | x :: _ => if up then between used (r.place + w) x.place else between used (x.place + w) r.place
      | [] => if up then between used (r.place + w) tcamSize else between used 0 r.place
    if gapStarts w gs != 0 then some (n + 1, gs) else movesFor used w up k (n + 1) rs

/-- Move the first `n` rules of a list one place on, the last of them to `hole`: the list then, and the place that the first one left. -/
def shiftPlaces (hole : Nat) : Nat → List Rule → List Rule × Nat
  | 0, rs => (rs, hole)
  | _, [] => ([], hole)
  | n + 1, r :: rs =>
    let rest := shiftPlaces hole n rs
    ({ r with place := rest.2 } :: rest.1, r.place)

/-- Put a rule between those before it and those behind it (R183): the fewest moves that open a gap for it, and which of the free entries it then takes, a free value (DESIGN CHOICE, log entry 25). Answers the rules in order and the moves. -/
def placeRule (w : Nat) (r : Rule) (before behind : List Rule) (s : State) : Option ((List Rule × Nat) × State) :=
  let lo := match before.getLast? with | some b => b.place + w | none => 0
  let hi := match behind with | b :: _ => b.place | [] => tcamSize
  let used := tcamRuns s
  let here := between used lo hi
  let pick := fun (gs : List (Nat × Nat)) (s : State) => let d := drawBelow (gapStarts w gs) s; (gapStart w d.1 gs, d.2)
  if gapStarts w here != 0 then
    let p := pick here s
    some ((before ++ { r with place := p.1 } :: behind, 0), p.2)
  else
    let up := movesFor used w true 128 0 behind
    let down := movesFor used w false 128 0 before.reverse
    let upward := match up, down with
      | some a, some b => decide (a.1 ≤ b.1)
      | some _, none => true
      | none, _ => false
    match (if upward then up else down) with
    | none => none
    | some (n, gs) =>
      let p := pick gs s
      if upward then
        let m := shiftPlaces p.1 n behind
        some ((before ++ { r with place := m.2 } :: m.1, n), p.2)
      else
        let m := shiftPlaces p.1 n before.reverse
        some ((m.1.reverse ++ { r with place := m.2 } :: behind, n), p.2)

/-- Why the rules of a bound group are not edited: it is staged for replacement (R76), or its KEY_MODE is 2 or 3, or it holds rules of another KEY_MODE than the table's keys (R183; WRONG_STATE is a DESIGN CHOICE, log entry 25). -/
def ternaryFail (x : Table) (s : State) : Option Fail :=
  let g := groupOfRules s x.group
  let n := editCopy s g
  if groupStaged s x.group then some (failWith St.txnConflict)
  else if 2 ≤ g.mode n || (!(g.copy n).isEmpty && g.mode n != (if x.keyBytes = 80 then 1 else 0)) then some (failWith St.wrongState)
  else none
/-- Insert a rule (R183). -/
def insertTernary (t : Nat) (x : Table) (key data : List Byte) (w : Want) (s : State) : Except Fail Did :=
  let g := groupOfRules s x.group
  let n := editCopy s g
  let rs := g.copy n
  let r := ruleOf key data
  let mode := if x.keyBytes = 80 then 1 else 0
  let write := fun (rs : List Rule) (s : State) => { s with ruleGroups := mset s.ruleGroups x.group (g.set n mode rs) }
  let put := fun (h : Nat) (rest : List Rule) (s : State) =>
    match placeRule (mode + 1) { r with handle := h } (rest.filter (fun y => y.priority ≤ r.priority))
        (rest.filter (fun y => r.priority < y.priority)) (write rest s) with
    | none => Except.error (failWith St.noSpace)
    | some ((rs, m), s) => .ok ({ s := write rs s, handle := h, moves := m } : Did)
  match ternaryFail x s with
  | some f => .error f
  | none => match ruleFind rs key with
    | some old =>
      if !w.replace && !deletePending s t 0 key then .error (failWith St.exists_)
      else
        let s := cancelDelete t 0 key s
        if old.priority = r.priority then
          .ok { s := write (rs.map (fun y => if y.handle = old.handle then { r with handle := y.handle, place := y.place } else y)) s,
                handle := old.handle }
        else put old.handle (rs.filter (fun y => y.handle != old.handle)) s
    | none => if 65536 ≤ rs.length then .error (failWith St.noSpace) else put (newHandle w (rs.map (·.handle))) rs s

/-- Insert an entry. -/
def insertEntry (t i : Nat) (x : Table) (key data : List Byte) (w : Want) (s : State) : Except Fail Did :=
  match x.kind with
  | 0 => insertExact t i x key data w s
  | 1 => insertPrefix t x key data w s
  | 2 => insertPrefix t x key data w s
  | 5 => insertTernary t x key data w s
  | _ => insertIndex t i x key data w s

/-- The handle under which a key is present and not deleted. -/
def handleFor (t i : Nat) (x : Table) (key : List Byte) (s : State) : Option Nat :=
  let inst := instOf x i
  let h := match x.kind with
    | 0 => (findEntry x inst key).map (·.handle)
    | 3 => (mget inst.slots (leNat key)).map (fun _ => leNat key)
    | 4 => (mget inst.pairs (leNat key)).map (fun _ => leNat key)
    | 5 => (ruleFind ((groupOfRules s x.group).copy (editCopy s (groupOfRules s x.group))) key).map (·.handle)
    | _ => (inst.slots.find? (fun p => p.2.key == key)).map (·.1)
  if deletePending s t i key then none else h

/-- The handle of the entry that an update or a delete changes. -/
def editTarget (t i : Nat) (x : Table) (key : List Byte) (s : State) : Except Fail Nat :=
  match (if x.kind = 5 then ternaryFail x s else none), handleFor t i x key s with
  | some f, _ => .error f
  | none, none => .error (failWith St.notFound)
  | none, some h => .ok h

/-- Update an entry: whole-entry write of its data (R71). -/
def updateEntry (t i : Nat) (x : Table) (key data : List Byte) (s : State) : Except Fail Did :=
  match editTarget t i x key s with
  | .error f => .error f
  | .ok h =>
    match x.kind with
    | 4 =>
      let p : CounterPair := { packets := leNat (data.take 8), octets := leNat (data.drop 8) }
      .ok { s := modInst t i (fun inst => { inst with pairs := mset inst.pairs h p }) s, handle := h }
    | 5 => insertTernary t x key data { replace := true } s
    | 0 => insertExact t i x key data { replace := true } s
    | 3 => .ok { s := modInst t i (fun inst => { inst with slots := mset inst.slots h { key := key, data := data, handle := h } }) s,
                 handle := h }
    | _ => insertPrefix t x key data { replace := true } s

/-- Take an entry out for good: phase B of a commit, a register set, or the sweeper (R83, R177, R184). -/
def applyDelete (t i : Nat) (key : List Byte) (s : State) : State :=
  match tableOf s t with
  | none => s
  | some x =>
    let idx := leNat key
    match x.kind with
    | 0 => modInst t i (removeKey x key s.time.uptime) s
    | 3 =>
      if (mget (instOf x i).slots idx).isNone then s
      else
        let s := modInst t i (fun inst => { inst with slots := mdel inst.slots idx }) s
        if x.release = 1 then makeTomb 0 t (instIndex i idx) s else s
    | 4 =>
      if (mget (instOf x i).pairs idx).isNone then s
      else makeTomb 0 t (instIndex i idx) (modInst t i (fun inst => { inst with pairs := mdel inst.pairs idx }) s)
    | 5 =>
      let g := groupOfRules s x.group
      let n := editCopy s g
      match (if 2 ≤ g.mode n then none else ruleFind (g.copy n) key) with
      | none => s
      | some r =>
        let g := g.set n (g.mode n) ((g.copy n).filter (fun y => y.handle != r.handle))
        { s with ruleGroups := mset s.ruleGroups x.group g }
    | _ =>
      let slots := (instOf x 0).slots.filter (fun p => p.2.key != key)
      modInst t 0 (fun inst => { inst with slots := slots, trie := retrieAnyway x s.time.uptime key (slots.map (·.2)) }) s

/-- Free what a destroyed table held, and remove its entries: those of a kind 5 table are the rules of its group (R163, R84). -/
def applyDestroy (t : Nat) (s : State) : State :=
  match mget s.tables t with
  | none => s
  | some x =>
    let tombs := if x.release = 1 then
        (x.insts.map (fun p => ((p.2.slots.map (·.1)) ++ (p.2.pairs.map (·.1))).map (instIndex p.1))).flatten else []
    let s := tombs.foldl (fun s idx => makeTomb 0 t idx s) s
    let s := if x.kind = 5 then
        let g := groupOfRules s x.group
        { s with ruleGroups := mset s.ruleGroups x.group (g.set (editCopy s g) (g.mode (editCopy s g)) []) } else s
    if s.mgt.tombs.any (fun b => b.kind == 0 && b.table == t) then
      modTable t (fun x => { x with units := 0, regions := [], insts := [] }) s
    else { s with tables := mdel s.tables t }

/-- Erase the old copy of a rule group: both selectors name the new one (R146). -/
def applyGroup (g : Nat) (s : State) : State :=
  let x := groupOfRules s g
  let n := x.sel (s.mgt.curTag % 2)
  let x := x.set (1 - n) 0 []
  { s with ruleGroups := mset s.ruleGroups g { x with sel0 := n, sel1 := n } }

/-! ### Packet lookups (R165, R174, R179, R184) -/

/-- What a packet lookup answers. -/
inductive Found where
  | hit (data : List Byte)
  | miss
  /-- an egress lookup that reached a tombstone (R84) -/
  | stale
deriving DecidableEq, Repr

/-- Look a key up for a packet in an instance; `bankBit` selects the copy of a rule group. A hit of a kind 0 entry sets HIT. `bad` are the blocks in which the lookup met an uncorrectable burst: an Antler walk ends before the first, any other lookup misses (R429). -/
def packetLookup (t i bankBit : Nat) (key : List Byte) (bad : List Nat) (s : State) : Found × State :=
  match tableOf s t with
  | none => (.miss, s)
  | some x =>
    let inst := instOf x i
    let miss := (Found.miss, tableMiss t s)
    if tableDown s x || (x.kind != 1 && x.kind != 2 && !bad.isEmpty) then miss
    else match x.kind with
      | 0 => match findEntry x inst key with
        | some e => (.hit e.data, if e.hit then s else modInst t i (onKey key (fun e => { e with hit := true })) s)
        | none => miss
      | 3 =>
        let idx := leNat key
        if x.capacity ≤ idx then miss
        else match mget inst.slots idx with
          | some e => (.hit e.data, s)
          | none => if isTomb s 0 t (instIndex i idx) then (.stale, s) else miss
      | 4 => match mget inst.pairs (leNat key) with
        | some p => (.hit (pairBytes (pairValue p false)), s)
        | none => miss
      | 5 =>
        let g := groupOfRules s x.group
        match firstRule (leNat key) (g.copy (g.sel bankBit)) with
        | some r => (.hit (leBytes 8 r.action ++ leBytes 4 r.priority), s)
        | none => miss
      | k => match trieLookup (inst.trie.without bad) (antlerWidth k) (antlerVrf key) (antlerAddr key) with
        | some r => (.hit (leBytes 4 r), s)
        | none => miss

/-! ### Command checks -/

/-- Reserved bits of an entry's key and data (R10, R168, R149): step 3 of R47. -/
def entryRsvd (x : Table) (key data : List Byte) (keyOff dataOff : Nat) : Option Fail :=
  match x.kind with
  | 1 | 2 => firstFail [
      (u16 key 0 / 2 ^ 12 == 0, failAt St.reservedNonzero (keyOff + 1)), (u8 key 3 == 0, failAt St.reservedNonzero (keyOff + 3)),
      (leNat data / 2 ^ 22 == 0, failAt St.reservedNonzero (dataOff + 2))]
  | 5 => if data.isEmpty then none else actionRsvd dataOff (leNat (data.take 8))
  | _ => none

/-- Checks that every entry command shares: table, instance, widths, MODE and the key's own format. `dataOff` is the offset of the data. -/
def keyFail (x : Table) (search : Bool) (key data : List Byte) (keyOff dataOff : Nat) : Option Fail :=
  match x.kind with
  | 0 => none
  | 1 | 2 =>
    let w := antlerWidth x.kind
    firstFail [
      ((entryRsvd x key data keyOff dataOff).isNone, (entryRsvd x key data keyOff dataOff).getD (badField keyOff)),
      (search || decide (u8 key 2 ≤ w), badField (keyOff + 2)),
      (search || antlerAddr key % 2 ^ (w - u8 key 2) == 0, badField (keyOff + 4))]
  | 5 =>
    let r := ruleOf key data
    if search then none
    else firstFail [(r.value &&& r.mask == r.value, badField keyOff),
                    (data.isEmpty || (actionFail dataOff r.action).isNone, (actionFail dataOff r.action).getD (badField dataOff))]
  | _ => if search || leNat key < x.capacity then none else some (badField keyOff)

/-- A table number from a command: BAD_FIELD above 1,023 (R504). -/
def tableNumFail (n off : Nat) : Option Fail := if n < 1024 then none else some (badField off)

/-- Key and data of the common entry payload. -/
def payloadKey (c : Cmd) : List Byte := slice c.payload 16 (c.at 4 2)
/-- Data of the common entry payload. -/
def payloadData (c : Cmd) : List Byte := slice c.payload (16 + pad8 (c.at 4 2)) (c.at 6 2)

/-- Fields of TABLE_INSERT, UPDATE, DELETE and SEARCH; `op` is 2 search, 3 insert, 4 update, 5 delete. -/
def entryFields (op : Nat) (c : Cmd) (s : State) : Option Fail :=
  match tableNumFail (c.at 0 4) 0 with
  | some f => some f
  | none => match tableOf s (c.at 0 4) with
    | none => none
    | some x =>
      let withData := op == 3 || op == 4
      let kb := if op = 2 && x.kind = 5 then x.keyBytes / 2 else x.keyBytes
      match firstFail [
        ((instFor x c.resource).isSome || (op == 2 && x.kind == 4 && c.resource == resId 0x1C 0), failWith St.badResource),
        (c.at 4 2 == kb, badField 4),
        (c.at 6 2 == (if withData then x.dataBytes else 0), badField 6),
        (decide (c.at 8 1 ≤ if op = 3 then 1 else 0), badField 8)] with
      | some f => some f
      | none => keyFail x (op == 2) (payloadKey c) (if withData then payloadData c else []) 16 (16 + pad8 kb)

/-- The table of a command that exists and is in reach (R430, R431, R504). -/
def liveTable (s : State) (t : Nat) : Except Fail Table :=
  match tableOf s t with
  | none => .error (failWith St.notFound)
  | some x => if tableDown s x then .error (failWith St.fenced) else .ok x

/-- Reserved bits in the key and data of TABLE_INSERT, UPDATE, DELETE and SEARCH. -/
def payloadEntryRsvd (withData : Bool) (c : Cmd) (s : State) : Option Fail :=
  match tableOf s (c.at 0 4) with
  | none => none
  | some x => entryRsvd x (fit x.keyBytes (payloadKey c)) (if withData then fit x.dataBytes (payloadData c) else []) 16 (16 + pad8 (c.at 4 2))
/-- Layout of the common entry payload. -/
def entryLayout (withData : Bool) (c : Cmd) : Except Fail Layout :=
  .ok { len := 16 + pad8 (c.at 4 2) + (if withData then c.at 6 2 else 0), rsvd := [rsv 9 7] }

/-- Name of an entry for R76. -/
def entryObj (t i : Nat) (key : List Byte) : Nat := objKey 20 (t * 8 + i) (leNat key)
/-- Name of a table as a whole. -/
def tableObj (t : Nat) : Nat := objKey 21 t 0

/-- Entries of a TABLE_BULK: (key, data). -/
def bulkEntries (c : Cmd) (x : Table) : List (List Byte × List Byte) :=
  let kb := pad8 x.keyBytes
  let db := if c.at 4 1 = 5 then 0 else pad8 x.dataBytes
  (items (kb + db) (c.at 8 4) (c.payload.drop 16)).map (fun e => (e.take x.keyBytes, if c.at 4 1 = 5 then [] else slice e kb x.dataBytes))

/-- Bytes of one entry of a TABLE_BULK (R169): no data for delete. -/
def bulkStride (c : Cmd) (x : Table) : Nat := pad8 x.keyBytes + if c.at 4 1 = 5 then 0 else pad8 x.dataBytes
/-- Reserved bits in the entries of a TABLE_BULK. -/
def bulkRsvd (c : Cmd) (s : State) : Option Fail :=
  match tableOf s (c.at 0 4) with
  | none => none
  | some x => firstFail ((List.range (bulkEntries c x).length).zipWith (fun n e =>
      let at_ := 16 + n * bulkStride c x
      let f := entryRsvd x e.1 e.2 at_ (at_ + pad8 x.keyBytes)
      (f.isNone, f.getD (badField at_))) (bulkEntries c x))
/-- The R76 names of the entries that a command of the TABLE class changes. -/
def entryObjects (opcode : Nat) (c : Cmd) (s : State) : List Nat :=
  match tableOf s (c.at 0 4) with
  | none => []
  | some x =>
    let i := (instFor x c.resource).getD 0
    if opcode = 0x0806 then (bulkEntries c x).map (fun e => entryObj (c.at 0 4) i e.1)
    else if 0x0803 ≤ opcode && opcode ≤ 0x0805 then [entryObj (c.at 0 4) i (payloadKey c)]
    else []

/-- An entry is staged in an open transaction (R76, R172). -/
def entryStaged (s : State) (t i : Nat) (key : List Byte) : Bool :=
  s.mgt.txns.any (fun x => x.2.staged.any (fun st => (entryObjects st.opcode st.cmd s).contains (entryObj t i key)))

/-- The TABLE_DELETE record of an eviction (R188). -/
def evictionRec (t i : Nat) (x : Table) (e : Entry) : PlanRec :=
  { opcode := 0x0805, object := entryHandle t e.handle, resource := instResource x i,
    payload := leBytes 4 t ++ leBytes 2 x.keyBytes ++ zeros 10 ++ fit (pad8 x.keyBytes) e.key }

/-- Count an eviction and note its record. -/
def noteEviction (t i : Nat) (x : Table) (e : Option Entry) (s : State) : State :=
  match e with
  | none => s
  | some e => count 0x06 t 1 1 { s with mgt.evicting := s.mgt.evicting ++ [evictionRec t i x e] }

/-- Apply one entry operation of a command. -/
def applyEntry (op t i : Nat) (x : Table) (key data : List Byte) (w : Want) (s : State) : Except Fail Did :=
  match op with
  | 3 => (insertEntry t i x key data w s).map (fun d =>
      { d with s := noteEviction t i x d.evicted { d.s with mgt.moves := d.s.mgt.moves + d.moves } })
  | 4 => updateEntry t i x key data s
  | _ => (editTarget t i x key s).map (fun h => { s := deferDelete t i key s, handle := h })

/-- TABLE_INSERT, TABLE_UPDATE or TABLE_DELETE applied to the state. -/
def entryApply (op : Nat) (c : Cmd) (s : State) : Except Fail (State × List Byte) :=
  match liveTable s (c.at 0 4) with
  | .error f => .error f
  | .ok x =>
    match applyEntry op (c.at 0 4) ((instFor x c.resource).getD 0) x (payloadKey c) (if op = 5 then [] else payloadData c)
        (wantOf c (c.at 8 1 == 1)) s with
    | .error f => .error f
    | .ok d => .ok (d.s, if op = 3 then leBytes 8 (entryHandle (c.at 0 4) d.handle) ++ leBytes 1 (b2n d.evicted.isSome) ++ zeros 7
                         else leBytes 8 (entryHandle (c.at 0 4) d.handle))

/-- NO_SPACE of an insert is counted on its table. -/
def countNoSpace (c : Cmd) (f : Fail) (s : State) : State :=
  if f.status = St.noSpace && (tableOf s (c.at 0 4)).isSome then count 0x06 (c.at 0 4) 0 1 s else s

/-- A C command on one entry. Its `apply` answers ENTRY_HANDLE first, which is the record's OBJECT; only an insert returns it. -/
def entrySpec (opcode op : Nat) : CmdSpec :=
  { opcode := opcode, kind := .c, replicated := fun _ => true, layout := entryLayout (op != 5), rsvdState := payloadEntryRsvd (op != 5),
    resLen := fun _ _ => if op = 3 then 16 else 0,
    fields := entryFields op,
    objects := entryObjects opcode,
    tables := fun c => [c.at 0 4],
    apply := entryApply op,
    object := fun _ r _ => uN r 0 8,
    failed := countNoSpace }

/-- TABLE_INSERT, 0x0803 C (R175). -/
def tableInsertSpec : CmdSpec := entrySpec 0x0803 3
/-- TABLE_UPDATE, 0x0804 C (R71). -/
def tableUpdateSpec : CmdSpec := entrySpec 0x0804 4
/-- TABLE_DELETE, 0x0805 C (R184). -/
def tableDeleteSpec : CmdSpec := entrySpec 0x0805 5

/-! ### TABLE_BULK (R169) -/

/-- Apply the entries of a bulk command in order; the first that fails names its index. -/
def bulkLoop (op t i stride : Nat) (x : Table) (w : Want) : Nat → List (List Byte × List Byte) → State → Except Fail State
  | _, [], s => .ok s
  | n, (key, data) :: rest, s =>
    match keyFail x false key data (16 + n * stride) (16 + n * stride + pad8 x.keyBytes) with
    | some f => .error { f with result := leBytes 4 n ++ zeros 4 }
    | none =>
      match tableOf s t with
      | none => .error (failWith St.notFound)
      | some x' =>
        match applyEntry op t i x' key data w s with
        | .error f => .error { f with result := leBytes 4 n ++ zeros 4 }
        | .ok d => bulkLoop op t i stride x w (n + 1) rest d.s

/-- TABLE_BULK, 0x0806 C. -/
def tableBulkSpec : CmdSpec :=
  { opcode := 0x0806, kind := .c, replicated := fun _ => true,
    layout := fun c => .ok { len := max 16 c.payloadLen, rsvd := [rsv 6 2, rsv 12 4] },
    rsvdState := bulkRsvd,
    lenState := fun c s => (tableOf s (c.at 0 4)).map (fun x => 16 + c.at 8 4 * bulkStride c x),
    resLen := fun _ _ => 8,
    fields := fun c s => match tableNumFail (c.at 0 4) 0 with
      | some f => some f
      | none => firstFail [
          ([3, 4, 5].contains (c.at 4 1), badField 4),
          (decide (c.at 5 1 ≤ if c.at 4 1 = 3 then 1 else 0), badField 5),
          (decide (1 ≤ c.at 8 4) && decide (c.at 8 4 ≤ 1048576), badField 8),
          ((match tableOf s (c.at 0 4) with | some x => (instFor x c.resource).isSome | none => true), failWith St.badResource)],
    objects := entryObjects 0x0806,
    writes := fun c => c.at 8 4,
    tables := fun c => [c.at 0 4],
    object := fun c _ _ => entryHandle (c.at 0 4) 0,
    failed := countNoSpace,
    apply := fun c s => match liveTable s (c.at 0 4) with
      | .error f => .error f
      | .ok x =>
        match bulkLoop (c.at 4 1) (c.at 0 4) ((instFor x c.resource).getD 0) (bulkStride c x) x { wantOf c (c.at 5 1 == 1) with handle := none } 0 (bulkEntries c x) s with
        | .error f => .error f
        | .ok s => .ok (s, leBytes 4 0xFFFFFFFF ++ leBytes 4 (c.at 8 4)) }

/-! ### TABLE_READ, TABLE_SEARCH -/

/-- The result of a read or search: an entry as (handle, header, key, data), or FOUND 0 with zeros. -/
def readResult (t : Nat) (x : Table) (r : Option (Nat × Nat × List Byte × List Byte)) : List Byte :=
  let kb := pad8 x.keyBytes
  let db := pad8 x.dataBytes
  match r with
  | none => zeros (24 + kb + db)
  | some (h, hdr, key, data) =>
    leBytes 1 1 ++ zeros 7 ++ leBytes 8 (entryHandle t h) ++ leBytes 8 hdr ++ fit kb key ++ fit db data

/-- A rule as an entry. -/
def ruleEntry (x : Table) (r : Rule) : Nat × Nat × List Byte × List Byte :=
  (r.handle, 0, leBytes (x.keyBytes / 2) r.value ++ leBytes (x.keyBytes / 2) r.mask, leBytes 8 r.action ++ leBytes 4 r.priority)

/-- Search for a command or register set: no HIT is set. -/
def searchEntry (i : Nat) (x : Table) (both : Bool) (key : List Byte) (s : State) : Option (Nat × Nat × List Byte × List Byte) :=
  let inst := instOf x i
  match x.kind with
  | 0 => (findEntry x inst key).map (fun e => (e.handle, entryHeader e, e.key, e.data))
  | 3 => (mget inst.slots (leNat key)).map (fun e => (e.handle, 0, e.key, e.data))
  | 4 => (mget inst.pairs (leNat key)).map (fun p => (leNat key, 0, key, pairBytes (pairValue p both)))
  | 5 => (firstRule (leNat key) ((groupOfRules s x.group).copy (editCopy s (groupOfRules s x.group)))).map (ruleEntry x)
  | k => (longestMatch k (inst.slots.map (·.2)) key).map (fun e => (e.handle, 0, e.key, e.data))

/-- Read by handle. -/
def readEntry (i : Nat) (x : Table) (both : Bool) (h : Nat) (s : State) : Option (Nat × Nat × List Byte × List Byte) :=
  let inst := instOf x i
  match x.kind with
  | 0 => ((entriesOf inst).find? (fun e => e.handle == h)).map (fun e => (h, entryHeader e, e.key, e.data))
  | 4 => (mget inst.pairs h).map (fun p => (h, 0, leBytes 4 h, pairBytes (pairValue p both)))
  | 5 => (((groupOfRules s x.group).copy (editCopy s (groupOfRules s x.group))).find? (fun r => r.handle == h)).map (ruleEntry x)
  | _ => (mget inst.slots h).map (fun e => (h, 0, e.key, e.data))

/-- An entry that a committed delete awaits is not part of the committed state (R75). -/
def hideDeleted (t i : Nat) (r : Option (Nat × Nat × List Byte × List Byte)) (s : State) : Option (Nat × Nat × List Byte × List Byte) :=
  r.filter (fun e => !deletePending s t i e.2.2.1)

/-- The header's RESOURCE asks for the pair's sum (R320). -/
def asksPair (c : Cmd) (x : Table) : Bool := x.kind == 4 && c.resource == resId 0x1C 0

/-- The stacks that a read of the table named first reads. -/
def tableStacks (c : Cmd) (s : State) : List Nat := match tableOf s (c.at 0 4) with | some x => x.regions.map (· / 24576) | none => []

/-- TABLE_READ, 0x0801 R. An ENTRY_HANDLE that names another table is refused with BAD_FIELD (DESIGN CHOICE, log entry 89). -/
def tableReadSpec : CmdSpec :=
  { opcode := 0x0801, kind := .r, layout := plain 16 [rsv 4 4],
    resLen := fun c s => match tableOf s (c.at 0 4) with | some x => 24 + pad8 x.keyBytes + pad8 x.dataBytes | none => 0,
    fields := fun c s => firstFail [
      (decide (c.at 0 4 < 1024), badField 0), (c.at 12 4 == c.at 0 4, badField 8),
      ((match tableOf s (c.at 0 4) with | some x => (instFor x c.resource).isSome || asksPair c x | none => true), failWith St.badResource)],
    hbmStacks := tableStacks,
    run := fun c s => match liveTable s (c.at 0 4) with
      | .error f => .error f
      | .ok x =>
        let i := (instFor x c.resource).getD 0
        .ok { s := s, log := .silent,
              result := readResult (c.at 0 4) x (hideDeleted (c.at 0 4) i (readEntry i x (asksPair c x) (c.at 8 4) s) s) } }

/-- TABLE_SEARCH, 0x0802 R. -/
def tableSearchSpec : CmdSpec :=
  { opcode := 0x0802, kind := .r, layout := entryLayout false, rsvdState := payloadEntryRsvd false,
    resLen := fun c s => match tableOf s (c.at 0 4) with | some x => 24 + pad8 x.keyBytes + pad8 x.dataBytes | none => 0,
    fields := entryFields 2,
    hbmStacks := tableStacks,
    run := fun c s => match liveTable s (c.at 0 4) with
      | .error f => .error f
      | .ok x =>
        let i := (instFor x c.resource).getD 0
        .ok { s := s, log := .silent,
              result := readResult (c.at 0 4) x (hideDeleted (c.at 0 4) i (searchEntry i x (asksPair c x) (payloadKey c) s) s) } }

/-! ### TABLE_CREATE (R163) -/

/-- An action instruction names a table: COUNT and LEARN (R204). -/
def wordRefers (t w : Nat) : Bool := (bitsOf w 4 0 == 0x14 || bitsOf w 4 0 == 0x17) && bitsOf w 41 32 == t
/-- A stage image refers to a table: in a binding or in an instruction. -/
def imgRefers (t : Nat) (g : StageImg) : Bool := (g.a.table == t) || (g.b.table == t) || g.words.any (wordRefers t)
/-- The tables that the stage programs of the current epoch refer to. -/
def programRefs (s : State) : List Nat := (s.tables.map (·.1)).filter (fun t => s.bank.stages.any (fun g => imgRefers t g.2))
/-- A stage program of a live epoch refers to a table (R163). -/
def stageRefers (s : State) (t : Nat) : Bool :=
  s.bank.stages.any (fun g => imgRefers t g.2) || s.mgt.liveRefs.any (fun e => e.2.contains t)

/-- Widths and limits of a kind (R161) as a refusal. -/
def createFields (c : Cmd) (s : State) : Option Fail :=
  let k := c.at 1 1
  let kb := c.at 4 2
  let db := c.at 6 2
  let cap_ := c.at 8 4
  let isA := k == 1 || k == 2
  if c.resource != 0 then some (failWith St.badResource)
  else if c.at 0 1 = 1 then
    firstFail ([(1, 1), (2, 1), (3, 1), (4, 2), (6, 2), (8, 4), (16, 4), (20, 4), (24, 2), (26, 1), (27, 1), (28, 4)].map
      (fun p => (c.at p.1 p.2 == 0, badField p.1)) ++ [(decide (c.at 12 4 < 1024), badField 12)])
  else firstFail [
    (c.at 0 1 == 0, badField 0), (decide (k ≤ 5), badField 1),
    (decide (c.at 2 1 ≤ 1) && (k != 4 || c.at 2 1 == 1) && (k == 0 || k == 3 || k == 4 || c.at 2 1 == 0), badField 2),
    (c.at 3 1 == 0 || (c.at 3 1 == 1 && (k == 0 || k == 3) && c.at 2 1 == 0), badField 3),
    (match k with | 0 => decide (1 ≤ kb) && decide (kb ≤ 80) | 1 => kb == 8 | 2 => kb == 20 | 5 => kb == 40 || kb == 80 | _ => kb == 4, badField 4),
    (match k with | 0 => decide (db ≤ 64) | 3 => decide (1 ≤ db) && decide (db ≤ 64) | 4 => db == 16 | 5 => db == 12 | _ => db == 4, badField 6),
    (match k with | 0 => decide (1 ≤ cap_) && decide (cap_ ≤ 268435456) | 3 => decide (1 ≤ cap_) && decide (cap_ ≤ 16777216)
                  | 4 => decide (1 ≤ cap_) && decide (cap_ ≤ 67108864) | _ => cap_ == 0, badField 8),
    (c.at 12 4 == 0, badField 12), (k == 0 || c.at 16 4 == 0, badField 16),
    (if k = 0 then c.at 20 4 != c.at 16 4 else c.at 20 4 == 0, badField 20),
    (if k = 5 then decide (c.at 24 2 < 1024) else c.at 24 2 == 0, badField 24),
    (k != 5 ||
      (let g := groupOfRules s (c.at 24 2)
       let n := editCopy s g
       (g.copy n).isEmpty && decide (g.mode n ≤ 1) || g.mode n == (if kb = 80 then 1 else 0)), badField 24),
    (match k with | 3 => decide (c.at 26 1 ≤ 1) | 4 => c.at 26 1 == 1 | _ => c.at 26 1 == 0, badField 26),
    (if isA then decide (1 ≤ c.at 27 1) && decide (c.at 27 1 ≤ 64) else c.at 27 1 == 0, badField 27),
    (if isA then decide (16 ≤ c.at 28 4) && decide (c.at 28 4 ≤ 4096) else c.at 28 4 == 0, badField 28)]

/-- Part of a stack is fenced: a table with a region in it is lost (R430; log entry 26). -/
def hbmTablesLost (s : State) (stack : Nat) : Bool :=
  s.faults.fenced.any (fun r => (resKind r == 0x0D && resIndex r / 32 == stack) || (resKind r == 0x13 && resIndex r == stack))

/-- Create a table. -/
def createTable (c : Cmd) (s : State) : Except Fail (State × List Byte) :=
  let k := c.at 1 1
  let n := if c.at 3 1 = 1 then 6 else 1
  let m := memoryFor k (c.at 2 1) (c.at 4 2) (c.at 6 2) (c.at 8 4)
  let units := if k = 1 || k = 2 then c.at 27 1 else if c.at 2 1 = 0 && k != 5 then n * m.1 else 0
  let regs := if k = 1 || k = 2 then c.at 28 4 else if c.at 2 1 = 1 then m.1 else 0
  let counters := s.tables.foldl (fun a t => if t.2.kind = 4 && !t.2.destroyed then a + t.2.capacity else a) 0
  let id := lowestFree (s.tables.map (·.1))
  if 1024 ≤ id || freeUnits s < units || (k = 4 && 67108864 < counters + c.at 8 4) then .error (failWith St.noSpace)
  else match takeRegions s 49152 49152 regs (if k = 4 then 24576 else 0) [] with
    | none => .error (failWith St.noSpace)
    | some rs =>
      let x : Table := {
        kind := k, memory := c.at 2 1, scope := c.at 3 1, keyBytes := c.at 4 2, dataBytes := c.at 6 2, capacity := c.at 8 4,
        seed0 := c.at 16 4, seed1 := c.at 20 4, group := c.at 24 2, release := c.at 26 1, headUnits := c.at 27 1,
        leafMib := c.at 28 4, buckets := m.2, units := units, regions := rs,
        insts := (List.range n).map (fun i => (i, {})), lost := rs.any (fun r => hbmTablesLost s (r / 24576) || !(hbmOf s (r / 24576)).ready) }
      .ok ({ s with tables := mset s.tables id x },
           leBytes 4 id ++ leBytes 4 (if k = 0 then 4 * m.2 else c.at 8 4))

/-- TABLE_CREATE, 0x0807 C. -/
def tableCreateSpec : CmdSpec :=
  { opcode := 0x0807, kind := .c, replicated := fun _ => true, layout := plain 32 [], resLen := fun _ _ => 8,
    fields := createFields,
    objects := fun c _ => if c.at 0 1 = 1 then [tableObj (c.at 12 4)] else [],
    tables := fun c => if c.at 0 1 = 1 then [c.at 12 4] else [],
    object := fun c r _ => entryHandle (if c.at 0 1 = 1 then c.at 12 4 else uN r 0 4) 0,
    apply := fun c s =>
      if c.at 0 1 = 0 then createTable c s
      else match tableOf s (c.at 12 4) with
        | none => .error (failWith St.notFound)
        | some _ =>
          if stageRefers s (c.at 12 4) then .error (failWith St.wrongState)
          else .ok ({ (modTable (c.at 12 4) (fun x => { x with destroyed := true }) s) with
                      mgt.deferring := s.mgt.deferring ++ [.table (c.at 12 4)] }, leBytes 4 (c.at 12 4) ++ zeros 4) }

/-! ### TABLE_SET_POLICY (R164, R505) -/

/-- Slots visited per µs. -/
def sweepRate (x : Table) : Nat := if x.memory = 0 then 64 else 8

/-- The policy of a payload. -/
def policyOf (c : Cmd) : Policy :=
  { full := c.at 4 1, learn := c.at 5 1 == 1, miss := c.at 6 1, tahrWrite := c.at 7 1 == 1, ageMs := c.at 8 4,
    missChannel := c.at 12 2, missCounterTable := c.at 14 2, missCounter := c.at 16 4 }

/-- Unpaused time of an instance: time in which neither R96 nor a deferral of R80 pauses its aging (R505). -/
def unpausedIn (inst : TInst) (s : State) : Nat :=
  unpausedNow s - inst.heldNs - (if inst.held then unpausedNow s - inst.heldAt else 0)

/-- AGE_PERIOD_MS changed on an instance (R505). -/
def setAging (old new now : Nat) (i : TInst) : TInst :=
  if new = 0 then { i with sweeping := false, sweepPos := 0 }
  else if old = 0 then { i with sweeping := true, sweepPos := 0, sweepAt := some now, sweepMs := new }
  else i

/-- A COUNTER_TABLE field names a kind 4 table. -/
def isCounterTable (s : State) (t : Nat) : Bool := match tableOf s t with | some x => x.kind == 4 | none => false

/-- TABLE_SET_POLICY, 0x0808 C. -/
def tableSetPolicySpec : CmdSpec :=
  { opcode := 0x0808, kind := .c, replicated := fun _ => true, layout := plain 24 [(12, 2, 0x7C00), rsv 20 4],
    fields := fun c s =>
      let x := tableOf s (c.at 0 4)
      let k0 := match x with | some x => x.kind == 0 | none => true
      firstFail [
        (decide (c.at 0 4 < 1024), badField 0), (c.resource == 0, failWith St.badResource),
        (decide (c.at 4 1 ≤ 2) && (k0 || c.at 4 1 == 0), badField 4),
        (decide (c.at 5 1 ≤ 1) && (k0 || c.at 5 1 == 0), badField 5),
        (decide (c.at 6 1 ≤ 2), badField 6), (decide (c.at 7 1 ≤ 1), badField 7),
        (c.at 8 4 == 0 || (k0 && decide (10 ≤ c.at 8 4) && decide (c.at 8 4 ≤ 3600000)), badField 8),
        ((match x with
          | some x => c.at 8 4 == 0 || decide (4 * x.buckets + 64 ≤ c.at 8 4 * 1000 * sweepRate x)
          | none => true), badField 8),
        (c.at 14 2 == 0xFFFF || isCounterTable s (c.at 14 2), badField 14),
        (c.at 14 2 != 0xFFFF || c.at 16 4 == 0xFFFFFFFF, badField 16)],
    objects := fun c _ => [tableObj (c.at 0 4)],
    object := fun c _ _ => entryHandle (c.at 0 4) 0,
    apply := fun c s => match liveTable s (c.at 0 4) with
      | .error f => .error f
      | .ok x =>
        let p := policyOf c
        .ok (modTable (c.at 0 4) (fun y => { y with
          policy := p, insts := mmap y.insts (fun _ i => setAging x.policy.ageMs p.ageMs (unpausedIn i s) i) }) s, []) }

end Sys2Proof.Machine
end

