-- ==== Sys2Proof/Machine/TableEngine.lean ====
section
/-! DEFINITION. What the table engines do besides commands: register sets, learning, aging, REL, old tries, and the TBL_ registers (R170-R172, R176, R181, R186, R189, R505 06_lookup_tables). -/

namespace Sys2Proof.Machine

/-! ### Batches of hardware changes (R90, R188) -/

/-- An entry in the TABLE_BULK entry format; `withData` is false for a delete. -/
def batchEntry (x : Table) (key data : List Byte) (withData : Bool) : List Byte :=
  fit (pad8 x.keyBytes) key ++ (if withData then fit (pad8 x.dataBytes) data else [])

/-- Record an insert of the table engine, its eviction before it. -/
def batchInsert (t i resource : Nat) (x : Table) (key data : List Byte) (evicted : Option Entry) (s : State) : State :=
  let s := match evicted with
    | some e => count 0x06 t 1 1 (batchChange t i resource true (batchEntry x e.key [] false) s)
    | none => s
  batchChange t i resource false (batchEntry x key data true) s

/-! ### Learning (R189) -/

/-- Offer a learn event to a table's queue, one for each instance of a per-sector table (DESIGN CHOICE, log entry 89; R80, R96, R189): a full queue counts LEARN_FAIL, and LEARN_DROPS while a commit defers learning; paused learning discards it. -/
def offerLearn (t i : Nat) (key data : List Byte) (s : State) : State :=
  match tableOf s t with
  | none => s
  | some x =>
    if x.kind != 0 || !x.policy.learn || tableDown s x then s
    else if learningPaused s then learnDrop s
    else
      let inst := instOf x i
      if 4096 ≤ inst.learnQ.length then
        let s := count 0x06 t 2 1 s
        if inst.held then learnDrop s else s
      else modInst t i (fun n => { n with learnQ := n.learnQ ++ [(key, data)] }) s

/-- The member applies the active's journal, or did until it diverged: its sweeper does not age (R316). -/
def onStandby (s : State) : Bool := s.pair.role == 3 || s.pair.role == 6

/-- LEARN_EVENT: the engine takes the oldest event as an insert with MODE 0 and LEARNED 1. -/
def execLearnEvent (t i : Nat) (s : State) : Host.Outcome State Fault Refusal :=
  answer s (match tableOf s t with
    | none => s
    | some x =>
      let inst := instOf x i
      match inst.learnQ with
      | [] => s
      | (key, data) :: rest =>
        if !trafficOn s || inst.held || learningPaused s || x.kind != 0 || tableDown s x then s
        else
          let s := modInst t i (fun n => { n with learnQ := rest }) s
          let m := if onStandby s && !s.pair.cfg.standbyLearn then (false, s) else tableMet s x
          let s := m.2
          if onStandby s && !s.pair.cfg.standbyLearn then count 0x11 0 0 1 s
          else if m.1 then count 0x06 t 2 1 s
          else if (findEntry x inst key).isSome then modInst t i (onKey key (fun e => { e with hit := true })) s
          else match tableOf s t with
            | none => s
            | some x =>
              match insertExact t i x key data { replace := false, learned := true } s with
              | .error _ => count 0x06 t 0 1 (count 0x06 t 2 1 s)
              | .ok d => batchInsert t i (instResource x i) x key data d.evicted d.s)

/-! ### Aging (R186, R505) -/

/-- SWEEP_START: one period of unpaused time after the start of the previous sweep. -/
def execSweepStart (t i : Nat) (s : State) : Host.Outcome State Fault Refusal :=
  answer s (match tableOf s t with
    | none => s
    | some x =>
      let inst := instOf x i
      let due := match inst.sweepAt with
        | some a => decide (a + x.policy.ageMs * 1000000 ≤ unpausedIn inst s)
        | none => true
      if x.kind != 0 || x.policy.ageMs = 0 || inst.sweeping || !due || learningPaused s || inst.held || !trafficOn s || onStandby s then s
      else
        let now := unpausedIn inst s
        modInst t i (fun n => { n with sweeping := true, sweepPos := 0, sweepAt := some now, sweepMs := x.policy.ageMs }) s)

/-- The next position of the sweep that holds an entry: slots in order, then the stash. -/
def nextPosition (x : Table) (inst : TInst) : Option (Nat × Entry) :=
  (inst.slots ++ inst.stash.map (fun p => (4 * x.buckets + p.1, p.2))).find? (fun p => inst.sweepPos ≤ p.1)

/-- SWEEP_VISIT (R186): the next entry of a running sweep is visited; the sweep that finds none is complete. -/
def execSweepVisit (t i : Nat) (s : State) : Host.Outcome State Fault Refusal :=
  answer s (match tableOf s t with
    | none => s
    | some x =>
      let inst := instOf x i
      if x.kind != 0 || tableDown s x || !inst.sweeping || inst.held || learningPaused s || !trafficOn s || onStandby s then s
      else match nextPosition x inst with
        | none => modInst t i (fun n => { n with sweeping := false, sweepPos := 0, sweeps := (n.sweeps + 1) % 2 ^ 16 }) s
        | some (p, e) =>
          let m := tableMet s x
          let s := modInst t i (fun n => { n with sweepPos := p + 1 }) m.2
          if m.1 || e.static then s
          else if e.hit then modInst t i (onKey e.key (fun e => { e with hit := false, clearSeen := false })) s
          else if !e.clearSeen then modInst t i (onKey e.key (fun e => { e with clearSeen := true })) s
          else
            let s := modInst t i (removeKey x e.key s.time.uptime) s
            batchChange t i (instResource x i) true (batchEntry x e.key [] false) (count 0x06 t 3 1 s))

/-! ### REL and old tries -/

/-- REL_CLEAR (R176): the hold of 250 ns on die or 1 µs in HBM has ended. -/
def execRelClear (t i : Nat) (s : State) : Host.Outcome State Fault Refusal :=
  answer s (match tableOf s t with
    | none => s
    | some x => match (instOf x i).rel with
      | some (_, at_) => if at_ + (if x.memory = 0 then 250 else 1000) ≤ s.time.uptime then
          modInst t i (fun n => { n with rel := none }) s else s
      | none => s)

/-- TRIE_FREE (R181): what only an old trie reached is freed 2 µs after the write that replaced it. -/
def execTrieFree (t : Nat) (s : State) : Host.Outcome State Fault Refusal :=
  answer s (match tableOf s t with
    | none => s
    | some x =>
      if x.kind = 1 || x.kind = 2 then
        modInst t 0 (fun n => { n with trie := trieSweep s.time.uptime n.trie }) s
      else s)

/-! ### Register sets (R170-R172) -/

/-- Register set `n`. -/
def setOf (s : State) (n : Nat) : CmdSet := mgetD s.sets n {}
/-- Change a register set. -/
def modSet (n : Nat) (f : CmdSet → CmdSet) (s : State) : State := { s with sets := mmod s.sets n {} f }

/-- Cluster of a Tahr set: sets 8-15 cluster A, 16-23 cluster B. -/
def setCluster (n : Nat) : Option Nat := if n < 8 then none else if n < 16 then some 0 else some 1

/-- A refusal as what a set shows. -/
def setFails (c : CmdSet) (status : Nat) : SetResult :=
  { status := status, evicted := false, found := false, relocations := 0, handle := c.handle, key := c.key, data := c.data }

/-- The checks of a set's operation: the table and instance, or the refusal. TXN_CONFLICT meets changing operations only (DESIGN CHOICE, log entry 89). -/
def setTarget (n : Nat) (c : CmdSet) (op : Nat) (s : State) : Except Nat (Nat × Nat × Table) :=
  let t := bitsOf c.cmd 25 16
  let i := bitsOf c.cmd 28 26
  match tableOf s t with
  | none => .error St.notFound
  | some x =>
    let key := c.key.take x.keyBytes
    let data := c.data.take x.dataBytes
    let changes := 3 ≤ op
    if tableDown s x then .error St.fenced
    else if (if x.scope = 0 then i != 0 else decide (6 ≤ i)) then .error St.badField
    else if changes && (setCluster n).isSome && !x.policy.tahrWrite then .error St.denied
    else if op != 1 && (keyFail x (op == 2) key (if op = 3 || op = 4 then data else []) 0 0).isSome then
      .error (match keyFail x (op == 2) key (if op = 3 || op = 4 then data else []) 0 0 with | some f => f.status | none => St.badField)
    else if changes && (setCluster n).isSome && entryStaged s t i key then .error St.txnConflict
    else if changes && (setCluster n).isSome && learningPaused s then .error St.journalFull
    else .ok (t, i, x)

/-- Journal a change made through a set: a Tahr set in batches, a firmware set as a command record. -/
def setJournal (n t i op : Nat) (x : Table) (key data : List Byte) (handle : Nat) (evicted : Option Entry) (s : State) : State :=
  match setCluster n with
  | some k =>
    if op = 5 then batchChange t i (resId 0x11 k) true (batchEntry x key [] false) s
    else batchInsert t i (resId 0x11 k) x key data evicted s
  | none =>
    let put := fun (op h : Nat) (key data : List Byte) (s : State) =>
      (journalCmd { uptime := s.time.uptime, generation := s.mgt.generation, object := entryHandle t h,
                    resource := instResource x i, opcode := 0x0800 + op, origin := 0x5000, replicated := true,
                    payload := leBytes 4 t ++ leBytes 2 x.keyBytes ++ leBytes 2 data.length ++ zeros 8 ++
                      fit (pad8 x.keyBytes) key ++ data } s).2
    let s := match evicted with
      | some e => put 5 e.handle e.key [] (count 0x06 t 1 1 s)
      | none => s
    put op handle key (if op = 5 then [] else data) s

/-- Execute a set's operation at GO: what the set will show. A read by a HANDLE of another table finds nothing (DESIGN CHOICE, log entry 89). -/
def setRun (n : Nat) (c : CmdSet) (s : State) : SetResult × State :=
  let op := bitsOf c.cmd 2 0
  if op = 0 then (setFails c St.success, s)
  else if 5 < op then (setFails c St.badField, s)
  else match setTarget n c op s with
    | .error st => (setFails c st, s)
    | .ok (t, i, x) =>
      let key := c.key.take x.keyBytes
      let data := c.data.take x.dataBytes
      let m := tableMet s x
      let s := m.2
      if m.1 then (setFails c St.internalError, s)
      else if op ≤ 2 then
        match (if op = 1 then (if c.handle / 2 ^ 32 = t then readEntry i x false (c.handle % 2 ^ 32) s else none)
               else searchEntry i x false key s) with
        | none => ({ setFails c St.success with found := false }, s)
        | some (h, _, k, d) =>
          ({ status := St.success, evicted := false, found := true, relocations := 0, handle := entryHandle t h,
             key := fit 80 (fit (pad8 x.keyBytes) k), data := fit 64 (fit (pad8 x.dataBytes) d) }, s)
      else
        let done := match op with
          | 3 => insertEntry t i x key data { replace := bit c.cmd 3, static := bit c.cmd 4, learned := (setCluster n).isSome } s
          | 4 => updateEntry t i x key data s
          | _ => (editTarget t i x key s).map (fun h => { s := applyDelete t i key s, handle := h })
        match done with
        | .error f => (setFails c f.status, if f.status = St.noSpace then count 0x06 t 0 1 s else s)
        | .ok d =>
          ({ setFails c St.success with
               evicted := d.evicted.isSome, relocations := d.moves,
               handle := if op = 3 then entryHandle t d.handle else c.handle },
           setJournal n t i op x key data d.handle d.evicted d.s)

/-- A changing operation of a Tahr set waits while a commit defers learning into its table (R172), and one of any set while a phase A writes into it (DESIGN CHOICE, log entry 83). -/
def setWaits (n : Nat) (c : CmdSet) (s : State) : Bool :=
  let t := bitsOf c.cmd 25 16
  decide (3 ≤ bitsOf c.cmd 2 0) &&
  (((setCluster n).isSome && (match tableOf s t with | some x => (instOf x (bitsOf c.cmd 28 26)).held | none => false)) ||
   s.mgt.commits.any (fun k => k.before.any (fun b => b.1 == t)))

/-- A write of TBL_CMD (R170): GO starts the operation and sets BUSY; a busy set ignores and counts the write. -/
def setCommand (n value : Nat) (s : State) : State :=
  let c := setOf s n
  if !running s || s.faults.stagHeld then s
  else if c.busy then modSet n (fun c => { c with busyWrites := (c.busyWrites + 1) % 256 }) s
  else
    let c := { c with cmd := value % 2 ^ 29 &&& 0x1FFF001F, key := fit 80 c.key, data := fit 64 c.data }
    if !bit value 63 then modSet n (fun _ => c) s
    else if setWaits n c s then modSet n (fun _ => { c with busy := true, waiting := true, result := none }) s
    else
      let r := setRun n c s
      modSet n (fun _ => { c with busy := true, waiting := false, result := some r.1 }) r.2

/-- TBL_CMD_READ. -/
def execTblCmdRead (n v : Nat) (s : State) : Host.Outcome State Fault Refusal :=
  answer s (setCommand n (withBits v 2 0 1 ||| 2 ^ 63) s)
/-- TBL_CMD_SEARCH. -/
def execTblCmdSearch (n v : Nat) (s : State) : Host.Outcome State Fault Refusal :=
  answer s (setCommand n (withBits v 2 0 2 ||| 2 ^ 63) s)
/-- TBL_CMD_INSERT. -/
def execTblCmdInsert (n v : Nat) (s : State) : Host.Outcome State Fault Refusal :=
  answer s (setCommand n (withBits v 2 0 3 ||| 2 ^ 63) s)
/-- TBL_CMD_UPDATE. -/
def execTblCmdUpdate (n v : Nat) (s : State) : Host.Outcome State Fault Refusal :=
  answer s (setCommand n (withBits v 2 0 4 ||| 2 ^ 63) s)
/-- TBL_CMD_DELETE. -/
def execTblCmdDelete (n v : Nat) (s : State) : Host.Outcome State Fault Refusal :=
  answer s (setCommand n (withBits v 2 0 5 ||| 2 ^ 63) s)

/-- The operation of a busy set is finished: its registers are filled and BUSY clears. An operation that waited for its table runs first. -/
def setFinish (n : Nat) (s : State) : State :=
  let c := setOf s n
  if !c.busy || (c.waiting && setWaits n c s) then s
  else
    let r := match c.result with
      | some r => (r, s)
      | none => setRun n c s
    modSet n (fun c => { c with
      busy := false, waiting := false, result := none, status := r.1.status, evicted := r.1.evicted, found := r.1.found,
      relocations := r.1.relocations, handle := r.1.handle, key := r.1.key, data := r.1.data }) r.2

/-! ### Status registers -/

/-- TBL_CMD_STATUS. -/
def setStatusWord (c : CmdSet) : Nat :=
  b2n c.busy + b2n c.evicted * 2 + b2n c.found * 4 + c.status * 2 ^ 16 + c.relocations * 2 ^ 32 + c.busyWrites * 2 ^ 40
/-- TBL_LOOKUP_STATUS. -/
def lookupStatusWord (s : State) : Nat := prefixCount s + freeUnits s * 2 ^ 32 + (tcamSize - tcamUsed s) * 2 ^ 40
/-- Entries an instance holds. -/
def entryCount (s : State) (x : Table) (i : Nat) : Nat :=
  match x.kind with
  | 4 => (instOf x i).pairs.length
  | 5 => ((groupOfRules s x.group).copy (editCopy s (groupOfRules s x.group))).length
  | _ => (instOf x i).slots.length + (instOf x i).stash.length
/-- TBL_TABLE_STATUS. -/
def tableStatusWord (s : State) (t i : Nat) : Nat :=
  match tableOf s t with
  | none => 0
  | some x =>
    let n := instOf x i
    entryCount s x i + n.stash.length * 2 ^ 32 + b2n n.rel.isSome * 2 ^ 39 + b2n n.held * 2 ^ 40 + b2n n.sweeping * 2 ^ 41

end Sys2Proof.Machine
end

