-- ==== Sys2Proof/Machine/Parser.lean ====
section
/-! DEFINITION. The parser: graph walk, hash, parse-time metadata, default actions, rule group commands (05_parser_and_classification). -/

namespace Sys2Proof.Machine

/-! ### The symmetric hash (R155-R157) -/

/-- 32-bit words of a field, first octet most significant, the last padded with zeros. -/
def words32 : Nat → List Byte → List Nat
  | 0, _ => []
  | n + 1, bs => if bs.isEmpty then [] else beNat (fit 4 bs) :: words32 n (bs.drop 4)
/-- fold32 of a field (R155). -/
def fold32 (bs : List Byte) : Nat := (words32 4 bs).foldl (· ^^^ ·) 0
/-- Rotate left in 32 bits. -/
def rotl32 (x n : Nat) : Nat := (x * 2 ^ n % 2 ^ 32) + x / 2 ^ (32 - n)

/-- Words that a hash profile contributes over a header vector: pairs, sum before xor, then singles. -/
def hashWords (prof : Nat) (hv : List Byte) : List Nat :=
  let pairs := (List.range (bitsOf prof 39 32)).map (fun i =>
    let w := bitsOf prof (95 + 32 * i) (64 + 32 * i)
    let a := fold32 (slice hv (bitsOf w 7 0) (bitsOf w 23 16))
    let b := fold32 (slice hv (bitsOf w 15 8) (bitsOf w 23 16))
    [(a + b) % 2 ^ 32, a ^^^ b])
  let singles := (List.range (bitsOf prof 47 40)).map (fun i =>
    let w := bitsOf prof (207 + 16 * i) (192 + 16 * i)
    fold32 (slice hv (bitsOf w 7 0) (bitsOf w 15 8)))
  pairs.flatten ++ singles

/-- The hash of R156 from a seed and its words. -/
def mixHash (seed : Nat) (ws : List Nat) : Nat :=
  let h := ws.foldl (fun h w => rotl32 h 7 ^^^ w) (seed % 2 ^ 32)
  let h := h ^^^ (h * 2 ^ 13 % 2 ^ 32)
  let h := h ^^^ h / 2 ^ 17
  h ^^^ (h * 2 ^ 5 % 2 ^ 32)
/-- HASH of an accepted packet under a profile. -/
def symHash (prof : Nat) (hv : List Byte) : Nat := mixHash (bitsOf prof 31 0) (hashWords prof hv)

/-- Member that a group of n selects (R157). -/
def selectMember (hash n : Nat) : Nat := hash * n / 2 ^ 32

/-! ### The graph (R132-R140) -/

/-- A parse in progress. -/
structure Parse where
  cursor : Nat := 0
  hv : List Byte
  hdrValid : Nat := 0
  layers : NMap Nat := []
  prof : Nat := 0
  flags : Nat := 0
  last : Nat := 0
  /-- 0 accepted, or the cause of R140 -/
  status : Nat := 0

/-- Extractions of a state: (SRC_OFF, length, DEST) of the enabled ones, in order (R133). -/
def extractions (st : Nat) : List (Nat × Nat × Nat) :=
  ([12, 32, 52, 72].filter (fun lo => bit st (lo + 18))).map (fun lo =>
    (bitsOf st (lo + 5) lo, bitsOf st (lo + 9) (lo + 6) + 1, bitsOf st (lo + 17) (lo + 10)))

/-- Run extractions in order; false at the first that touches an out-of-frame octet. -/
def runExtract (w : List Byte) (cur : Nat) : List (Nat × Nat × Nat) → List Byte → Bool × List Byte
  | [], hv => (true, hv)
  | (off, n, dest) :: rest, hv =>
    if w.length < cur + off + n then (false, hv)
    else runExtract w cur rest (poke hv dest (slice w (cur + off) n))

/-- Steps 2 to 5 of R134. -/
def markState (st : Nat) (p : Parse) : Parse :=
  { p with hdrValid := if bit st 98 then p.hdrValid ||| 2 ^ bitsOf st 97 92 else p.hdrValid,
           layers := if bit st 103 then mset p.layers (bitsOf st 102 99) p.cursor else p.layers,
           prof := if bit st 108 then bitsOf st 107 104 else p.prof,
           flags := p.flags ||| bitsOf st 115 109 }

/-- The lookahead of a state and whether an octet of it is out of frame. -/
def lookahead (w : List Byte) (st cur : Nat) : Nat × Bool :=
  let hi := cur + bitsOf st 5 0
  let lo := cur + bitsOf st 11 6
  (beNat (slice w hi 2) * 2 ^ 16 + beNat (slice w lo 2), decide (w.length < hi + 2) || decide (w.length < lo + 2))

/-- The transition TCAM: the result of the lowest entry that matches (R135). -/
def transition (tcam : List (Nat × Nat × Nat)) (key : Nat) : Option Nat :=
  (tcam.find? (fun e => (key ^^^ e.1) &&& e.2.1 == 0)).map (·.2.2)

/-- Advance of a result (R136). -/
def advance (r la : Nat) : Nat :=
  bitsOf r 16 10 + la / 2 ^ bitsOf r 21 17 % 2 ^ bitsOf r 25 22 * 2 ^ bitsOf r 27 26

/-- Visit states from `st` on; `n` visits are left of the 32 of R139. -/
def parseFrom (cfg : ParserCfg) (w : List Byte) : Nat → Nat → Parse → Parse
  | 0, _, p => { p with status := 5 }
  | n + 1, st, p =>
    match cfg.states[st]? with
    | none => { p with status := 1, last := st }
    | some e =>
      let p := { p with last := st }
      let x := runExtract w p.cursor (extractions e) p.hv
      let p := { p with hv := x.2 }
      if !x.1 then { p with status := 3 }
      else
        let p := markState e p
        let la := lookahead w e p.cursor
        match transition cfg.tcam (st * 2 ^ 40 + (p.flags + b2n la.2 * 128) * 2 ^ 32 + la.1) with
        | none => { p with status := 1 }
        | some r =>
          if bitsOf r 9 8 = 2 then { p with status := 2 }
          else
            let cur := p.cursor + advance r la.1
            if w.length < cur then { p with status := 4 }
            else if bitsOf r 9 8 = 1 then { p with cursor := cur }
            else parseFrom cfg w n (bitsOf r 7 0) { p with cursor := cur }

/-- Parse a header window of a source. -/
def parse (cfg : ParserCfg) (source : Nat) (w : List Byte) : Parse :=
  parseFrom cfg w 32 (cfg.start.getD source 0 % 256) { hv := zeros 256 }

/-- The metadata at the end of the parse (R142, R143, R200). -/
def parseMeta (cfg : ParserCfg) (source tag : Nat) (a : Arrival) (p : Parse) : List Byte :=
  let injected := 192 ≤ source
  let ok := p.status == 0
  leBytes 2 source ++ leBytes 2 a.bytes.length ++ leBytes 1 (tag + tag % 2 * 8) ++ zeros 2 ++ [0x80] ++
  leBytes 8 p.hdrValid ++ leBytes 8 (if injected then 0 else a.rxTime) ++
  leBytes 4 (if ok then symHash (cfg.profiles.getD p.prof 0) p.hv else 0) ++
  leBytes 2 (if ok then p.cursor else 0xFFFF) ++ leBytes 1 p.status ++ leBytes 1 p.last ++ leBytes 1 p.flags ++
  leBytes 1 (b2n a.macsec + b2n a.framed * 2 + b2n injected * 4) ++ leBytes 2 (if source = 193 then a.slice else 0) ++
  ((List.range 14).map (fun i => leBytes 2 (mgetD p.layers i 0xFFFF))).flatten ++
  zeros 20 ++ fit 44 a.carried ++ zeros 128

/-! ### Admission to a pipeline (R198, R427) -/

/-- HBM allowance of a pipeline after the fill up to now, in hundredths of an access (5.16 G accesses per second). -/
def allowanceNow (s : State) (pl : Nat) : Int :=
  min 25600 (mgetD s.allowance pl 25600 + (516 * (s.time.uptime - mgetD s.allowAt pl 0) : Nat))
/-- CK_FPIPE clocks in a time in ns (2.2 GHz). -/
def fpipeClocks (ns : Nat) : Nat := ns * 22 / 10
/-- Bring the allowance of a pipeline up to date and count the clocks it was held. -/
def fillAllowance (pl : Nat) (s : State) : State :=
  let old := mgetD s.allowance pl 25600
  let dt := s.time.uptime - mgetD s.allowAt pl 0
  let held := if old < 0 then Nat.min dt (ceilDiv (-old).toNat 516) else 0
  { s with allowance := mset s.allowance pl (allowanceNow s pl), allowAt := mset s.allowAt pl s.time.uptime,
           holdClocks := mput s.holdClocks pl ((mgetD s.holdClocks pl 0 + fpipeClocks held) % 2 ^ 32) }
/-- Admission of a pipeline is held. -/
def admissionHeld (s : State) (pl : Nat) : Bool := decide (allowanceNow s pl < 0) || s.retrainHold.isSome || s.pchans.any (fun p => decide (p.1 < 64) && p.2.paused)

/-- One HBM table access of a packet in a pipeline, which reads the bursts at some addresses: it takes an allowance, and monitor points 7 and 8 record its time, a free value of at most 400 ns. It may meet an uncorrectable burst (R429). -/
def hbmAccess (pl : Nat) (as : List Nat) (s : State) : Bool × State :=
  let s := fillAllowance pl s
  let s := { s with allowance := mset s.allowance pl (mgetD s.allowance pl 25600 - 100) }
  let s := as.foldl (fun s a => match pcOf s a with | some p => hbmRead p 401 s | none => s) s
  let r := drawBelow 401 s
  as.foldl (fun x a => let r := meetsAt a x.2; (x.1 || r.1, r.2)) (false, monEvent 8 pl r.1 r.2)

/-! ### Samplers at the parser (R217, R218) -/

/-- The countdown after a reload. -/
def reloadSampler (x : Sampler) (s : State) : Nat × State :=
  if x.mode = 2 then
    let r := drawBelow (2 * x.n - 1) s
    (r.1 + 1, r.2)
  else (x.n, s)

/-- Offer a packet to a sampler: whether it is selected. -/
def offerSampler (k : Nat) (s : State) : Bool × State :=
  let x := mgetD s.samplers k {}
  if x.mode = 0 then (false, s)
  else if x.countdown ≤ 1 then
    let r := reloadSampler x s
    (true, count 0x08 k 0 1 { r.2 with samplers := mset r.2.samplers k { x with countdown := r.1 } })
  else (false, { s with samplers := mset s.samplers k { x with countdown := x.countdown - 1 } })

/-- The metadata after an offer to sampler `k`: the first selection writes SAMPLER, a later one counts SAMPLE_MERGED. -/
def sampleMeta (k : Nat) (m : List Byte) (s : State) : List Byte × State :=
  match offerSampler k s with
  | (false, s) => (m, s)
  | (true, s) =>
    if bit (u16 m 78) 15 then (m, count 0x08 k 2 1 s) else (poke m 78 (leBytes 2 (k + 2 ^ 15)), s)

/-! ### PARSER_ENTRY -/

/-- Key of the injection queue of a pipeline for source 192 or 193. -/
def injectKey (pl source : Nat) : Nat := pl * 2 + (source - 192)
/-- Put an injected header in front of a pipeline. -/
def injectHeader (pl source : Nat) (a : Arrival) (s : State) : State :=
  { s with host.inject := mmod s.host.inject (injectKey pl source) [] (fun q => q ++ [a]) }

/-- The oldest header of a source in front of a pipeline, and the state without it. -/
def takeArrival (source pl : Nat) (s : State) : Option (Arrival × State) :=
  if source < 192 then
    if source / 16 = pl then match mgetD s.staging source [] with
      | a :: rest => some (a, { s with staging := mset s.staging source rest })
      | [] => none
    else none
  else if source < 194 then match mgetD s.host.inject (injectKey pl source) [] with
    | a :: rest => some (a, { s with host.inject := mset s.host.inject (injectKey pl source) rest })
    | [] => none
  else none

/-- The pipelines of a number carry traffic: not fenced, powered. -/
def ingressPipeOk (s : State) (pl : Nat) : Bool :=
  decide (pl < 12) && !isFenced s (resId 0x0C pl) && (mgetD s.power.domains (3 + pl / 2) {}).on

/-- A network frame waits in front of a pipeline: it claims the next header slot that is not reserved (R27). -/
def networkWaits (s : State) (pl : Nat) : Bool := s.staging.any fun (p, l) => p / 16 == pl && !l.isEmpty
/-- Enter one header into the parser of a pipeline (R144). -/
def enterHeader (source pl : Nat) (a : Arrival) (s : State) : State :=
  let cfg := s.bank.parser
  let p := parse cfg source (a.bytes.take 512)
  let m := parseMeta cfg source s.mgt.curTag a p
  let s := if source < 192 then count 0x01 source 1 a.bytes.length (count 0x01 source 0 1 s) else s
  let s := if p.status = 0 then s else count 0x04 source (p.status - 1) 1 s
  let ms := if source < 192 then sampleMeta (4096 + source) m s else (m, s)
  let s := ms.2
  let s := { s with hdrSlot := mput s.hdrSlot pl ((mgetD s.hdrSlot pl 0 + 1) % 256) }
  let idx := if source < 192 then (portOf s source).fwd.defaultAction else bitsOf (cfg.start.getD source 0) 19 8
  let k : Pkt := { frame := a.bytes, meta_ := ms.1, hv := p.hv, source := source, pipe := pl, tag := s.mgt.curTag,
                   born := s.time.uptime, stage := if p.status = 0 then 0 else 16, defaultIdx := idx }
  { s with pkts := mset s.pkts s.nextPkt k, nextPkt := s.nextPkt + 1 }

/-! ### PARSER_LOAD, PARSER_GET (R158) -/

/-- Offsets of the sections of a parser image. -/
structure ImgOffs where
  states : Nat
  start : Nat
  tcam : Nat
  defaults : Nat
  profiles : Nat
  len : Nat

/-- The sections of an image with these counts. -/
def imgOffs (st tc df pf : Nat) : ImgOffs :=
  let start := 16 + 16 * st
  let tcam := start + 1024
  let defaults := tcam + 16 * tc
  let profiles := defaults + 16 * df
  ⟨16, start, tcam, defaults, profiles, profiles + 32 * pf⟩

/-- The sections of a PARSER_LOAD. -/
def loadOffs (c : Cmd) : ImgOffs := imgOffs (c.at 2 2) (c.at 4 2) (c.at 6 2) (c.at 8 2)

/-- Reserved fields of an image; the bits of the CLASS, COLOUR and QUEUE bytes of a default action that its table does not list are taken as reserved (DESIGN CHOICE, log entry 93). -/
def parserRsvd (c : Cmd) : List (Nat × Nat × Nat) :=
  let o := loadOffs c
  rsv 10 6 ::
  ((List.range (min (c.at 2 2) 256)).map (fun i =>
    let b := 16 + 16 * i
    [(b + 3, 1, 0x80), (b + 6, 1, 0x08), (b + 8, 1, 0x80), (b + 11, 1, 0x08), (b + 14, 2, 0xFFF0)])).flatten ++
  (List.range 256).map (fun i => (o.start + 4 * i + 2, 2, 0xFFF0)) ++
  (List.range (min (c.at 4 2) 1024)).map (fun i => (o.tcam + 16 * i + 15, 1, 0xF0)) ++
  ((List.range (min (c.at 6 2) 4096)).map (fun i =>
    let b := o.defaults + 16 * i
    [(b + 1, 1, 0x78), (b + 2, 1, 0x7C), (b + 3, 1, 0x38), (b + 8, 2, 0x7C00)])).flatten ++
  ((List.range (min (c.at 8 2) 16)).map (fun i =>
    let b := o.profiles + 32 * i
    [rsv (b + 6) 2, rsv (b + 11) 1, rsv (b + 15) 1, rsv (b + 19) 1, rsv (b + 23) 1])).flatten

/-- Checks of one state entry at an offset. -/
def stateFieldFail (c : Cmd) (b : Nat) : List (Bool × Fail) :=
  let e := c.at b 16
  [(decide (bitsOf e 5 0 ≤ 62), badField b), (decide (bitsOf e 11 6 ≤ 62), badField b)] ++
  ([12, 32, 52, 72].map (fun lo =>
    (!bit e (lo + 18) || decide (bitsOf e (lo + 17) (lo + 10) + bitsOf e (lo + 9) (lo + 6) + 1 ≤ 256), badField (b + lo / 8)))) ++
  [(decide (bitsOf e 102 99 ≤ 13), badField (b + 12))]

/-- Checks of one default action (R153). -/
def defaultFieldFail (c : Cmd) (s : State) (b : Nat) : List (Bool × Fail) :=
  [(decide (c.at b 1 ≤ 3), badField b), (c.at (b + 2) 1 % 4 != 3, badField (b + 2)),
   (c.at (b + 10) 2 == 0xFFFF || isCounterTable s (c.at (b + 10) 2), badField (b + 10)),
   (c.at (b + 10) 2 != 0xFFFF || c.at (b + 12) 4 == 0xFFFFFFFF, badField (b + 12))]

/-- Checks of one hash profile. -/
def profileFieldFail (c : Cmd) (b : Nat) : List (Bool × Fail) :=
  let lenOk := fun (n : Nat) => decide (1 ≤ n) && decide (n ≤ 16)
  [(decide (c.at (b + 4) 1 ≤ 4), badField (b + 4)), (decide (c.at (b + 5) 1 ≤ 4), badField (b + 5))] ++
  ((List.range (min 4 (c.at (b + 4) 1))).map (fun i =>
    let q := b + 8 + 4 * i
    [(lenOk (c.at (q + 2) 1), badField (q + 2)), (decide (c.at q 1 + c.at (q + 2) 1 ≤ 256), badField q),
     (decide (c.at (q + 1) 1 + c.at (q + 2) 1 ≤ 256), badField (q + 1))])).flatten ++
  ((List.range (min 4 (c.at (b + 5) 1))).map (fun i =>
    let q := b + 24 + 2 * i
    [(lenOk (c.at (q + 1) 1), badField (q + 1)), (decide (c.at q 1 + c.at (q + 1) 1 ≤ 256), badField q)])).flatten

/-- Field checks of PARSER_LOAD (R158). -/
def parserLoadFields (c : Cmd) (s : State) : Option Fail :=
  let o := loadOffs c
  match firstFail [
    (c.at 0 2 == 1, badField 0), (decide (c.at 2 2 ≤ 256), badField 2), (decide (c.at 4 2 ≤ 1024), badField 4),
    (decide (c.at 6 2 ≤ 4096), badField 6), (decide (c.at 8 2 ≤ 16), badField 8)] with
  | some f => some f
  | none => firstFail (
      ((List.range (c.at 2 2)).map (fun i => stateFieldFail c (o.states + 16 * i))).flatten ++
      (List.range 256).map (fun i => (decide (i < 194) || c.at (o.start + 4 * i) 4 == 0, badField (o.start + 4 * i))) ++
      ((List.range (c.at 4 2)).map (fun i =>
        let b := o.tcam + 16 * i + 12
        [(bitsOf (c.at b 4) 9 8 != 3, badField (b + 1)), (decide (bitsOf (c.at b 4) 25 22 ≤ 8), badField (b + 2))])).flatten ++
      ((List.range (c.at 6 2)).map (fun i => defaultFieldFail c s (o.defaults + 16 * i))).flatten ++
      ((List.range (c.at 8 2)).map (fun i => profileFieldFail c (o.profiles + 32 * i))).flatten)

/-- The configuration of an image. -/
def parserCfg (c : Cmd) : ParserCfg :=
  let o := loadOffs c
  { states := (List.range (c.at 2 2)).map (fun i => c.at (o.states + 16 * i) 16),
    start := (List.range 256).map (fun i => c.at (o.start + 4 * i) 4),
    tcam := (List.range (c.at 4 2)).map (fun i =>
      (c.at (o.tcam + 16 * i) 6, c.at (o.tcam + 16 * i + 6) 6, c.at (o.tcam + 16 * i + 12) 4)),
    defaults := (List.range (c.at 6 2)).map (fun i => c.at (o.defaults + 16 * i) 16),
    profiles := (List.range (c.at 8 2)).map (fun i => c.at (o.profiles + 32 * i) 32) }

/-- PARSER_LOAD, 0x0702 C. -/
def parserLoadSpec : CmdSpec :=
  { opcode := 0x0702, kind := .c, replicated := fun _ => true,
    layout := fun c => .ok { len := (loadOffs c).len, rsvd := parserRsvd c },
    fields := parserLoadFields,
    objects := fun _ _ => [objKey 22 0 0],
    banked := fun _ => (true, false),
    apply := fun c s => .ok ({ s with bank.parser := parserCfg c }, []) }

/-- The parser image of a configuration, as loaded. -/
def parserImage (p : ParserCfg) : List Byte :=
  leBytes 2 1 ++ leBytes 2 p.states.length ++ leBytes 2 p.tcam.length ++ leBytes 2 p.defaults.length ++
  leBytes 2 p.profiles.length ++ zeros 6 ++ (p.states.map (leBytes 16)).flatten ++
  ((List.range 256).map (fun i => leBytes 4 (p.start.getD i 0))).flatten ++
  (p.tcam.map (fun e => leBytes 6 e.1 ++ leBytes 6 e.2.1 ++ leBytes 4 e.2.2)).flatten ++
  (p.defaults.map (leBytes 16)).flatten ++ (p.profiles.map (leBytes 32)).flatten

/-- PRS_GROUP_STATUS. -/
def groupStatusWord (s : State) (g : Nat) : Nat :=
  let x := groupOfRules s g
  let n := editCopy s x
  x.sel0 + x.sel1 * 2 + x.mode n * 4 + (x.copy n).length * 2 ^ 16
/-- PRS_STATUS. -/
def parserStatusWord (s : State) : Nat :=
  let p := s.bank.parser
  p.states.length + p.tcam.length * 2 ^ 9 + p.defaults.length * 2 ^ 20 + p.profiles.length * 2 ^ 33 + s.mgt.curTag % 2 * 2 ^ 38

/-- PARSER_GET, 0x0701 R. -/
def parserGetSpec : CmdSpec :=
  { opcode := 0x0701, kind := .r, layout := plain 0 [],
    resLen := fun _ s =>
      let p := s.bank.parser
      (imgOffs p.states.length p.tcam.length p.defaults.length p.profiles.length).len + 8192,
    run := fun _ s => .ok {
      s := s, log := .silent,
      result := parserImage s.bank.parser ++ ((List.range 1024).map (fun g => leBytes 8 (groupStatusWord s g))).flatten } }

/-! ### PARSER_RULE_GROUP_SET (R145-R149) -/

/-- Bytes of VALUE, and of MASK, in a KEY_MODE. -/
def ruleWidth (mode : Nat) : Nat := 20 * (mode + 1)
/-- Bytes of a rule. -/
def ruleSize (mode : Nat) : Nat := 2 * ruleWidth mode + 8

/-- The rules of a payload. -/
def rulesOf (c : Cmd) : List Rule :=
  let w := ruleWidth (c.at 2 1)
  (items (ruleSize (c.at 2 1)) (c.at 4 4) (c.payload.drop 16)).map (fun r =>
    { value := leNat (r.take w), mask := leNat (slice r w w), action := uN r (2 * w) 8 })

/-- Give rules handles in order, from the number already present. -/
def numberRules (first : Nat) (rs : List Rule) : List Rule := (List.range rs.length).zipWith (fun i r => { r with handle := first + i }) rs

/-- Checks of the rules of a payload: VALUE bits zero where MASK is 0 (R182), the action words of R149. -/
def ruleFails (c : Cmd) : List (Bool × Fail) :=
  let w := ruleWidth (c.at 2 1)
  ((List.range (c.at 4 4)).map (fun i =>
    let b := 16 + ruleSize (c.at 2 1) * i
    [(c.at b w &&& c.at (b + w) w == c.at b w, badField b),
     ((actionFail (b + 2 * w) (c.at (b + 2 * w) 8)).isNone, (actionFail (b + 2 * w) (c.at (b + 2 * w) 8)).getD (badField b))])).flatten

/-- Entries of a table bound to a group are staged in a transaction other than the command's own (R76). -/
def groupEdited (s : State) (g txn : Nat) : Bool :=
  s.mgt.txns.any (fun t => t.1 != txn && t.2.staged.any (fun st =>
    decide (0x0803 ≤ st.opcode) && decide (st.opcode ≤ 0x0806) &&
    (match tableOf s (st.cmd.at 0 4) with | some x => x.kind == 5 && x.group == g | none => false)))

/-- The change of a rule group, whose rules take the lowest free places in order (log entry 25): PART 0 writes the copy that the old bank does not select; PART 1 appends to it (R146, R148). -/
def ruleGroupApply (c : Cmd) (s : State) : Except Fail (State × List Byte) :=
  let g := c.at 0 2
  let x := groupOfRules s g
  let started := s.mgt.deferring.contains (.group g)
  let newBit := s.mgt.curTag % 2
  let n := 1 - x.sel (1 - newBit)
  let rs := rulesOf c
  if groupEdited s g c.txnId then .error (failWith St.txnConflict)
  else if c.at 3 1 = 1 && (!started || c.txnId = 0) then .error (failWith St.wrongState)
  else if c.at 3 1 = 1 && x.mode n != c.at 2 1 then .error (badField 2)
  else
    let old := if c.at 3 1 = 1 then x.copy n else []
    let all := old ++ numberRules old.length rs
    let free := { s with ruleGroups := mset s.ruleGroups g (x.set n (c.at 2 1) []) }
    let x' := x.set n (c.at 2 1) (placeRules (c.at 2 1 + 1) all (tcamRuns free))
    let x' := if newBit = 0 then { x' with sel0 := n } else { x' with sel1 := n }
    let s' := { s with ruleGroups := mset s.ruleGroups g x',
                       mgt.deferring := if started then s.mgt.deferring else s.mgt.deferring ++ [.group g] }
    if 65536 < all.length then .error (failWith St.noSpace) else .ok (s', [])

/-- The placement pass finds entries for both copies of a group (R147). -/
def ruleGroupRoom (c : Cmd) (s : State) : Option Fail :=
  let x := groupOfRules s (c.at 0 2)
  if [0, 1].all (fun n => (x.copy n).all (fun r => decide (r.place + x.mode n < tcamSize))) then none else some (failWith St.noSpace)

/-- Reserved bits in the action words of a payload (R149). -/
def ruleRsvd (c : Cmd) : Option Fail :=
  let w := ruleWidth (c.at 2 1)
  firstFail ((List.range (min (c.at 4 4) (c.payload.length / ruleSize (c.at 2 1)))).map (fun i =>
    let b := 16 + ruleSize (c.at 2 1) * i + 2 * w
    ((actionRsvd b (c.at b 8)).isNone, (actionRsvd b (c.at b 8)).getD (badField b))))

/-- PARSER_RULE_GROUP_SET, 0x0703 C. -/
def parserRuleGroupSetSpec : CmdSpec :=
  { opcode := 0x0703, kind := .c, replicated := fun _ => true,
    layout := fun c => if 3 < c.at 2 1 then .error (badField 2)
      else .ok { len := 16 + ruleSize (c.at 2 1) * c.at 4 4, rsvd := [rsv 8 8] },
    fields := fun c _ => match firstFail [
        (decide (c.at 0 2 < 1024), badField 0), (decide (c.at 3 1 ≤ 1), badField 3), (decide (c.at 4 4 ≤ 65536), badField 4)] with
      | some f => some f
      | none => firstFail (ruleFails c),
    objects := fun c _ => [objKey 23 (c.at 0 2) 0],
    object := fun c _ _ => c.at 0 2,
    banked := fun _ => (true, false),
    rsvdState := fun c _ => ruleRsvd c,
    apply := ruleGroupApply,
    room := ruleGroupRoom }

end Sys2Proof.Machine
end

