-- ==== Sys2Proof/Machine/Stages.lean ====
section
/-! DEFINITION. Stage programs: a visit of a packet to a stage, the instructions, policers, the STAGE_ commands and the STG_ registers (R191-R223 07_stage_programs). -/

namespace Sys2Proof.Machine

/-! ### Instruction words (R202) -/

/-- A decoded action word. -/
structure ActOp where
  op : Nat
  cond : Nat
  len : Nat
  immed : Bool
  dspace : Nat
  doff : Nat
  sspace : Nat
  soff : Nat
  imm : Nat
deriving DecidableEq, Repr

/-- The fields of an action word. -/
def actOp (w : Nat) : ActOp :=
  { op := bitsOf w 4 0, cond := bitsOf w 6 5, len := bitsOf w 10 7 + 1, immed := bit w 11, dspace := bitsOf w 13 12,
    doff := bitsOf w 21 14, sspace := bitsOf w 23 22, soff := bitsOf w 31 24, imm := bitsOf w 63 32 }

/-- END, the word of an action position that an image does not give. -/
def endWord : Nat := 0x19

/-- A visit in progress: the packet, both results and keys, P and whether the action has ended. -/
structure Visit where
  k : Pkt
  ra : List Byte := zeros 64
  rb : List Byte := zeros 64
  keyA : List Byte := []
  keyB : List Byte := []
  p : Bool := false
  done : Bool := false

/-! ### Final drops and limits (R197, R207) -/

/-- The packet carries a final drop. -/
def isFinal (k : Pkt) : Bool := bit (u8 k.meta_ 80) 1
/-- A final drop with its reason; the first one stands. -/
def finalDrop (reason : Nat) (k : Pkt) : Pkt :=
  if isFinal k then k
  else { k with meta_ := poke (poke k.meta_ 80 (leBytes 1 (u8 k.meta_ 80 + 2))) 69 (leBytes 1 reason), dropped := some reason }
/-- Count an instruction beyond a limit of R197. -/
def overLimit (s : State) : State := { s with limit := (s.limit + 1) % 2 ^ 32 }

/-! ### Spaces (R202, R203, R220) -/

/-- Octets of the frame at a window offset: 0 beyond the end of the frame; an octet of the frame beyond window offset 255 is a free value (R220 gives it none; log entry 1). -/
def readWindow (f : List Byte) (off n : Nat) (s : State) : List Byte × State :=
  if off + n ≤ 256 || f.length ≤ 256 then (slice f off n, s)
  else
    let r := drawBytes n s
    ((List.range n).map (fun i => if off + i < 256 || f.length ≤ off + i then (f.getD (off + i) 0) else r.1.getD i 0), r.2)

/-- Read an operand: space 0 header vector or window, 1 metadata, 2 and 3 the results. -/
def readSpace (v : Visit) (sp off n : Nat) (s : State) : List Byte × State :=
  if sp = 1 then (slice v.k.meta_ off n, s)
  else if sp = 2 then (slice v.ra off n, s)
  else if sp = 3 then (slice v.rb off n, s)
  else if v.k.egress then readWindow v.k.frame off n s
  else (slice v.k.hv off n, s)

/-- Value of bytes of a space: big-endian in space 0, little-endian elsewhere. -/
def spaceNat (sp : Nat) (bs : List Byte) : Nat := if sp = 0 then beNat bs else leNat bs
/-- Bytes of a value in a space. -/
def spaceBytes (sp n v : Nat) : List Byte := if sp = 0 then beBytes n v else leBytes n v

/-- TX_LEN after a change of the frame (R200, R220). -/
def txLenMeta (k : Pkt) : Pkt := { k with meta_ := poke k.meta_ 140 (leBytes 2 k.frame.length) }

/-- Write bytes to a destination; a window write beyond the frame or offset 255 drops the packet (R220). -/
def writeSpace (sp off : Nat) (bs : List Byte) (v : Visit) : Visit :=
  if sp = 1 then { v with k.meta_ := poke v.k.meta_ off bs }
  else if !v.k.egress then { v with k.hv := poke v.k.hv off bs }
  else if Nat.min 256 v.k.frame.length < off + bs.length then { v with k := finalDrop 0x84 v.k }
  else { v with k.frame := poke v.k.frame off bs }

/-- The source of an instruction as a number of `n` bytes: IMM zero-extended, or the operand. -/
def srcNat (v : Visit) (o : ActOp) (n : Nat) (s : State) : Nat × State :=
  if o.immed then (o.imm, s)
  else
    let r := readSpace v o.sspace o.soff n s
    (spaceNat o.sspace r.1, r.2)
/-- The source of an instruction as bytes in order. -/
def srcBytes (v : Visit) (o : ActOp) (n : Nat) (s : State) : List Byte × State :=
  if o.immed then (leBytes n o.imm, s) else readSpace v o.sspace o.soff n s

/-! ### Arithmetic (R203, R204) -/

/-- Result of ADD to SHR on `n` bytes. -/
def aluOp (op n a b : Nat) : Nat :=
  let m := 2 ^ (8 * n)
  match op with
  | 2 => (a + b) % m
  | 3 => (a + m - b % m) % m
  | 4 => a &&& b
  | 5 => (a ||| b) % m
  | 6 => (a ^^^ b) % m
  | 7 => if 8 * n ≤ b then 0 else a * 2 ^ b % m
  | _ => if 8 * n ≤ b then 0 else a / 2 ^ b

/-- ADD, SUB, AND, OR, XOR, SHL, SHR, the compares and DEC_TEST. -/
def arith (o : ActOp) (v : Visit) (s : State) : Visit × State :=
  let d := readSpace v o.dspace o.doff o.len s
  let a := spaceNat o.dspace d.1
  let r := srcNat v o o.len d.2
  let b := (if o.immed && (o.op == 7 || o.op == 8) then o.imm % 64 else r.1) % 2 ^ (8 * o.len)
  match o.op with
  | 9 => ({ v with p := a == b }, r.2)
  | 10 => ({ v with p := decide (a < b) }, r.2)
  | 11 => ({ v with p := (a &&& b) != 0 }, r.2)
  | 13 =>
    if a = 0 then ({ v with p := true }, d.2)
    else ({ writeSpace o.dspace o.doff (spaceBytes o.dspace o.len (a - 1)) v with p := a == 1 }, d.2)
  | op => (writeSpace o.dspace o.doff (spaceBytes o.dspace o.len (aluOp op o.len a b)) v, r.2)

/-! ### Policers (R209-R212) -/

/-- Policer n under a bank. -/
def policerOf (b : Bank) (n : Nat) : PolicerCfg := mgetD b.policers n {}
/-- Buckets of a policer after the refill up to `now`, in units of 1/8,000,000 octet; contents above the size are clipped. -/
def refillBuckets (c : PolicerCfg) (now : Nat) (b : Buckets) : Buckets :=
  let dt := now - b.last
  { tc := min (c.cbs * 8000000) (b.tc + c.cirM * 2 ^ c.cirE * dt),
    tp := min (c.pbs * 8000000) (b.tp + c.pirM * 2 ^ c.pirE * dt), last := now }

/-- Colour and buckets after a charge of `n` octets (R209). -/
def chargePolicer (c : PolicerCfg) (colour n : Nat) (b : Buckets) : Nat × Buckets :=
  let u := n * 8000000
  if (c.mode = 2 && 2 ≤ colour) || b.tp < u then (2, b)
  else if (c.mode = 2 && colour == 1) || b.tc < u then (1, { b with tp := b.tp - u })
  else (0, { b with tp := b.tp - u, tc := b.tc - u })

/-- Octets a policer charges: FRAME_LEN + LEN_ADJ, at least 1. -/
def policeLen (len : Nat) (adj : Int) : Nat := Int.toNat (max 1 ((len : Int) + adj))

/-- POLICE on policer `n`. -/
def police (bank : Bank) (n : Nat) (v : Visit) (s : State) : Visit × State :=
  let c := policerOf bank n
  if 262144 ≤ n || c.mode = 0 then (v, s)
  else
    let len := u16 v.k.meta_ 2
    let r := chargePolicer c (u8 v.k.meta_ 6 % 4) (policeLen len c.lenAdj) (refillBuckets c s.time.uptime (mgetD s.buckets n {}))
    let s := { s with buckets := mset s.buckets n r.2 }
    let v := { v with k.meta_ := poke v.k.meta_ 6 (leBytes 1 r.1) }
    let s := if c.counterTable = 0xFFFF then s else countPair c.counterTable (c.counterBase + r.1) len s
    (if r.1 = 2 then { v with k := finalDrop 0x80 v.k } else v, s)

/-! ### The egress rewrite (R220, R204) -/

/-- The 16-bit big-endian words of a byte string. -/
def words16 : Nat → List Byte → List Nat
  | 0, _ => []
  | n + 1, bs => if bs.isEmpty then [] else beNat (fit 2 bs) :: words16 n (bs.drop 2)
/-- Fold a sum to 16 bits with end-around carry. -/
def fold16 : Nat → Nat → Nat
  | 0, v => v
  | n + 1, v => if v < 65536 then v else fold16 n (v % 65536 + v / 65536)
/-- Ones' complement sum of words. -/
def onesSum (ws : List Nat) : Nat := fold16 8 (ws.foldl (· + ·) 0)
/-- CSUM_ADJ: ~(~HC + Σ~m + Σm') (RFC 1624). -/
def csumAdj (hc : Nat) (old new : List Nat) : Nat :=
  0xFFFF - onesSum ((0xFFFF - hc) :: (old.map (fun w => 0xFFFF - w) ++ new))

/-- INSERT. -/
def insertOctets (o : ActOp) (v : Visit) (s : State) : Visit × State :=
  if 128 < v.k.growth + o.len then (v, overLimit s)
  else
    let r := srcBytes v o o.len s
    if v.k.frame.length < o.doff || 256 < o.doff + o.len then ({ v with k := finalDrop 0x84 v.k }, r.2)
    else
      let f := v.k.frame.take o.doff ++ r.1 ++ v.k.frame.drop o.doff
      ({ v with k := txLenMeta { v.k with frame := f, growth := v.k.growth + o.len } }, r.2)

/-- REMOVE. -/
def removeOctets (o : ActOp) (v : Visit) : Visit :=
  if Nat.min 256 v.k.frame.length < o.doff + o.len then { v with k := finalDrop 0x84 v.k }
  else
    let f := v.k.frame.take o.doff ++ v.k.frame.drop (o.doff + o.len)
    { v with k := txLenMeta { v.k with frame := f, growth := v.k.growth - o.len } }

/-- CSUM_IP4. -/
def csumIp4 (o : ActOp) (v : Visit) (s : State) : Visit × State :=
  let n := (u8 v.k.frame o.doff % 16) * 4
  let r := readWindow v.k.frame o.doff n s
  let h := if 12 ≤ n then poke r.1 10 (zeros 2) else r.1
  (writeSpace 0 (o.doff + 10) (beBytes 2 (0xFFFF - onesSum (words16 30 h))) v, r.2)

/-- CSUM_ADJ. -/
def csumAdjust (o : ActOp) (v : Visit) (s : State) : Visit × State :=
  let old := srcBytes v o o.len s
  let new := readWindow v.k.frame (o.imm % 256) o.len old.2
  let hc := readWindow v.k.frame o.doff 2 new.2
  (writeSpace 0 o.doff (beBytes 2 (csumAdj (beNat hc.1) (words16 8 old.1) (words16 8 new.1))) v, hc.2)

/-! ### One instruction (R204) -/

/-- Network sector of a packet: of its pipeline, at egress the pipeline of its port. -/
def sectorOf (k : Pkt) : Nat := k.pipe / 2

/-- The bank a packet runs under (R69). -/
def pktBank (k : Pkt) (s : State) : Bank := if k.bank = 0 then s.bank else s.bankOld

/-- MIRROR (R214, R215). -/
def mirrorOp (n : Nat) (v : Visit) (s : State) : Visit × State :=
  let (a, b, m, x, l) := v.k.used
  if bit (u8 v.k.meta_ 80) 0 then (v, s)
  else if (if v.k.egress then 1 else 2) ≤ m then (v, overLimit s)
  else
    let v := { v with k.used := (a, b, m + 1, x, l) }
    if !(mgetD s.mirrors n {}).enabled then (v, s)
    else if v.k.egress then ({ v with k.mirror := some n }, s)
    else
      let w := u16 v.k.meta_ 76
      let w := if bit w 6 then w + (n + 64) * 256 else w + n + 64
      ({ v with k.meta_ := poke v.k.meta_ 76 (leBytes 2 w) }, s)

/-- LEARN (R219): the event enters the instance of the packet's sector; a target with LEARN 0 counts LEARN_FAIL. -/
def learnOp (o : ActOp) (v : Visit) (s : State) : Visit × State :=
  let t := o.imm % 1024
  match tableOf s t with
  | none => (v, s)
  | some x =>
    let r := srcBytes v o x.dataBytes s
    if !x.policy.learn then (v, count 0x06 t 2 1 r.2)
    else (v, offerLearn t (if x.scope = 1 then sectorOf v.k else 0) (if bit o.imm 10 then v.keyB else v.keyA) r.1 r.2)

/-- Execute one instruction whose COND holds. -/
def runOp (bank : Bank) (o : ActOp) (v : Visit) (s : State) : Visit × State :=
  let (a, b, m, x, l) := v.k.used
  let egr := v.k.egress
  match o.op with
  | 0x00 => (v, s)
  | 0x01 =>
    let r := srcBytes v o o.len s
    (writeSpace o.dspace o.doff r.1 v, r.2)
  | 0x0C =>
    let r := srcNat v o 8 s
    let n := bitsOf r.1 42 32
    if n = 0 || 1024 < n then ({ v with p := false }, r.2)
    else (writeSpace o.dspace o.doff (spaceBytes o.dspace 4 (r.1 % 2 ^ 32 + selectMember (u32 v.k.meta_ 24) n)) v, r.2)
  | 0x10 =>
    let r := srcNat v o 4 s
    ({ v with k.meta_ := poke (poke v.k.meta_ 64 (leBytes 4 r.1)) 68 (leBytes 1 1) }, r.2)
  | 0x11 =>
    if egr then ({ v with k := finalDrop (o.imm % 128) v.k }, s)
    else ({ v with k.meta_ := poke v.k.meta_ 68 (leBytes 1 2 ++ leBytes 1 (o.imm % 128)) }, s)
  | 0x12 =>
    let d := if bit o.imm 16 && u8 v.k.meta_ 68 == 1 then 4 else 3
    ({ v with k.meta_ := poke (poke v.k.meta_ 70 (leBytes 2 o.imm)) 68 (leBytes 1 d) }, s)
  | 0x13 =>
    if 4 ≤ a then (v, overLimit s)
    else
      let r := srcNat v { o with imm := o.imm % 2 ^ 18 } 4 s
      police bank r.1 { v with k.used := (a + 1, b, m, x, l) } r.2
  | 0x14 =>
    if (if egr then 2 else 6) ≤ b then (v, overLimit s)
    else
      let r := srcNat v { o with imm := o.imm / 1024 } 4 s
      ({ v with k.used := (a, b + 1, m, x, l) },
       countPair (o.imm % 1024) r.1 (if egr then u16 v.k.meta_ 140 else u16 v.k.meta_ 2) r.2)
  | 0x15 => mirrorOp (o.imm % 64) v s
  | 0x16 =>
    if 2 ≤ x then (v, overLimit s)
    else
      let r := srcNat v { o with imm := o.imm % 4096 } 2 s
      let v := { v with k.used := (a, b, m, x + 1, l) }
      if 4096 ≤ r.1 then (v, r.2)
      else
        let q := sampleMeta r.1 v.k.meta_ r.2
        ({ v with k.meta_ := q.1 }, q.2)
  | 0x17 => if 2 ≤ l then (v, overLimit s) else learnOp o { v with k.used := (a, b, m, x, l + 1) } s
  | 0x1A => insertOctets o v s
  | 0x1B => (removeOctets o v, s)
  | 0x1C => csumIp4 o v s
  | 0x1D => csumAdjust o v s
  | _ => arith o v s

/-- COND of an instruction. -/
def condHolds (cond : Nat) (p : Bool) : Bool := cond == 0 || (cond == 1 && p) || (cond == 2 && !p)

/-- Run an action from word `pc` for at most `n` instructions (R195). -/
def runAction (bank : Bank) (img : StageImg) : Nat → Nat → Visit → State → Visit × State
  | 0, _, v, s => (v, s)
  | n + 1, pc, v, s =>
    let size := if v.k.egress then 1024 else 2048
    let o := actOp (img.words.getD (pc % size) endWord)
    if isFinal v.k then (v, s)
    else if !condHolds o.cond v.p then runAction bank img n (pc + 1) v s
    else if o.op = 0x19 then (v, s)
    else
      let r := runOp bank o v s
      runAction bank img n (pc + 1) r.1 r.2

/-! ### Lookups of a visit (R192-R194) -/

/-- Key width of a table's lookup (R193). -/
def lookupWidth (x : Table) : Nat :=
  match x.kind with | 0 => x.keyBytes | 1 => 8 | 2 => 20 | 3 => 4 | _ => x.keyBytes / 2

/-- The concatenated fragments of a binding. -/
def keyBytes (v : Visit) : List (Nat × Nat × Nat) → State → List Byte × State
  | [], s => ([], s)
  | (sp, off, n) :: rest, s =>
    let r := readSpace v sp off n s
    let q := keyBytes v rest r.2
    (r.1 ++ q.1, q.2)

/-- Device address of an offset of a table's regions, in region order. -/
def tableAddr (x : Table) (off : Nat) : Nat := regionBase (x.regions.getD (off / 2 ^ 20) 0) + off % 2 ^ 20
/-- Device address of unit `i` of `n` bytes of a table: no unit crosses a region (R167, R503). -/
def unitAddr (x : Table) (n i : Nat) : Nat := tableAddr x (i / (2 ^ 20 / n) * 2 ^ 20 + i % (2 ^ 20 / n) * n)

/-- The HBM accesses of one lookup (R198), with the blocks of an Antler walk in which one met an uncorrectable burst (R429), or `[0]` for another table: none on die or in a table out of reach; one for kinds 0 and 3 in HBM, of both buckets or of the index; and one for each extension or leaf block that the walk of kinds 1 and 2 reads and the leaf cache does not hold, which is a free value. -/
def hbmAccesses (pl : Nat) (x : Table) (inst : TInst) (key : List Byte) (s : State) : List Nat × State :=
  if tableDown s x then ([], s)
  else if x.kind = 1 || x.kind = 2 then
    (blocksRead inst.trie (antlerWidth x.kind) (antlerVrf key) (antlerAddr key)).foldl (fun y b =>
      let c := draw 1 y.2
      if c.1 = 1 then (y.1, c.2)
      else
        let r := hbmAccess pl [tableAddr x (32 * b)] c.2
        (if r.1 then y.1 ++ [b] else y.1, r.2)) ([], s)
  else if x.memory = 1 then
    let size := slotSize x.kind x.keyBytes x.dataBytes
    let r := hbmAccess pl (if x.kind = 0 then [unitAddr x (4 * size) (buckets x key).1, unitAddr x (4 * size) (buckets x key).2]
      else [unitAddr x size (leNat key)]) s
    (if r.1 then [0] else [], r.2)
  else ([], s)

/-- The metadata after the writes of a rule group's action word (R149, R150). -/
def ruleWrites (w : Nat) (m : List Byte) : List Byte :=
  let m := if bit w 3 then poke m 5 (leBytes 1 (bitsOf w 2 0)) else m
  let m := if bit w 6 then poke m 6 (leBytes 1 (bitsOf w 5 4)) else m
  if bit w 11 then poke m 7 (leBytes 1 (bitsOf w 10 8 + b2n (bit w 12) * 128)) else m

/-- A miss: the table's miss policy, on ingress lookups (R165). -/
def missPolicy (t : Nat) (x : Table) (k : Pkt) (s : State) : Pkt × State :=
  if k.egress then (k, s)
  else if x.policy.miss = 1 then ({ k with missCopies := k.missCopies ++ [(t, x.policy.missChannel)] }, s)
  else if x.policy.miss = 2 then
    (finalDrop 0x81 k, if x.policy.missCounterTable = 0xFFFF then s
      else countPair x.policy.missCounterTable x.policy.missCounter (u16 k.meta_ 2) s)
  else (k, s)

/-- Run the lookup of a binding: hit, result, packet. -/
def lookupBinding (b : Binding) (key : List Byte) (k : Pkt) (s : State) : Bool × List Byte × Pkt × State :=
  if b.table = 0xFFFF then (true, zeros 64, k, s)
  else match tableOf s b.table with
    | none => (false, zeros 64, k, s)
    | some x =>
      let i := if x.scope = 1 then sectorOf k else 0
      let key := fit (lookupWidth x) key
      let a := if k.egress then ([], s) else hbmAccesses k.pipe x (instOf x i) key s
      let r := packetLookup b.table i (k.tag % 2) key a.1 a.2
      match r.1 with
      | .hit d =>
        if x.kind = 5 then
          (true, fit 64 (slice d 4 4), { k with meta_ := ruleWrites (leNat (slice d 0 8)) k.meta_ }, r.2)
        else (true, fit 64 d, k, r.2)
      | .miss =>
        let q := missPolicy b.table x k r.2
        (false, zeros 64, q.1, q.2)
      | .stale =>
        if k.egress then (false, zeros 64, finalDrop 0x83 k, r.2)
        else
          let q := missPolicy b.table x k (tableMiss b.table r.2)
          (false, zeros 64, q.1, q.2)

/-- The action that a binding selects: its first word, none for nothing to run. -/
def selectAction (b : Binding) (hit : Bool) (result : List Byte) : Option Nat :=
  if hit then some (b.hit + (if b.actionSel = 1 then u8 result 0 else 0))
  else if b.miss = 0xFFFF then none else some b.miss

/-- Run the action of a lookup. -/
def runLookup (bank : Bank) (img : StageImg) (b : Binding) (hit : Bool) (result : List Byte) (v : Visit) (s : State) : Visit × State :=
  match selectAction b hit result with
  | none => (v, s)
  | some pc => runAction bank img 16 pc { v with p := hit } s

/-- One visit of a packet to a stage (R192). -/
def visitStage (img : StageImg) (bank : Bank) (k : Pkt) (s : State) : Pkt × State :=
  let v : Visit := { k := k }
  let ka := keyBytes v img.a.frags s
  let kb := keyBytes v img.b.frags ka.2
  let la := lookupBinding img.a ka.1 k kb.2
  let lb := lookupBinding img.b kb.1 la.2.2.1 la.2.2.2
  let width := fun (b : Binding) (key : List Byte) => match tableOf s b.table with | some x => fit (lookupWidth x) key | none => key
  let v : Visit := { k := lb.2.2.1, ra := la.2.1, rb := lb.2.1, keyA := width img.a ka.1, keyB := width img.b kb.1 }
  let r := runLookup bank img img.a la.1 la.2.1 v lb.2.2.2
  let r := runLookup bank img img.b lb.1 lb.2.1 r.1 r.2
  (r.1.k, r.2)

/-- An empty stage (R222). -/
def emptyBinding : Binding := { raw := leBytes 2 0xFFFF ++ zeros 4 ++ leBytes 2 0xFFFF ++ zeros 24 }
/-- The image of a stage in a bank. -/
def stageOf (b : Bank) (n : Nat) : StageImg := mgetD b.stages n { a := emptyBinding, b := emptyBinding }

/-- The pipeline of a packet works: not fenced, powered. -/
def pktPipeOk (k : Pkt) (s : State) : Bool :=
  decide (k.pipe < 12) && (mgetD s.power.domains (3 + k.pipe / 2) {}).on &&
  !isFenced s (resId 0x0C (if k.egress then 16 + k.pipe else k.pipe))

/-- The packet `k` as it enters its next stage: one that comes out of DC1 enters the egress stages now, with the bank that is current (R69). -/
def entering (n : Nat) (k : Pkt) (s : State) : Pkt := if s.dc1.contains (.packet n) then { k with bank := 0 } else k
/-- STAGE_VISIT: the packet visits its next stage. -/
def stageVisit (n : Nat) (s : State) : State :=
  match mget s.pkts n with
  | none => s
  | some k =>
    if !trafficOn s || !pktPipeOk k s || k.ready || (if k.egress then 8 else 16) ≤ k.stage then s
    else
      let k := entering n k s
      let s := dc1Packet n s
      let r := if isFinal k then (k, s)
        else visitStage (stageOf (pktBank k s) (if k.egress then 16 + k.stage else k.stage)) (pktBank k s) k s
      { r.2 with pkts := mset r.2.pkts n { r.1 with stage := k.stage + 1 } }

/-- STAGE_VISIT. -/
def execStageVisit (n : Nat) (s : State) : Host.Outcome State Fault Refusal := answer s (stageVisit n s)

/-! ### STAGE_LOAD, STAGE_GET (R222) -/

/-- The binding at an offset of a payload. -/
def bindingAt (c : Cmd) (off : Nat) : Binding :=
  let n := min (c.at (off + 2) 1) 8
  { table := c.at off 2, actionSel := c.at (off + 3) 1, hit := c.at (off + 4) 2, miss := c.at (off + 6) 2,
    frags := (List.range n).map (fun i => (c.at (off + 8 + 3 * i) 1, c.at (off + 9 + 3 * i) 1, c.at (off + 10 + 3 * i) 1)),
    raw := slice c.payload off 32 }

/-- The image of a STAGE_LOAD. -/
def imageOf (c : Cmd) : StageImg :=
  { words := (List.range (c.at 4 2)).map (fun i => c.at (72 + 8 * i) 8), a := bindingAt c 8, b := bindingAt c 40 }

/-- A binding's table touches HBM (R196). -/
def touchesHbm (s : State) (b : Binding) : Bool :=
  match tableOf s b.table with
  | some x => x.kind == 1 || x.kind == 2 || ((x.kind == 0 || x.kind == 3) && x.memory == 1)
  | none => false

/-- Checks of a binding at an offset (R193, R196). -/
def bindingChecks (c : Cmd) (egr : Bool) (off : Nat) (s : State) : List (Bool × Fail) :=
  let b := bindingAt c off
  let t := tableOf s b.table
  let len := b.frags.foldl (fun a f => a + f.2.2) 0
  [(b.table == 0xFFFF || t.isSome, badField off),
   (match t with
    | some x => if egr then (x.kind == 0 || x.kind == 3) && x.memory == 0 else [0, 1, 2, 3, 5].contains x.kind
    | none => true, badField off),
   (match t with | some x => decide (lookupWidth x ≤ 80) | none => true, badField off),
   (decide (c.at (off + 2) 1 ≤ 8), badField (off + 2)),
   (match t with | some x => decide (len ≤ lookupWidth x) | none => true, badField (off + 2)),
   (decide (b.actionSel ≤ 1), badField (off + 3)), (decide (b.hit ≤ 2047), badField (off + 4)),
   (decide (b.miss ≤ 2047) || b.miss == 0xFFFF, badField (off + 6))] ++
  ((List.range b.frags.length).zip b.frags).map (fun (i, sp, o, n) =>
    (decide (sp ≤ 1) && decide (1 ≤ n) && decide (n ≤ 16) && decide (o + n ≤ 256), badField (off + 8 + 3 * i)))

/-- Operations of each direction (R204). -/
def opAllowed (egr : Bool) (op : Nat) : Bool :=
  (if egr then [0x0, 0x1, 0x2, 0x3, 0x4, 0x5, 0x6, 0x7, 0x8, 0x9, 0xA, 0xB, 0xD, 0x11, 0x14, 0x15, 0x19, 0x1A, 0x1B, 0x1C, 0x1D]
   else [0x0, 0x1, 0x2, 0x3, 0x4, 0x5, 0x6, 0x7, 0x8, 0x9, 0xA, 0xB, 0xC, 0xD, 0x10, 0x11, 0x12, 0x13, 0x14, 0x15, 0x16, 0x17, 0x19]).contains op

/-- Bytes an operation reads from its source, 0 for none (R204). -/
def srcLen (o : ActOp) : Nat :=
  if o.immed then 0
  else match o.op with
    | 0x0C => 8 | 0x10 => 4 | 0x13 => 4 | 0x14 => 4 | 0x16 => 2
    | 0x00 => 0 | 0x0D => 0 | 0x11 => 0 | 0x12 => 0 | 0x15 => 0 | 0x17 => 0 | 0x19 => 0 | 0x1B => 0 | 0x1C => 0
    | _ => o.len
/-- Bytes an operation reads or writes at its destination, 0 for none. -/
def dstLen (o : ActOp) : Nat :=
  match o.op with
  | 0x0C => 4
  | op => if (1 ≤ op && op ≤ 0x0B) || op = 0x0D then o.len else 0

/-- The metadata bytes that programs may write (R201). -/
def writableMeta (egr : Bool) (i : Nat) : Bool :=
  (84 ≤ i && i < 128) || (144 ≤ i) ||
  (!egr && ((5 ≤ i && i ≤ 7) || (24 ≤ i && i ≤ 27) || (72 ≤ i && i ≤ 75) || (128 ≤ i)))
/-- The operation writes its destination. -/
def writesDst (op : Nat) : Bool := (1 ≤ op && op ≤ 8) || op == 0x0C || op == 0x0D

/-- An action word passes the load checks of R201, R202, R204 and R219. -/
def wordOk (egr : Bool) (img : StageImg) (s : State) (o : ActOp) : Bool :=
  let arithmetic := (2 ≤ o.op && o.op ≤ 0x0B) || o.op == 0x0D
  let inWindow := o.op == 0x1A || o.op == 0x1B || o.op == 0x1C || o.op == 0x1D
  opAllowed egr o.op && o.cond != 3 && decide (o.dspace ≤ 1) && !(inWindow && o.dspace != 0) &&
  (!arithmetic || [1, 2, 4, 8].contains o.len) && !(o.op == 1 && o.immed && decide (4 < o.len)) &&
  !(o.op == 0x11 && o.immed) && (o.op != 0x1D || [2, 4, 16].contains o.len) &&
  (egr && o.dspace == 0 || decide (o.doff + dstLen o ≤ 256)) &&
  (egr && o.sspace == 0 || decide (o.soff + srcLen o ≤ (if 2 ≤ o.sspace then 64 else 256)) || srcLen o == 0) &&
  !(writesDst o.op && o.dspace == 1 && !((List.range (dstLen o)).all (fun i => writableMeta egr (o.doff + i)))) &&
  (o.op != 0x14 || isCounterTable s (o.imm % 1024)) &&
  (o.op != 0x17 || (match tableOf s (o.imm % 1024), tableOf s (if bit o.imm 10 then img.b.table else img.a.table) with
    | some x, some y => x.kind == 0 && x.keyBytes == lookupWidth y &&
        (o.immed || decide (o.soff + x.dataBytes ≤ (if 2 ≤ o.sspace then 64 else 256)))
    | _, _ => false))

/-- Step 6 of STAGE_LOAD. -/
def stageLoadFields (c : Cmd) (s : State) : Option Fail :=
  let st := c.at 2 1
  let egr := decide (16 ≤ st)
  let img := imageOf c
  let hbm := b2n (touchesHbm s img.a) + b2n (touchesHbm s img.b)
  let others := ((List.range 16).filter (fun i => i != st &&
    (touchesHbm s (stageOf s.bank i).a || touchesHbm s (stageOf s.bank i).b))).length
  firstFail ([(c.at 0 2 == 1, badField 0), (decide (st ≤ 23), badField 2)] ++
    bindingChecks c egr 8 s ++ (if egr then [(img.b.table == 0xFFFF, badField 40)] else []) ++ bindingChecks c egr 40 s ++
    [(decide (hbm ≤ 1), badField 40), (hbm == 0 || decide (others ≤ 3), badField 8)] ++
    ((List.range img.words.length).zip img.words).map (fun (i, w) => (wordOk egr img s (actOp w), badField (72 + 8 * i))))

/-- STAGE_LOAD (0x0902). -/
def stageLoadSpec : CmdSpec :=
  { opcode := 0x0902, kind := .c, replicated := fun _ => true
    layout := fun c =>
      if (if 16 ≤ c.at 2 1 then 1024 else 2048) < c.at 4 2 then .error (badField 4)
      else .ok { len := 72 + 8 * c.at 4 2, rsvd := [rsv 3 1, rsv 6 2] }
    fields := stageLoadFields
    banked := fun c => (decide (c.at 2 1 < 16), decide (16 ≤ c.at 2 1))
    objects := fun c _ => [objKey 24 (c.at 2 1) 0]
    object := fun c _ _ => c.at 2 1
    apply := fun c s => match stageLoadFields c s with
      | some f => .error f
      | none => .ok ({ s with bank.stages := mset s.bank.stages (c.at 2 1) (imageOf c) }, []) }

/-- A stage image as STAGE_GET returns it. -/
def imageBytes (n : Nat) (g : StageImg) : List Byte :=
  leBytes 2 1 ++ leBytes 1 n ++ zeros 1 ++ leBytes 2 g.words.length ++ zeros 2 ++ fit 32 g.a.raw ++ fit 32 g.b.raw ++
  (g.words.map (leBytes 8)).flatten

/-- STAGE_GET (0x0901). -/
def stageGetSpec : CmdSpec :=
  { opcode := 0x0901, kind := .r, layout := plain 1 []
    fields := fun c _ => if c.at 0 1 ≤ 23 then none else some (badField 0)
    resLen := fun c s => 72 + 8 * (stageOf s.bank (c.at 0 1)).words.length
    run := fun c s => .ok { s := s, result := imageBytes (c.at 0 1) (stageOf s.bank (c.at 0 1)), log := .silent } }

/-! ### STAGE_POLICER_SET (R210, R212) -/

/-- Parameters of a STAGE_POLICER_SET. -/
def policerCfg (c : Cmd) : PolicerCfg :=
  { mode := c.at 4 1, lenAdj := signed 8 (c.at 5 1), cirM := c.at 8 2, cirE := c.at 10 1, pirE := c.at 11 1, pirM := c.at 12 2,
    cbs := c.at 16 4, pbs := c.at 20 4, counterTable := c.at 24 2, counterBase := c.at 28 4 }

/-- Step 6 of STAGE_POLICER_SET, whatever MODE says (R210). -/
def policerFields (c : Cmd) (s : State) : Option Fail :=
  let p := policerCfg c
  firstFail [
    (decide (c.at 0 4 < 262144), badField 0), (decide (p.mode ≤ 2), badField 4),
    (decide (-32 ≤ p.lenAdj) && decide (p.lenAdj ≤ 31), badField 5), (decide (c.at 6 1 ≤ 1), badField 6),
    (p.cirM != 0, badField 8), (decide (p.cirE ≤ 15), badField 10), (decide (p.pirE ≤ 15), badField 11),
    (p.pirM != 0, badField 12),
    (decide (p.cirM * 2 ^ p.cirE ≤ p.pirM * 2 ^ p.pirE), badField 12),
    (decide (1 ≤ p.cbs) && decide (p.cbs ≤ 268435456), badField 16),
    (decide (1 ≤ p.pbs) && decide (p.pbs ≤ 268435456), badField 20),
    (p.counterTable == 0xFFFF || isCounterTable s p.counterTable, badField 24)]

/-- STAGE_POLICER_SET (0x0903): the contents of the buckets stay as they are but with FILL 1 (R212). -/
def stagePolicerSetSpec : CmdSpec :=
  { opcode := 0x0903, kind := .c, replicated := fun _ => true
    layout := plain 32 [rsv 7 1, rsv 14 2, rsv 26 2]
    fields := policerFields
    banked := fun _ => (true, false)
    objects := fun c _ => [objKey 25 (c.at 0 4) 0]
    object := fun c _ _ => c.at 0 4
    apply := fun c s => match policerFields c s with
      | some f => .error f
      | none =>
        let n := c.at 0 4
        let p := policerCfg c
        let full : Buckets := { tc := p.cbs * 8000000, tp := p.pbs * 8000000, last := s.time.uptime }
        .ok ({ s with bank.policers := mset s.bank.policers n p, buckets := if c.at 6 1 = 1 then mset s.buckets n full else s.buckets }, []) }

/-! ### STAGE_MIRROR_SET (R214, R216) -/

/-- The session is a tombstone, or a commit under way makes it one. -/
def mirrorReleased (s : State) (n : Nat) : Bool :=
  isTomb s 1 0 n || s.mgt.deferring.contains (.mirror n) || s.mgt.commits.any (fun c => c.deferred.contains (.mirror n))

/-- STAGE_MIRROR_SET (0x0904). -/
def stageMirrorSetSpec : CmdSpec :=
  { opcode := 0x0904, kind := .c, replicated := fun _ => true
    layout := plain 24 [rsv 5 3, (12, 2, 0x7C00), rsv 14 2, rsv 20 4]
    fields := fun c _ => firstFail [
      (decide (c.at 0 1 < 64), badField 0), (decide (c.at 1 1 ≤ 1), badField 1), (decide (c.at 2 1 ≤ 3), badField 2),
      (decide (c.at 3 1 ≤ 7), badField 3), (decide (c.at 4 1 ≤ 1), badField 4),
      (c.at 4 1 == 1 || decide (c.at 8 4 / 2 ^ 29 ≤ 2), badField 8)]
    objects := fun c _ => [objKey 26 (c.at 0 1) 0]
    object := fun c _ _ => c.at 0 1
    apply := fun c s =>
      let n := c.at 0 1
      if c.at 1 1 = 1 then
        if mirrorReleased s n then .error (failWith St.wrongState)
        else
          let m : Mirror := { enabled := true, truncate := c.at 2 1, cls := c.at 3 1, destKind := c.at 4 1,
                              egressIndex := c.at 8 4, channel := c.at 12 2, rewrite := c.at 16 4 }
          .ok ({ s with mirrors := mset s.mirrors n m }, [])
      else if (mgetD s.mirrors n {}).enabled && !mirrorReleased s n then
        .ok ({ s with mgt.deferring := s.mgt.deferring ++ [.mirror n] }, [])
      else .ok (s, []) }

/-- Phase B of a disabled session: it becomes a tombstone (R83, R216). -/
def applyMirrorOff (n : Nat) (s : State) : State :=
  makeTomb 1 0 n { s with mirrors := mdel s.mirrors n }

/-! ### STAGE_SAMPLE_SET (R217) -/

/-- STAGE_SAMPLE_SET (0x0905). -/
def stageSampleSetSpec : CmdSpec :=
  { opcode := 0x0905, kind := .c, replicated := fun _ => true
    layout := plain 16 [(8, 2, 0x7C00), rsv 10 2]
    fields := fun c _ => firstFail [
      (decide (c.at 0 2 < 4288), badField 0), (decide (1 ≤ c.at 2 1) && decide (c.at 2 1 ≤ 3), badField 2),
      (decide (c.at 3 1 ≤ 2), badField 3), (decide (1 ≤ c.at 4 4) && decide (c.at 4 4 ≤ 16777216), badField 4),
      (c.at 3 1 != 2 || c.at 12 4 != 0, badField 12)]
    objects := fun c _ => [objKey 27 (c.at 0 2) 0]
    object := fun c _ _ => c.at 0 2
    apply := fun c s =>
      let x : Sampler := { truncate := c.at 2 1, mode := c.at 3 1, n := c.at 4 4, channel := c.at 8 2, seed := c.at 12 4 }
      let r := reloadSampler x s
      .ok ({ r.2 with samplers := mset r.2.samplers (c.at 0 2) { x with countdown := r.1 } }, []) }

/-! ### STG_ registers -/

/-- The stage is non-empty: it has words or a table. -/
def stageNonEmpty (g : StageImg) : Bool := !g.words.isEmpty || g.a.table != 0xFFFF || g.b.table != 0xFFFF
/-- STG_STATUS. -/
def stageStatusWord (s : State) : Nat :=
  (List.range 24).foldl (fun a n => a + b2n (stageNonEmpty (stageOf s.bank n)) * 2 ^ n) 0 + s.mgt.curTag % 2 * 2 ^ 24 + s.limit * 2 ^ 32
/-- STG_HBM_STATUS. -/
def hbmStatusWord (s : State) (pl : Nat) : Nat :=
  let s := fillAllowance pl s
  unsigned 16 (mgetD s.allowance pl 25600 / 100) + b2n (admissionHeld s pl) * 2 ^ 16 + mgetD s.holdClocks pl 0 * 2 ^ 32
/-- STG_POLICER_BUCKETS. -/
def policerBucketsWord (s : State) (n : Nat) : Nat :=
  let b := mgetD s.buckets n {}
  b.tc / 8000000 % 2 ^ 32 + b.tp / 8000000 % 2 ^ 32 * 2 ^ 32

end Sys2Proof.Machine
end

