-- ==== Sys2Proof/Machine/Channels.lean ====
section
/-! DEFINITION. The Tahr channels: slots, order queue, events, hardware descriptors, and what a thread holds (R342-R348 12_packet_cores). -/

namespace Sys2Proof.Machine

/-! ### Threads, cores, clusters -/

/-- A thread, by core × 8 + thread. -/
def threadOf (s : State) (t : Nat) : Thread := mgetD s.tahr.threads t {}
/-- Change a thread. -/
def modThread (t : Nat) (f : Thread → Thread) (s : State) : State :=
  { s with tahr.threads := mmod s.tahr.threads t {} f }
/-- A core. -/
def coreOf (s : State) (c : Nat) : Core := mgetD s.tahr.cores c {}
/-- Change a core. -/
def modCore (c : Nat) (f : Core → Core) (s : State) : State := { s with tahr.cores := mmod s.tahr.cores c {} f }
/-- A cluster, A 0 and B 1. -/
def clusterOf (s : State) (c : Nat) : Cluster := mgetD s.tahr.clusters c {}
/-- Change a cluster. -/
def modCluster (c : Nat) (f : Cluster → Cluster) (s : State) : State :=
  { s with tahr.clusters := mmod s.tahr.clusters c {} f }
/-- Core of a thread. -/
def threadCore (t : Nat) : Nat := t / 8
/-- Cluster of a thread: cores 0 to 31 are A. -/
def threadCluster (t : Nat) : Nat := t / 256
/-- A core is fenced, by itself or with its cluster. -/
def coreFenced (s : State) (c : Nat) : Bool := isFenced s (resId 0x09 c)
/-- Add to a programmable counter of a core that counts an event of a thread (R360). -/
def corePmc (t event n : Nat) (s : State) : State :=
  let c := coreOf s (threadCore t)
  let hits := (List.range c.selects.length).filter (fun i =>
    let w := c.selects.getD i 0
    w % 256 == event && bit w (8 + t % 8))
  if hits.isEmpty then s
  else modCore (threadCore t) (fun c => { c with
    pmc := hits.foldl (fun m i => mput m i ((mgetD m i 0 + n) % 2 ^ 64)) c.pmc }) s

/-- Events of R342. -/
def evChan : Nat := 0
/-- TIMER. -/
def evTimer : Nat := 1
/-- SIGNAL. -/
def evSignal : Nat := 2
/-- MGMT. -/
def evMgmt : Nat := 3

/-- Raise an event on a thread; a pending bit merges (R341). -/
def raiseEvent (t ev : Nat) (s : State) : State :=
  modThread t (fun x => { x with evpend := withBit x.evpend ev true }) s

/-! ### Channels (R343, R348) -/

/-- Key of a channel field: [15] cluster, [9:0] channel; other bits are reserved (R200, R337). -/
def channelKey (v : Nat) : Nat := v / 2 ^ 15 % 2 * 1024 + v % 1024
/-- Channel field of a key. -/
def channelField (k : Nat) : Nat := k / 1024 * 2 ^ 15 + k % 1024
/-- A channel. -/
def channelOf (s : State) (k : Nat) : Channel := mgetD s.tahr.channels k {}
/-- Change a channel. -/
def modChannel (k : Nat) (f : Channel → Channel) (s : State) : State :=
  { s with tahr.channels := mmod s.tahr.channels k {} f }
/-- The lowest FREE slot. -/
def freeChSlot (c : Channel) : Option Nat := (List.range 16).find? (fun i => (mget c.slots i).isNone)
/-- Slots in a state. -/
def slotsIn (c : Channel) (st : Nat) : Nat := (c.slots.filter (fun x => x.2.state == st)).length
/-- Make a slot FREE: it leaves the order queue. -/
def clearSlot (k i : Nat) (s : State) : State :=
  modChannel k (fun c => { c with slots := mdel c.slots i, order := c.order.filter (· != i) }) s
/-- Change a listed slot. -/
def modSlot (k i : Nat) (f : Slot → Slot) (s : State) : State :=
  modChannel k (fun c => match mget c.slots i with
    | some x => { c with slots := mset c.slots i (f x) }
    | none => c) s

/-- A committed slot raises CHAN on the thread that NOTIFY names (R344). -/
def notifyChannel (k : Nat) (s : State) : State :=
  let n := (channelOf s k).notify
  if bit n 15 then s else raiseEvent (k / 1024 * 256 + n % 256) evChan s

/-- Void the reservation of a thread (R353, R354, R358): the slot is COMMITTED without content. -/
def voidReservation (t : Nat) (s : State) : State :=
  match (threadOf s t).resv with
  | some (k, i, false) =>
    modThread t (fun x => { x with resv := some (k, i, true) })
      (modSlot k i (fun x => { x with state := 2, void := true, data := [] }) s)
  | _ => s

/-- Slots a thread has taken return to FREE (R354, R363). -/
def returnTaken (t : Nat) (s : State) : State :=
  let s := (threadOf s t).taken.foldl (fun s x => clearSlot x.1 x.2 s) s
  if (threadOf s t).taken.isEmpty then s else modThread t (fun x => { x with taken := [] }) s

/-! ### Hardware descriptors (R346, R347) -/

/-- A channel takes no descriptor now (R346, R363): no FREE slot, disabled, no hardware producer, its pool past STOP, its cluster fenced or being loaded (R463). -/
def channelRefuses (k : Nat) (s : State) : Bool :=
  let c := channelOf s k
  (freeChSlot c).isNone || !c.enable || !bit c.producers 0 || (poolOf s c.pool).stopOn ||
  isFenced s (resId 0x11 (k / 1024)) || (clusterOf s (k / 1024)).loading.isSome

/-- The descriptor of a packet (R347). -/
def descriptor (s : State) (seg kind ref hvOff : Nat) : List Byte :=
  let h := mgetD s.buf.heads seg {}
  let m := h.meta_
  leBytes 4 (handleOf s seg) ++ leBytes 2 (u16 m 2) ++ leBytes 2 h.recLen ++ leBytes 1 kind ++ slice m 4 1 ++ slice m 5 1 ++
  slice m 6 1 ++ leBytes 2 ref ++ slice m 0 2 ++ slice m 16 8 ++ slice m 24 4 ++ slice m 64 4 ++ slice h.hv hvOff 32

/-- Commit a descriptor for a held packet in one step: the slot is COMMITTED, the cluster owns the packet. -/
def commitDescriptor (k seg kind ref : Nat) (s : State) : State :=
  match freeChSlot (channelOf s k) with
  | none => s
  | some i =>
    let s := bridgeCross 1 1 (modHead seg (fun h => { h with owner := 0x10 + k / 1024 }) s)
    let d := descriptor s seg kind ref (channelOf s k).hvOff
    let s := modChannel k (fun c => { c with slots := mset c.slots i ⟨2, d, 0, false⟩, order := c.order ++ [i] }) s
    notifyChannel k s

/-- A descriptor that cannot be committed: FULL_DROPS of the channel (R30). -/
def channelDrop (k : Nat) (s : State) : State := count 0x12 k 0 1 s

/-! ### TAHR_CHANNEL_SET (R348) -/

/-- TAHR_CHANNEL_SET (0x0E02). -/
def tahrChannelSetSpec : CmdSpec :=
  { opcode := 0x0E02, kind := .c, replicated := fun _ => true
    layout := plain 16 [(0, 2, 0x7C00), (6, 2, 0x7F00), rsv 8 8]
    fields := fun c _ => firstFail [
      (decide (c.at 2 1 ≤ 1), badField 2), (decide (c.at 3 1 < 64), badField 3), (decide (c.at 4 1 ≤ 7), badField 4),
      (decide (c.at 5 1 ≤ 224), badField 5)]
    objects := fun c _ => [objKey 28 (channelKey (c.at 0 2)) 0]
    object := fun c _ _ => c.at 0 2
    apply := fun c s => .ok (modChannel (channelKey (c.at 0 2)) (fun x => { x with
      enable := c.at 2 1 == 1, pool := c.at 3 1, producers := c.at 4 1, hvOff := c.at 5 1, notify := c.at 6 2 }) s, []) }

/-- TAHR_CHANNEL_SET as last committed. -/
def channelBytes (s : State) (k : Nat) : List Byte :=
  let c := channelOf s k
  leBytes 2 (channelField k) ++ leBytes 1 (b2n c.enable) ++ leBytes 1 c.pool ++ leBytes 1 c.producers ++ leBytes 1 c.hvOff ++
  leBytes 2 c.notify ++ zeros 8

/-- TAHR_CHANNEL_STATUS. -/
def channelStatusWord (s : State) (k : Nat) : Nat :=
  let c := channelOf s k
  (16 - c.slots.length) + slotsIn c 1 * 2 ^ 5 + slotsIn c 2 * 2 ^ 10 + slotsIn c 3 * 2 ^ 15 + c.order.headD 0 * 2 ^ 20 +
  b2n c.enable * 2 ^ 24 + counter s 0x12 k 0 % 2 ^ 32 * 2 ^ 32

end Sys2Proof.Machine
end

