-- ==== Sys2Proof/Machine/Datapath.lean ====
section
/-! DEFINITION. The packet path: the end of ingress, VOQ enqueue with its copies, the end of egress and the transmit point (R122, R150-R153, R205-R208, R214-R218, R221, R231, R238, R346, R406). -/

namespace Sys2Proof.Machine

/-! ### Destinations (R205, R251, R128) -/

/-- Where an EGRESS_INDEX leads: a VOQ group, reason 0x82, or a port whose protection group has no live member. -/
inductive Dest where
  | group (g : Nat)
  | bad
  | down (port : Nat)
deriving DecidableEq, Repr

/-- A VOQ group can take packets: bound, and in fabric-less mode to this device (R251, R304). -/
def groupUsable (s : State) (g : Nat) : Bool :=
  let b := voqBindOf s g
  b.kind != 0 && (b.kind != 1 || s.fabric.connected || b.device == s.fabric.device)

/-- A destination through the destination map. -/
def viaMap (s : State) (kind device target : Nat) : Dest :=
  if 191 < target then .bad
  else match destGroup s kind device target with
    | some g => if groupUsable s g then .group g else .bad
    | none => .bad

/-- The destination of a protection group member. -/
def memberDest (s : State) (m : Nat) : Dest :=
  if m / 2 ^ 30 = 2 then viaMap s 3 0 (m % 256)
  else if m / 2 ^ 30 = 1 then viaMap s 1 (bitsOf m 26 16) (m % 256)
  else viaMap s 1 s.fabric.device (m % 256)

/-- Resolve an EGRESS_INDEX (R205). With neither member of a group live, DOWN_PORT_DROP counts on the local port that bits [7:0] of PRIMARY number (R129 names no port; DESIGN CHOICE, log entry 90). Kind 2 reaches a port of the pair peer by the peer's device number, in either mode (R326, log entry 92). -/
def resolve (s : State) (e : Nat) : Dest :=
  match e / 2 ^ 29 with
  | 0 => if bitsOf e 28 17 != 0 then .bad else if groupUsable s (e % 2 ^ 17) then .group (e % 2 ^ 17) else .bad
  | 1 =>
    if bitsOf e 28 12 != 0 then .bad
    else match mget s.groups (e % 4096) with
      | none => .bad
      | some x =>
        if x.active = 0 then memberDest s x.primary
        else if x.active = 1 then memberDest s x.backup else .down (x.primary % 256)
  | 2 =>
    if bitsOf e 28 27 != 0 || bitsOf e 15 8 != 0 || (!s.fabric.connected && bitsOf e 26 16 != s.fabric.device && bitsOf e 26 16 != (Config.pairDevice).toNat) then .bad
    else (match viaMap s 1 (bitsOf e 26 16) (e % 256) with
      | .bad => if s.pair.cfg.enable && bitsOf e 26 16 == (Config.pairDevice).toNat then viaMap s 3 0 (e % 256) else .bad
      | d => d)
  | _ => .bad

/-! ### The end of ingress (R207, R208, R152) -/

/-- Count an ingress drop for its pipeline and reason (R207). -/
def countDrop (pipe reason : Nat) (s : State) : State := count 0x05 pipe reason 1 s

/-- A packet with a copy due: miss copies, a sample, a mirror slot. -/
def hasCopies (k : Pkt) : Bool :=
  !k.missCopies.isEmpty || bit (u16 k.meta_ 78) 15 || bit (u16 k.meta_ 76) 6 || bit (u16 k.meta_ 76) 14 || k.channel.isSome

/-- Forward a packet to an EGRESS_INDEX: its VOQ group, or the drop counted. -/
def forwardTo (e : Nat) (k : Pkt) (s : State) : Pkt × State :=
  match resolve s e with
  | .group g => ({ k with group := some g }, s)
  | .bad => ({ k with meta_ := poke k.meta_ 69 (leBytes 1 0x82) }, countDrop k.pipe 0x82 s)
  | .down p => (k, count 0x02 p 3 1 s)

/-- The default action of a source under a bank; an entry that is not given drops without a counter (R153, R154). -/
def defaultEntry (b : Bank) (i : Nat) : Nat := b.parser.defaults.getD i (0xFFFFFFFFFFFF * 2 ^ 80)

/-- Apply the default action (R152, R153). -/
def defaultAction (k : Pkt) (s : State) : Pkt × State :=
  let d := defaultEntry (pktBank k s) k.defaultIdx
  let s := if u8 k.meta_ 30 = 0 then count 0x04 k.source 5 1 s else s
  let m := if bit d 15 then poke k.meta_ 5 (leBytes 1 (bitsOf d 10 8)) else k.meta_
  let m := if bit d 23 then poke m 6 (leBytes 1 (bitsOf d 17 16)) else m
  let m := if bit d 31 then poke m 7 (leBytes 1 (bitsOf d 26 24 + b2n (bit d 30) * 128)) else m
  let s := if bitsOf d 95 80 = 0xFFFF then s else countPair (bitsOf d 95 80) (bitsOf d 127 96) (u16 k.meta_ 2) s
  let e := bitsOf d 63 32
  let ch := bitsOf d 79 64
  match d % 256 with
  | 0 => ({ k with meta_ := m }, countDrop k.pipe (u8 m 69) (count 0x04 k.source 6 1 s))
  | 1 => forwardTo e { k with meta_ := poke m 64 (leBytes 4 e) } s
  | 2 => ({ k with meta_ := poke m 70 (leBytes 2 ch), channel := some (channelKey ch, 2) }, s)
  | _ => forwardTo e { k with meta_ := poke (poke m 64 (leBytes 4 e)) 70 (leBytes 2 ch), channel := some (channelKey ch, 2) } s

/-- What happens to a packet that leaves the last ingress stage (R207). -/
def decide207 (k : Pkt) (s : State) : Pkt × State :=
  let m := k.meta_
  if isFinal k then (k, countDrop k.pipe (u8 m 69) s)
  else
    let ch := (channelKey (u16 m 70), 1)
    match u8 m 68 with
    | 0 => defaultAction k s
    | 1 => forwardTo (u32 m 64) k s
    | 2 => (k, countDrop k.pipe (u8 m 69) s)
    | 3 => ({ k with channel := some ch }, s)
    | _ => forwardTo (u32 m 64) { k with channel := some ch } s

/-- The die bridge carries packets. -/
def bridgeOn (s : State) : Bool := !isFenced s (resId 0x14 0)

/-- Send a packet over the bridge in DC0. -/
def sendDc0 (n : Nat) (k : Pkt) (s : State) : State :=
  if bridgeOn s then bridgeSend (.packet n) { s with pkts := mset s.pkts n { k with ready := true } }
  else { s with pkts := mdel s.pkts n }

/-- Queue offset of a packet (R151). -/
def queueOffset (m : List Byte) : Nat := if bit (u8 m 7) 7 then u8 m 5 % 8 else u8 m 7 % 8

/-- The pool into which a reinjected packet or a slice's frame goes has crossed STOP, or PAUSE for a class of LOW_MASK (R237). -/
def poolHolds (k : Pkt) (s : State) : Bool :=
  match k.group with
  | some g =>
    let p := poolOf s (qcfgOf s ⟨false, g * 8 + queueOffset k.meta_⟩).pool
    decide (192 ≤ k.source) && (p.stopOn || (p.pauseOn && bit p.lowMask (u8 k.meta_ 5 % 8)))
  | none => false

/-- An earlier packet of the same source is still in the ingress blocks (R199). -/
def behindEarlier (n : Nat) (k : Pkt) (s : State) : Bool :=
  s.pkts.any (fun p => p.1 < n && !p.2.egress && !p.2.ready && p.2.source == k.source && p.2.mirrorOf.isNone)

/-! ### Header slots (R27) and what holds an injected header at its source (R237) -/

/-- A packet that has been parsed runs through the ingress stages. -/
def runStages (n : Nat) : Nat → State → State
  | 0, s => s
  | i + 1, s => runStages n i (stageVisit n s)

/-- An injected header is held at its source, and nothing is dropped: its pool, which follows from what the stages decide on it now, has crossed STOP, or PAUSE for a class of LOW_MASK (R237; DESIGN CHOICE, log entry 94). -/
def sourceHolds (source pl : Nat) (s : State) : Bool :=
  decide (192 ≤ source) && s.buf.pools.any (fun p => p.2.stopOn || p.2.pauseOn) &&
  (match takeArrival source pl s with
    | none => false
    | some (a, s') =>
      let u := runStages s'.nextPkt 16 (enterHeader source pl a s')
      match mget u.pkts s'.nextPkt with
      | some k => poolHolds (decide207 k u).1 u
      | none => false)

/-- An injected header waits in front of a pipeline and nothing holds it: it claims the reserved slot. -/
def injectedWaits (s : State) (pl : Nat) : Bool :=
  [192, 193].any (fun source => !(mgetD s.host.inject (injectKey pl source) []).isEmpty && !sourceHolds source pl s)

/-- A header of this source may take the next header slot: an injected one the reserved slot, 255, and any that no network frame claims; a network frame every slot that no injected header takes (R27, log entry 91). -/
def slotOpen (s : State) (source pl : Nat) : Bool :=
  let reserved := mgetD s.hdrSlot pl 0 == 255
  if source < 192 then !reserved || !injectedWaits s pl else reserved || !networkWaits s pl

/-- Enter the next header of a source into a pipeline (R27). -/
def parserEntry (source pl : Nat) (s : State) : State :=
  if !trafficOn s || !ingressPipeOk s pl || admissionHeld s pl || !slotOpen s source pl || sourceHolds source pl s then s
  else match takeArrival source pl s with
    | none => s
    | some (a, s) => enterHeader source pl a s
/-- PARSER_ENTRY. -/
def execParserEntry (source pl : Nat) (s : State) : Host.Outcome State Fault Refusal := answer s (parserEntry source pl s)

/-- END_OF_INGRESS. -/
def endOfIngress (n : Nat) (s : State) : State :=
  match mget s.pkts n with
  | none => s
  | some k =>
    if !trafficOn s || k.egress || k.ready || k.stage < 16 || behindEarlier n k s || (bridgeOn s && !dc0Credit s) then s
    else
      let r := decide207 k s
      if r.1.group.isSome || hasCopies r.1 then sendDc0 n r.1 r.2
      else { r.2 with pkts := mdel r.2.pkts n }

/-- END_OF_INGRESS. -/
def execEndOfIngress (n : Nat) (s : State) : Host.Outcome State Fault Refusal := answer s (endOfIngress n s)

/-! ### Buffering a packet and its copies (R231, R214, R218) -/

/-- Octets a truncation code keeps (R214, R218). -/
def truncTo (code len : Nat) : Nat := if code = 0 then len else Nat.min len (64 * 2 ^ code)

/-- One delivery of a packet: its own buffer, or a head that shares the body of `held`. -/
structure Deliver where
  agent : Nat
  pool : Nat
  acct : Option Nat := none
  frame : List Byte
  meta_ : List Byte
  hv : List Byte
  keep : Nat
  origin : Int

/-- The head of a delivery. -/
def deliverHead (d : Deliver) : Head :=
  { pool := d.pool, meta_ := fit 128 d.meta_, frame := d.frame, recLen := d.frame.length, hv := d.hv, origin := d.origin,
    account := d.acct }

/-- Take a buffer for a delivery: the segments of the whole frame, or one head that shares the body of the packet already held. -/
def takeBuffer (d : Deliver) (held : Option Nat) (s : State) : Option Nat × State :=
  let cut := fun (r : Option Nat × State) => match r.1 with
    | some seg => (some seg, modHead seg (fun h => { h with frame := d.frame.take d.keep, recLen := d.keep }) r.2)
    | none => r
  match held with
  | some o => cut (sharePkt d.agent o (deliverHead d) s)
  | none => cut (allocPkt d.agent (deliverHead d) s)

/-- Segments a delivery takes. -/
def deliverSegs (d : Deliver) (held : Option Nat) : Nat := if held.isSome then 1 else segsFor d.frame.length

/-- COUNT of the body allows one more head (R232). -/
def shareOk (held : Option Nat) (s : State) : Bool := match held with | some o => mayShare s o | none => true

/-- Queue a buffered packet: owner of the queue's manager, ENQ counters. -/
def enqueue (q : QId) (seg : Nat) (s : State) : State :=
  let s := modHead seg (fun h => { h with owner := if q.egress then 0x0E else 0x0C }) s
  let s := count (qSection q) q.num 1 (frameLen s seg) (count (qSection q) q.num 0 1 s)
  pushQueue q seg s

/-- Deliver to a channel as a descriptor (R346, R347): true where it was committed. -/
def toChannel (key kind ref : Nat) (d : Deliver) (held : Option Nat) (s : State) : Option Nat × State :=
  if channelRefuses key s then (none, channelDrop key s)
  else match takeBuffer { d with pool := (channelOf s key).pool } held s with
    | (some seg, s) => (some seg, commitDescriptor key seg kind ref s)
    | (none, s) => (none, channelDrop key s)

/-- The destination of a VOQ's group is live (R122, R298, R327). -/
def destLive (s : State) (g : Nat) : Bool :=
  let b := voqBindOf s g
  match b.kind with
  | 1 => if destLocal s b then (portOf s b.target).live else remoteUp s b.device b.target
  | 3 => s.pair.link != 0 && mgetD s.pair.ports b.target 0 == 1
  | _ => true

/-- The tests before buffering on a VOQ (R122, R251, R264, R439): false where the packet is dropped, which is counted; DOWN_PORT_DROP of a port of another device counts on the local port of its number (DESIGN CHOICE, log entry 90). -/
def voqTests (pipe g : Nat) (m : List Byte) (s : State) : Bool × State :=
  let v := g * 8 + queueOffset m
  if !groupUsable s g then (false, countDrop pipe 0x82 s)
  else if !destLive s g then (false, count 0x02 (voqBindOf s g).target 3 1 s)
  else if isFenced s (resId 0x12 (v / 131072)) then (false, count 0x0C v 6 1 s)
  else
    let r := offerCurve ⟨false, v⟩ (u8 m 6) s
    (!r.1, r.2)

/-- Buffer the packet itself on its VOQ (R238); only a port with FLOW 1 or 2 has accounts (R239). -/
def bufferOriginal (k : Pkt) (g : Nat) (s : State) : Option Nat × State :=
  let m := k.meta_
  let q : QId := ⟨false, g * 8 + queueOffset m⟩
  match voqTests k.pipe g m s with
  | (false, s) => (none, s)
  | (true, s) =>
    let pool := (qcfgOf s q).pool
    let acct := if k.source < 192 && ((portOf s k.source).fwd.flow == 1 || (portOf s k.source).fwd.flow == 2) then some (k.source * 8 + u8 m 5 % 8) else none
    let force := acct.isSome && (poolOf s pool).pauseOn && bit (poolOf s pool).lowMask (u8 m 5 % 8)
    let a := admission pool acct (segsFor k.frame.length) s
    if a != .ok then (none, admitDrop a pool acct s)
    else match takeBuffer { agent := k.pipe, pool := pool, acct := acct, frame := k.frame, meta_ := m, hv := k.hv,
                            keep := k.frame.length, origin := s.time.uptime } none s with
      | (none, s) => (none, s)
      | (some seg, s) =>
        let s := if force then acctForce (acct.getD 0) pool s else s
        (some seg, enqueue q seg s)

/-- Deliver a mirror copy to its session's destination (R214-R216). -/
def mirrorCopy (n : Nat) (k : Pkt) (held : Option Nat) (s : State) : Option Nat × State :=
  let x := mgetD s.mirrors n {}
  let dropped := fun (s : State) => (none, count 0x07 n 1 1 s)
  if !x.enabled then (none, if isTomb s 1 0 n then count 0x07 n 3 1 s else s)
  else if !shareOk held s then (none, count 0x07 n 2 1 s)
  else
    let m := poke k.meta_ 80 (leBytes 1 (u8 k.meta_ 80 ||| 1))
    let m := poke m 5 (leBytes 1 x.cls)
    let m := poke m 7 (leBytes 1 (u8 m 7 % 128 + 128))
    let m := if x.rewrite = 0xFFFFFFFF then m else poke m 72 (leBytes 4 x.rewrite)
    let len := truncTo x.truncate k.frame.length
    let d : Deliver := { agent := k.pipe, pool := 0, frame := k.frame, meta_ := m, hv := k.hv, keep := len, origin := k.born }
    let r := if x.destKind = 1 then toChannel (channelKey x.channel) 5 n d held s
      else match resolve s x.egressIndex with
        | .bad => (none, countDrop k.pipe 0x82 s)
        | .down p => (none, count 0x02 p 3 1 s)
        | .group g =>
          let q : QId := ⟨false, g * 8 + queueOffset m⟩
          match voqTests k.pipe g m s with
          | (false, s) => (none, s)
          | (true, s) =>
            let pool := (qcfgOf s q).pool
            if (poolOf s pool).stopOn || admission pool none (deliverSegs d held) s != .ok then (none, s)
            else match takeBuffer { d with pool := pool, meta_ := m, origin := s.time.uptime } held s with
              | (none, s) => (none, s)
              | (some seg, s) => (some seg, enqueue q seg s)
    match r with
    | (some seg, s) => (some seg, count 0x07 n 0 1 s)
    | (none, s) => dropped s

/-- Deliver a sample (R218). -/
def sampleCopy (k : Pkt) (held : Option Nat) (s : State) : Option Nat × State :=
  let n := u16 k.meta_ 78 % 8192
  let x := mgetD s.samplers n {}
  if !shareOk held s then (none, count 0x08 n 3 1 s)
  else
    let d : Deliver := { agent := k.pipe, pool := 0, frame := k.frame, meta_ := k.meta_, hv := k.hv,
                         keep := truncTo x.truncate k.frame.length, origin := k.born }
    match toChannel (channelKey x.channel) 4 n d held s with
    | (some seg, s) => (some seg, count 0x08 n 1 1 s)
    | (none, s) => (none, s)

/-- Deliver the packet or a copy of it to a channel as it is. -/
def channelCopy (key kind ref : Nat) (k : Pkt) (held : Option Nat) (s : State) : Option Nat × State :=
  if !shareOk held s then (none, s)
  else toChannel key kind ref { agent := k.pipe, pool := 0, frame := k.frame, meta_ := k.meta_, hv := k.hv,
                                keep := k.frame.length, origin := k.born } held s

/-- Keep the first held buffer: later copies share its body. -/
def keepHeld (held : Option Nat) (r : Option Nat × State) : Option Nat × State := (held.or r.1, r.2)

/-- Buffer a packet that crossed from ingress: the packet, then its channel copy, miss copies, sample and mirror copies. -/
def bufferPacket (k : Pkt) (s : State) : State :=
  let r := match k.group with | some g => bufferOriginal k g s | none => (none, s)
  let r := match k.channel with
    | some (key, kind) => keepHeld r.1 (channelCopy key kind 0 k r.1 r.2)
    | none => r
  let r := k.missCopies.foldl (fun r c => keepHeld r.1 (channelCopy (channelKey c.2) 3 c.1 k r.1 r.2)) r
  let r := if bit (u16 k.meta_ 78) 15 then keepHeld r.1 (sampleCopy k r.1 r.2) else r
  let w := u16 k.meta_ 76
  let r := if bit w 6 then keepHeld r.1 (mirrorCopy (w % 64) k r.1 r.2) else r
  (if bit w 14 then keepHeld r.1 (mirrorCopy (w / 256 % 64) k r.1 r.2) else r).2

/-- VOQ_ENQUEUE: the next message of DC0 arrives on the T-die: a packet is buffered (R238), an epoch marker goes on to the F-die in DC1 (R15; DESIGN CHOICE, log entry 81). -/
def voqEnqueue (s : State) : State :=
  if !trafficOn s || !bridgeOn s then s
  else match s.dc0 with
    | [] => s
    | .marker tag :: rest => bridgeBack (.marker tag) (dc0Take rest s)
    | .packet n :: rest =>
      let s := dc0Take rest s
      match mget s.pkts n with
      | none => s
      | some k =>
        let s := { s with pkts := mdel s.pkts n }
        match k.mirrorOf with
        | some x => (mirrorCopy x k none s).2
        | none => bufferPacket k s

/-- VOQ_ENQUEUE. -/
def execVoqEnqueue (s : State) : Host.Outcome State Fault Refusal := answer s (voqEnqueue s)

/-! ### The end of egress (R215, R221) -/

/-- The new packet of an egress mirror: the frame as rewritten, truncated (R215). -/
def egressMirrorPkt (n : Nat) (k : Pkt) (s : State) : Pkt :=
  let len := truncTo (mgetD s.mirrors n {}).truncate k.frame.length
  { frame := k.frame.take len, meta_ := poke (fit 256 (fit 128 k.meta_)) 2 (leBytes 2 len), hv := zeros 256, source := k.source,
    pipe := k.pipe, tag := k.tag, born := s.time.uptime, stage := 16, mirrorOf := some n, ready := true }

/-- Forget an egress packet: its buffer was released when it was read into DC1 (R227). -/
def dropEgress (n : Nat) (s : State) : State := { s with pkts := mdel s.pkts n }

/-- END_OF_EGRESS. -/
def endOfEgress (n : Nat) (s : State) : State :=
  match mget s.pkts n with
  | none => s
  | some k =>
    if !trafficOn s || !k.egress || k.ready || k.stage < 8 || (k.mirror.isSome && bridgeOn s && !dc0Credit s) then s
    else
      let s := match k.mirror with
        | some x =>
          let s' := sendDc0 s.nextPkt (egressMirrorPkt x k s) s
          { s' with nextPkt := s.nextPkt + 1 }
        | none => s
      if isFinal k then countDrop (12 + k.pipe) (u8 k.meta_ 69) (dropEgress n s)
      else if k.maxFrame < u16 k.meta_ 140 + 4 then countDrop (12 + k.pipe) 0x85 (dropEgress n s)
      else { s with pkts := mset s.pkts n { k with ready := true } }

/-- END_OF_EGRESS. -/
def execEndOfEgress (n : Nat) (s : State) : Host.Outcome State Fault Refusal := answer s (endOfEgress n s)

/-! ### The transmit point (R221, R406, R411) -/

/-- Write a transmit stamp (R406). -/
def logStamp (port ntime tsId : Nat) (s : State) : State :=
  let l := mgetD s.time.stamps port {}
  let l : StampLog := { count := (l.count + 1) % 2 ^ 32, entries := mset l.entries (l.count % 64) (ntime, tsId, l.count % 2 ^ 16) }
  count 0x02 port 9 1 { s with time.stamps := mset s.time.stamps port l }

/-- Port transit (point 1): not recorded without RX_TIME, SKIPPED below 0 (R411). -/
def recordTransit (port : Nat) (m : List Byte) (s : State) : State :=
  if bit (u8 m 33) 2 || u64 m 16 = 0 then s
  else if s.time.ntime < u64 m 16 then monSkip 1 port s
  else monEvent 1 port (s.time.ntime - u64 m 16) s

/-- The frame grew past the close of its gate (R277). -/
def gateOverrun (port : Nat) (k : Pkt) (s : State) : Bool :=
  match k.gateLeft with
  | none => false
  | some t => !fitsIn (u16 k.meta_ 140) (gateOf s port).fitAdj (portGbps s port) t

/-- TRANSMIT: pad, MACsec, FCS, stamp, counters (R221). A frame that reaches a port disabled meanwhile is not sent and counts as ADMIN_FLUSH (R103), and one whose transmitter answers a received fault (R118) as HOLD_FLUSH (log entry 90). -/
def transmit (n : Nat) (s : State) : State :=
  match mget s.pkts n with
  | none => s
  | some k =>
    if !trafficOn s || !k.egress || !k.ready then s
    else
      let m := k.meta_
      let port := u16 m 128
      let s := dropEgress n s
      let frame := if k.frame.length < 60 then fit 60 k.frame else k.frame
      if !(portOf s port).enabled then count 0x02 port 5 1 s
      else if faultAnswer (portOf s port) != 3 then count 0x02 port 4 1 s
      else match macsecTx port frame s with
      | (none, s) => s
      | (some (bytes, secured), s) =>
        let s := emit (.frame port (withFcs bytes) secured) s
        let s := count 0x02 port 1 (u16 m 140) (count 0x02 port 0 1 s)
        let s := if gateOverrun port k s then count 0x02 port 8 1 s else s
        let s := if bit (u8 m 248) 0 then logStamp port s.time.ntime (u16 m 250) s else s
        recordTransit port m s

/-- TRANSMIT. -/
def execTransmit (n : Nat) (s : State) : Host.Outcome State Fault Refusal := answer s (transmit n s)

end Sys2Proof.Machine
end

