-- ==== Sys2Proof/Machine/Lanes.lean ====
section
/-! DEFINITION. Fabric and pair lanes, the pair bond, and the port states that other devices report (R278-R281, R297-R299, R306, R327). -/

namespace Sys2Proof.Machine

/-! ### Domains (R474, R475) -/

/-- A power domain. -/
def domainOf (s : State) (d : Nat) : Domain := mgetD s.power.domains d {}
/-- Change a power domain. -/
def modDomain (d : Nat) (f : Domain → Domain) (s : State) : State :=
  { s with power.domains := mmod s.power.domains d {} f }
/-- Domain of a lane: PD_FAB0 for F00-F18, PD_FAB1 for F19-F37, PD_PAIR. -/
def octetDomain (o : Nat) : Nat := if 62 ≤ o then 19 else if o < 43 then 17 else 18
/-- A domain is meant to be powered: PD_FAB0 and PD_FAB1 while an octet of theirs is enabled, PD_PAIR by its ENABLE, any other one always (R4, R278, R306, R475). -/
def domainWanted (s : State) (d : Nat) : Bool :=
  if d = 17 || d = 18 then s.fabric.connected && s.fabric.octets.any (fun o => o.2.enable && octetDomain o.1 == d)
  else d != 19 || s.pair.cfg.enable
/-- A domain may be switched now: none ramps, and 1 ms has passed since PD_FAB0, PD_FAB1 or PD_PAIR was switched before another of them (R475). -/
def maySwitch (s : State) (d : Nat) : Bool :=
  !s.power.domains.any (fun x => x.2.ramping) && (decide (d < 17) || decide (s.power.switchFrom ≤ s.time.uptime))
/-- A domain has been switched: 1 ms passes before another of PD_FAB0, PD_FAB1 and PD_PAIR is (R475). -/
def noteSwitch (d : Nat) (s : State) : State :=
  if d < 17 then s else { s with power.switchFrom := s.time.uptime + 1000000 }
/-- Switch a domain: on where something wants it, or for the trial power-up of one that is held off; off otherwise (R474, R475). -/
def switchNow (d : Nat) (s : State) : State :=
  let x := domainOf s d
  if x.heldOff || (domainWanted s d && !x.on) then modDomain d (fun x => { x with ramping := true }) s
  else if domainWanted s d || !x.on then s
  else noteSwitch d (modDomain d (fun x => { x with on := false }) s)
/-- A domain is switched, or waits until it may be (R475). -/
def startRamp (d : Nat) (s : State) : State :=
  if (domainOf s d).ramping || s.power.waiting.contains d then s
  else if maySwitch s d then switchNow d s
  else { s with power.waiting := s.power.waiting ++ [d] }
/-- The domain that waits first among those that may be switched is (R475). -/
def nextRamp (s : State) : State :=
  match s.power.waiting.find? (maySwitch s) with
  | none => s
  | some d => switchNow d { s with power.waiting := s.power.waiting.filter (· != d) }
/-- The ramp of a domain is over, and the next domain follows (R475). -/
def rampOver (d : Nat) (s : State) : State := nextRamp (noteSwitch d s)
/-- Switch a domain on at run time: it ramps until it is in regulation (R475); a domain held off stays off (R474). -/
def switchOn (d : Nat) (s : State) : State :=
  if (domainOf s d).on || (domainOf s d).heldOff then s else startRamp d s
/-- Switch a domain off; the trial power-up of one that is held off goes on (R474). -/
def switchOff (d : Nat) (s : State) : State :=
  if (domainOf s d).heldOff then s
  else if (domainOf s d).ramping then rampOver d (modDomain d (fun x => { x with ramping := false }) s)
  else if (domainOf s d).on then startRamp d s
  else { s with power.waiting := s.power.waiting.filter (· != d) }

/-! ### Lanes (R278-R281, R306) -/

/-- A lane of the pair octets, by the lane index of R19. -/
def isPairLane (l : Nat) : Bool := decide (496 ≤ l) && decide (l < 512)
/-- A fabric lane. -/
def isFabricLane (l : Nat) : Bool := decide (192 ≤ l) && decide (l < 496)
/-- Settings of a fabric octet. -/
def octetOf (s : State) (o : Nat) : FabOctet := mgetD s.fabric.octets o {}
/-- A lane is enabled and powered and not fenced. -/
def laneUsable (s : State) (l : Nat) : Bool :=
  (if isPairLane l then s.pair.cfg.enable
   else isFabricLane l && s.fabric.connected && (octetOf s (l / 8)).enable && bit (octetOf s (l / 8)).mask (l % 8)) &&
  (domainOf s (octetDomain (l / 8))).on && !isFenced s (resId 0x01 l)

/-- Link training runs on a lane; pair lanes always train. -/
def laneTrains (s : State) (l : Nat) : Bool := isPairLane l || (octetOf s (l / 8)).training == 1
/-- RETRY_MS of a lane; a pair lane has the reset value of R278. -/
def laneRetryMs (s : State) (l : Nat) : Nat := if isPairLane l then 100 else (octetOf s (l / 8)).retryMs

/-- Begin bring-up of a lane. -/
def startLane (l : Nat) (s : State) : State :=
  if laneUsable s l then
    modLane l (fun x => { x with
      state := if laneTrains s l then 1 else 2, since := s.time.uptime, markers := 0, farEnd := 0, uncorr := 0,
      txFrom := s.time.uptime, txMarkers := 0 }) s
  else s

/-- 4,096 FEC codewords of 544 ten-bit symbols, in tenths of a nanosecond, at a LANE_RATE of 3 (106.25 Gb/s) or 4 (212.5 Gb/s) (R279). -/
def markerTenths (rate : Nat) : Nat := if rate = 3 then 2097152 else 1048576
/-- LANE_RATE of a lane. -/
def laneRate (s : State) (l : Nat) : Nat := if isPairLane l then s.pair.cfg.rate else (octetOf s (l / 8)).rate
/-- The lane holds marker lock in the receiving direction: a marker has arrived since VERIFY began (log entry 87). -/
def markerLock (x : Lane) : Bool := x.state == 4 || (x.state == 3 && x.markers != 0)
/-- A lane past TRAINING sends its marker, which carries its index among the lanes after the Ethernet ones, once every 4,096 codewords of its word stream (R279; log entry 87); none once the lanes stop, 10 µs after the start of a warm reset (R482). -/
def laneSends (l : Nat) (s : State) : State :=
  let x := laneOf s l
  if (running s || (s.power.warm && decide (s.time.uptime < s.power.warmAt + 10000))) && [2, 3, 4].contains x.state && decide ((x.txMarkers + 1) * markerTenths (laneRate s l) ≤ (s.time.uptime - x.txFrom) * 10) then
    emit (.marker l s.fabric.device (l - 192) (markerLock x)) (modLane l (fun x => { x with txMarkers := x.txMarkers + 1 }) s)
  else s
/-- The markers due on the lanes now. -/
def sendMarkers (s : State) : State := (s.fabric.lanes.map (·.1)).foldl (fun s l => laneSends l s) s

/-! ### Ports of other devices (R298, R299, R327) -/

/-- Apply a state of a port of another device. -/
def applyRemotePort (device port st : Nat) (s : State) : State :=
  if mgetD (peerOf s device).ports port 0 = st then s
  else
    let s := modPeer device (fun p => { p with ports := mput p.ports port st }) s
    settleGroups (if st = 3 || st = 0 then flushDestVoqs 1 device port s else s)

/-- Apply a state of a port of the pair peer. -/
def applyPairPort (port st : Nat) (s : State) : State :=
  if mgetD s.pair.ports port 0 = st then s
  else
    let s := { s with pair.ports := mput s.pair.ports port st }
    settleGroups (if st = 3 || st = 0 then flushDestVoqs 3 0 port s else s)

/-- Every port of the pair peer is treated as DOWN, and the egress queues of the pair link are flushed (R327). -/
def pairPortsDown (s : State) : State :=
  let s := s.pair.ports.foldl (fun s p => applyPairPort p.1 3 s) s
  let groups := ((s.sched.eqs.map (fun e => e.1 / 8)).eraseDups).filter (fun g => (eqBindOf s g).kind == 3)
  settleGroups (groups.foldl (fun s g => flushGroup true g (fun _ => (0x11, 0, 1)) s) s)

/-! ### The pair bond (R306) -/

/-- Width that the ACTIVE pair lanes allow: 0 none, 1 P0, 2 P1, 3 both. -/
def pairWidth (s : State) : Nat :=
  let up := fun o => (List.range 8).all (fun i => (laneOf s (o * 8 + i)).state == 4)
  b2n (up 62) + b2n (up 63) * 2

/-- After a pair lane changed: a change of width takes the link down and starts a retrain of the bond. -/
def settleBond (s : State) : State :=
  let w := pairWidth s
  if w = s.pair.link then { s with pair.retrain := none }
  else
    let down := s.pair.link != 0
    let s := { s with pair.link := 0, pair.retrain := if w = 0 then none else some s.time.uptime }
    if down then pairPortsDown s else s

/-- A lane that changed: the bond follows its pair lanes. -/
def laneSettle (l : Nat) (s : State) : State := if isPairLane l then settleBond s else s

/-- A lane leaves its state for FAILED (R280, R281). -/
def laneFails (l cause : Nat) (s : State) : State :=
  if [1, 2, 3, 4].contains (laneOf s l).state then
    laneSettle l (modLane l (fun x => { x with
      state := 5, cause := cause, fails := (x.fails + 1) % 2 ^ 32, since := s.time.uptime, markers := 0, farEnd := 0 }) s)
  else s

/-- A lane is powered down. -/
def stopLane (l : Nat) (s : State) : State :=
  if (laneOf s l).state = 0 then s
  else laneSettle l (modLane l (fun x => { x with state := 0, markers := 0, farEnd := 0, uncorr := 0 }) s)

/-- Lanes of an octet. -/
def octetLanes (o : Nat) : List Nat := (List.range 8).map (· + o * 8)
/-- Start the lanes of an octet that are down. -/
def startOctet (o : Nat) (s : State) : State :=
  (octetLanes o).foldl (fun s l => if (laneOf s l).state = 0 then startLane l s else s) s
/-- Stop every lane of an octet. -/
def stopOctet (o : Nat) (s : State) : State := (octetLanes o).foldl (fun s l => stopLane l s) s

/-! ### Lane events (R280, R281) -/

/-- LANE_TRAINING_DONE. -/
def execLaneTrainingDone (l : Nat) (s : State) : Host.Outcome State Fault Refusal :=
  answer s (if running s && (laneOf s l).state == 1 then modLane l (fun x => { x with state := 2, txFrom := s.time.uptime, txMarkers := 0 }) s else s)

/-- LANE_LOCK. -/
def execLaneLock (l : Nat) (s : State) : Host.Outcome State Fault Refusal :=
  answer s (if running s && (laneOf s l).state == 2 then modLane l (fun x => { x with state := 3, markers := 0 }) s else s)

/-- LANE_MARKER: VERIFY counts consecutive markers, ACTIVE counts those with RECEIVING 0. -/
def laneMarker (l : Nat) (receiving : Bool) (s : State) : State :=
    let x := laneOf s l
    if !running s then s
    else if x.state = 3 then
      if 2 ≤ x.markers && receiving then
        laneSettle l (modLane l (fun x => { x with state := 4, since := s.time.uptime, markers := 0, farEnd := 0 }) s)
      else modLane l (fun x => { x with markers := x.markers + 1 }) s
    else if x.state = 4 then
      if receiving then modLane l (fun x => { x with farEnd := 0 }) s
      else if x.farEnd = 0 then modLane l (fun x => { x with farEnd := 1 }) s
      else laneFails l 4 s
    else s

/-- LANE_FAILURE: an ACTIVE lane fails with cause 1 loss of signal, 2 marker lock, 3 uncorrectable codewords or 4 far end. -/
def laneFailure (l cause : Nat) (s : State) : State :=
  if running s && (laneOf s l).state == 4 && decide (1 ≤ cause) && decide (cause ≤ 4) then
    let s := if cause = 3 then
      modLane l (fun x => { x with uncorr := if isPairLane l then 16 else (octetOf s (l / 8)).uncorrLimit }) s else s
    laneFails l cause s
  else s

/-- LANE_RETRY: a FAILED lane re-enters TRAINING after RETRY_MS. -/
def execLaneRetry (l : Nat) (s : State) : Host.Outcome State Fault Refusal :=
  answer s (if running s && (laneOf s l).state == 5 && decide ((laneOf s l).since + laneRetryMs s l * 1000000 ≤ s.time.uptime) then
    startLane l s else s)

/-- LANE_BRINGUP_TIMEOUT: more than 100 ms in bring-up. -/
def laneBringupTimeout (l : Nat) (s : State) : State :=
  if running s && [1, 2, 3].contains (laneOf s l).state && decide ((laneOf s l).since + 100000000 < s.time.uptime) then
    laneFails l (laneOf s l).cause s else s

/-- BOND_RETRAIN: the retrain of the bond completes. -/
def execBondRetrain (s : State) : Host.Outcome State Fault Refusal :=
  answer s (if running s && s.pair.retrain.isSome then
    settleGroups (pairResend { s with pair.link := pairWidth s, pair.retrain := none, pair.bond := 0 }) else s)

/-! ### FABRIC_LINK_SET (R278) -/

/-- Settings of a FABRIC_LINK_SET. -/
def fabOctetOf (c : Cmd) : FabOctet :=
  { enable := c.at 1 1 == 1, mask := c.at 2 1, rate := c.at 3 1, txInvert := c.at 4 1, rxInvert := c.at 5 1, training := c.at 6 1,
    uncorrLimit := c.at 8 2, retryMs := c.at 10 2 }

/-- Power a fabric half by its octets (R278). -/
def settleFabDomain (d : Nat) (s : State) : State :=
  if s.fabric.octets.any (fun o => o.2.enable && octetDomain o.1 == d) then switchOn d s else switchOff d s

/-- FABRIC_LINK_SET (0x0C02). -/
def fabricLinkSetSpec : CmdSpec :=
  { opcode := 0x0C02, kind := .c
    layout := plain 16 [rsv 7 1, rsv 12 4]
    fields := fun c s => firstFail [
      (decide (24 ≤ c.at 0 1) && decide (c.at 0 1 ≤ 61), badField 0), (!isB1S s, failWith St.notPresent),
      (decide (c.at 1 1 ≤ 1), badField 1), (c.at 3 1 == 3 || c.at 3 1 == 4, badField 3), (decide (c.at 6 1 ≤ 1), badField 6),
      (c.at 8 2 != 0, badField 8), (decide (1 ≤ c.at 10 2) && decide (c.at 10 2 ≤ 10000), badField 10)]
    objects := fun c _ => [objKey 29 (c.at 0 1) 0]
    object := fun c _ _ => c.at 0 1
    apply := fun c s =>
      let o := c.at 0 1
      let old := octetOf s o
      let new := fabOctetOf c
      if !s.fabric.connected then .error (failWith St.wrongState)
      else if old.enable && !({ new with enable := old.enable, uncorrLimit := old.uncorrLimit, retryMs := old.retryMs } == old) then
        .error (failWith St.wrongState)
      else
        let s := { s with fabric.octets := mset s.fabric.octets o new }
        let s := settleFabDomain (octetDomain o) s
        .ok (if new.enable then startOctet o s else stopOctet o s, []) }

/-! ### Lane status -/

/-- FAB_LANE_STATUS of a lane index of R19. -/
def laneStatusWord (s : State) (l : Nat) : Nat :=
  let x := laneOf s l
  x.state + b2n (isFenced s (resId 0x01 l)) * 8 + x.cause * 2 ^ 4 + x.uncorr * 2 ^ 16 + x.fails * 2 ^ 32

end Sys2Proof.Machine
end

