-- ==== Sys2Proof/Machine/Rings.lean ====
section
/-! DEFINITION. Slices and data rings: doorbells, fetching, completion writes with their backlog and messages, and the quiesce of a slice (R371-R388, R393-R395 13_host_interface). -/

namespace Sys2Proof.Machine

/-! ### Slices and rings by number -/

/-- Key of local ring `loc` of a slice. -/
def dataKey (sl loc : Nat) : Nat := sl * 128 + loc
/-- A data ring; an absent one reads disabled. -/
def dataRing (s : State) (k : Nat) : Ring := mgetD s.host.rings k {}
/-- Change a ring that exists. -/
def modData (k : Nat) (f : Ring → Ring) (s : State) : State :=
  match mget s.host.rings k with
  | some r => { s with host.rings := mset s.host.rings k (f r) }
  | none => s
/-- A slice; an absent one reads STATE 0. -/
def sliceOf (s : State) (n : Nat) : Slice := mgetD s.host.slices n {}
/-- Change a slice that exists. -/
def modSlice (n : Nat) (f : Slice → Slice) (s : State) : State :=
  match mget s.host.slices n with
  | some x => { s with host.slices := mset s.host.slices n (f x) }
  | none => s
/-- Change the state of a slice; MSI-X vector 7 is signalled (R370). -/
def setSliceState (n st : Nat) (s : State) : State :=
  if (sliceOf s n).state = st then s else emit (.msix 7) (modSlice n (fun x => { x with state := st }) s)
/-- Rings of a slice, by local number. -/
def sliceRings (s : State) (n : Nat) : NMap Ring :=
  ((s.host.rings.filter (fun r => r.1 / 128 == n)).map (fun r => (r.1 % 128, r.2)))
/-- Entries of a ring, 2^k. -/
def Ring.size (r : Ring) : Nat := 2 ^ r.log2
/-- Distance from index `a` to index `b`, modulo 2^(k+1). -/
def Ring.dist (r : Ring) (a b : Nat) : Nat := (b + 2 * r.size - a % (2 * r.size)) % (2 * r.size)
/-- Default rights mask of a slice (R56): R and change of RING, R of DEVICE, MBOX, TIME and MONITOR. -/
def sliceDefaultMask : Nat := 2 ^ 32 + 2 ^ 33 + 2 ^ 2 + 2 ^ 4 + 2 ^ 34 + 2 ^ 36

/-- A DMA write of a slice, with its PASID; none while its link is down or PF1 is in D3hot. -/
def sliceDma (n addr : Nat) (bs : List Byte) (s : State) : State :=
  if pf1Dma s (sliceOf s n).link then emit (.dma (some (sliceOf s n).pasid) addr bs) s else s
/-- A DMA write of a frame's or a job's output: with relaxed ordering where the function enables it (R367). -/
def outputDma (n addr : Nat) (bs : List Byte) (s : State) : State :=
  if s.host.relaxed.contains (pf1Key (sliceOf s n).link) then
    if pf1Dma s (sliceOf s n).link then emit (.dmaRelaxed (sliceOf s n).pasid addr bs) s else s
  else sliceDma n addr bs s

/-! ### Completion (R380-R385) -/

/-- What a completion entry reports (R385). -/
structure Done where
  tag : Nat := 0
  status : Nat := 0
  ring : Nat
  kind : Nat
  ndesc : Nat := 1
  len : Nat := 0
  hash : Nat := 0
  result : Nat := 0
  cls : Nat := 0
  queue : Nat := 0

/-- Bytes 0-30 of a completion entry. -/
def Done.bytes (d : Done) : List Byte :=
  leBytes 2 d.tag ++ leBytes 2 d.status ++ leBytes 1 d.ring ++ leBytes 1 d.kind ++ leBytes 2 d.ndesc ++ leBytes 4 d.len ++
  leBytes 4 d.hash ++ leBytes 8 d.result ++ leBytes 1 d.cls ++ leBytes 1 d.queue ++ zeros 5

/-- Send the interrupt message of a completion ring (R383): it clears ARM. A function that can do no DMA sends none, and the ring keeps its state (R366). -/
def sendMessage (k : Nat) (s : State) : State :=
  let r := dataRing s k
  if r.msgAddr = 0 || !pf1Dma s (sliceOf s (k / 128)).link then s
  else emit (.message r.msgAddr r.msgData) (modData k (fun r => { r with armed := false, unreported := 0, waitFrom := none }) s)

/-- The message is due by COAL_COUNT (R383). -/
def messageByCount (k : Nat) (s : State) : State :=
  let r := dataRing s k
  if r.armed && r.dist r.consumer r.producer != 0 && decide (r.coalCount ≤ r.unreported) then sendMessage k s else s

/-- Write a completion entry at PRODUCER: bytes 0-30, then byte 31 with the phase of the index (R376, R380). -/
def writeDone (k : Nat) (bytes : List Byte) (s : State) : State :=
  let r := dataRing s k
  let addr := r.base + r.producer % r.size * 32
  let s := sliceDma (k / 128) addr bytes s
  let s := sliceDma (k / 128) (addr + 31) (leBytes 1 (1 - r.producer / r.size % 2)) s
  messageByCount k (modData k (fun r => { r with
    producer := (r.producer + 1) % (2 * r.size), unreported := r.unreported + 1,
    waitFrom := some (r.waitFrom.getD s.time.uptime) }) s)

/-- A completion ring is full. -/
def Ring.full (r : Ring) : Bool := r.dist r.consumer r.producer == r.size

/-- Produce a completion (R381, R382): into the ring, or into the backlog where the ring is full; LOST where neither has room (R393). It waits where the function can do no DMA (R366; DEDUCED, log entry 71). -/
def produceDone (k : Nat) (bytes : List Byte) (s : State) : State :=
  let r := dataRing s k
  if !pf1Dma s (sliceOf s (k / 128)).link then modData k (fun r => { r with held := r.held ++ [bytes] }) s
  else if !r.full && r.backlog.isEmpty then writeDone k bytes s
  else if 32 ≤ r.backlog.length then
    count 0x15 (k / 128) 2 1 (modSlice (k / 128) (fun x => { x with lost := x.lost + 1 }) s)
  else
    let s := modData k (fun r => { r with backlog := r.backlog ++ [bytes] }) s
    if r.backlog.length + 1 = 32 then
      sendMessage k (count 0x15 (k / 128) 1 1 (modData k (fun r => { r with stalled := true }) s))
    else s

/-- The backlog drains into the ring while there is room (R382). -/
def drainBacklog (k : Nat) : Nat → State → State
  | 0, s => s
  | n + 1, s =>
    let r := dataRing s k
    match r.backlog with
    | [] => modData k (fun r => { r with stalled := false }) s
    | b :: rest =>
      if r.full || !pf1Dma s (sliceOf s (k / 128)).link then s
      else drainBacklog k n (writeDone k b (modData k (fun r => { r with backlog := rest }) s))

/-- The completions that waited for DMA are produced, in order. -/
def produceHeld (k : Nat) (s : State) : State :=
  let bs := (dataRing s k).held
  bs.foldl (fun s b => produceDone k b s) (modData k (fun r => { r with held := [] }) s)

/-- Submission rings of a slice that complete into a completion ring. -/
def mappedTo (s : State) (k : Nat) : NMap Ring :=
  (sliceRings s (k / 128)).filter (fun r => r.1 < 64 && r.2.cq == k % 128)
/-- Reservations of a completion ring (R381). -/
def reservations (s : State) (k : Nat) : Nat :=
  let r := dataRing s k
  (mappedTo s k).foldl (fun a x => a + x.2.outstanding) (r.dist r.consumer r.producer + r.backlog.length + r.held.length)
/-- `n` entries of a submission ring may be dispatched (R381; DEDUCED, log entry 28: each entry is one reservation). -/
def mayDispatch (s : State) (k n : Nat) : Bool :=
  let cq := dataKey (k / 128) (dataRing s k).cq
  decide (reservations s cq + n ≤ (dataRing s cq).size + 32)

/-- No entry fetched, dispatched or awaiting completion (HOST_RING_STATUS IDLE). -/
def Ring.idle (r : Ring) : Bool := r.entries.isEmpty && r.outstanding == 0 && r.backlog.isEmpty && r.held.isEmpty && r.passing.isNone

/-- A RING_DISABLE whose ring has become idle completes: STATE 0 (R375). -/
def settleRing (k : Nat) (s : State) : State :=
  let r := dataRing s k
  match r.disabling with
  | some c =>
    if r.idle then
      completeLong c 0x1004 k [] (modData k (fun r => { r with state := 0, disabling := none, haltCause := 0, tries := [], fetched := r.consumer }) s)
    else s
  | none => s

/-- Complete dispatched entries of a submission ring. -/
def finishEntries (k n : Nat) (d : Done) (s : State) : State :=
  let s := modData k (fun r => { r with outstanding := r.outstanding - n }) s
  settleRing k (produceDone (dataKey (k / 128) (dataRing s k).cq) d.bytes s)

/-! ### Doorbells (R377) -/

/-- A doorbell write that is ignored and counted. -/
def badBell (k : Nat) (s : State) : State := modData k (fun r => { r with badDoorbell := (r.badDoorbell + 1) % 256 }) s

/-- ARM of a completion ring (R383). -/
def armRing (k : Nat) (s : State) : State :=
  let s := modData k (fun r => { r with
    armed := true, waitFrom := if r.dist r.consumer r.producer != 0 then some s.time.uptime else r.waitFrom }) s
  messageByCount k s

/-- A doorbell write to a submission ring. -/
def submitBell (k v : Nat) (s : State) : State :=
  let r := dataRing s k
  let i := v % 2 ^ 16
  let ahead := r.dist r.consumer i
  if bit v 63 then
    if r.state = 2 then settleRing k (modData k (fun r => { r with
      state := 1, producer := 0, consumer := 0, fetched := 0, haltCause := 0, entries := [], tries := [], passing := none }) s)
    else badBell k s
  else if r.state != 1 then badBell k s
  else if i = r.producer then s
  else if 2 * r.size ≤ i || ahead ≤ r.dist r.consumer r.producer || r.size < ahead then badBell k s
  else modData k (fun r => { r with producer := i }) s

/-- A doorbell write to a completion ring. -/
def consumeBell (k v : Nat) (s : State) : State :=
  let r := dataRing s k
  let i := v % 2 ^ 16
  if bit v 63 || 2 * r.size ≤ i || r.dist r.consumer r.producer < r.dist r.consumer i then badBell k s
  else
    let s := if i = r.consumer then s
      else settleRing k (drainBacklog k 33 (modData k (fun r => { r with consumer := i }) s))
    if bit v 16 then armRing k s else s

/-- A write to HOST_RING_DOORBELL: discarded and counted during and after a quiesce (R393); a function in D3hot takes none (PRESUMED, log entry 71). -/
def ringBell (sl loc v : Nat) (s : State) : State :=
  let k := dataKey sl loc
  if !running s || (sliceOf s sl).state = 0 || asleep s (pf1Key (sliceOf s sl).link) then s
  else if (sliceOf s sl).state != 1 then modSlice sl (fun x => { x with fenceDiscard := (x.fenceDiscard + 1) % 2 ^ 16 }) s
  else if (mget s.host.rings k).isNone then s
  else if bitsOf v 62 17 != 0 then badBell k s
  else if loc < 64 then submitBell k v s else consumeBell k v s

/-- SUBMISSION_DOORBELL. -/
def execSubmissionDoorbell (sl loc v : Nat) (s : State) : Host.Outcome State Fault Refusal := answer s (ringBell sl loc v s)
/-- COMPLETION_DOORBELL. -/
def execCompletionDoorbell (sl loc v : Nat) (s : State) : Host.Outcome State Fault Refusal := answer s (ringBell sl loc v s)
/-- ARM: a doorbell write with ARM 1. -/
def execArm (sl loc v : Nat) (s : State) : Host.Outcome State Fault Refusal :=
  answer s (ringBell sl loc (withBit v 16 true) s)
/-- HOST_RING_RESET: a doorbell write with RING_RESET 1. -/
def execHostRingReset (sl loc v : Nat) (s : State) : Host.Outcome State Fault Refusal :=
  answer s (ringBell sl loc (withBit v 63 true) s)

/-- The device issues DMA for a slice: it exists, SLICE_IDLE is not set, and its function can do DMA (R366, R393). -/
def sliceWrites (s : State) (n : Nat) : Bool := [1, 2, 4].contains (sliceOf s n).state && pf1Dma s (sliceOf s n).link

/-- COALESCE_TIMEOUT (R383). -/
def execCoalesceTimeout (sl loc : Nat) (s : State) : Host.Outcome State Fault Refusal :=
  answer s (
    let k := dataKey sl loc
    let r := dataRing s k
    if trafficOn s && sliceWrites s sl && r.armed && r.dist r.consumer r.producer != 0 &&
      (match r.waitFrom with | some t => decide (t + r.coalNs ≤ s.time.uptime) | none => false) then sendMessage k s else s)

/-! ### Fetching (R376, R378) -/

/-- Bytes of an entry. -/
def Ring.entrySize (r : Ring) : Nat := if r.kind = 3 then 64 else 32
/-- Work of a slice runs: it is ACTIVE and its function can do DMA. -/
def sliceRuns (s : State) (n : Nat) : Bool := trafficOn s && sliceServes s n
/-- The next index to fetch: the first discarded one of RING_INVALIDATE, or the one after the last fetched. -/
def Ring.nextFetch (r : Ring) : Nat :=
  let m := 2 * r.size
  (((List.range (r.dist r.consumer r.fetched)).map (fun i => (r.consumer + i) % m)).find?
    (fun i => (mget r.entries i).isNone)).getD r.fetched
/-- The ring may fetch an entry. -/
def mayFetch (s : State) (k : Nat) : Bool :=
  let r := dataRing s k
  sliceRuns s (k / 128) && k % 128 < 64 && r.state == 1 && r.disabling.isNone && r.nextFetch != r.producer &&
  decide (r.dist r.consumer r.nextFetch < 32)

/-- Take what one fetch of an entry brought: a wrong PHASE is fetched again, 16 times in all. -/
def takeEntry (k : Nat) (entry : Option (List Byte)) (s : State) : State :=
  let r := dataRing s k
  let i := r.nextFetch
  match entry with
  | none => modData k (fun r => { r with state := 2, haltCause := 2, tries := [] }) s
  | some bs =>
    if u8 bs (r.entrySize - 1) % 2 = 1 - i / r.size % 2 then
      modData k (fun r => { r with
        entries := mset r.entries i (fit r.entrySize bs), tries := mdel r.tries i,
        fetched := if i = r.fetched then (i + 1) % (2 * r.size) else r.fetched }) s
    else if 16 ≤ mgetD r.tries i 0 + 1 then modData k (fun r => { r with state := 2, haltCause := 1, tries := [] }) s
    else modData k (fun r => { r with tries := mset r.tries i (mgetD r.tries i 0 + 1) }) s

/-- The next entry of a ring is fetched again, after a PHASE that did not match. -/
def Ring.refetches (r : Ring) : Bool := mgetD r.tries r.nextFetch 0 != 0

/-- RING_FETCH. -/
def execRingFetch (sl loc : Nat) (entry : Option (List Byte)) (s : State) : Host.Outcome State Fault Refusal :=
  answer s (if mayFetch s (dataKey sl loc) && !(dataRing s (dataKey sl loc)).refetches then takeEntry (dataKey sl loc) entry s else s)
/-- FETCH_RETRY. -/
def execFetchRetry (sl loc : Nat) (entry : Option (List Byte)) (s : State) : Host.Outcome State Fault Refusal :=
  answer s (if mayFetch s (dataKey sl loc) && (dataRing s (dataKey sl loc)).refetches then takeEntry (dataKey sl loc) entry s else s)

/-- The entries fetched from CONSUMER on without a gap. -/
def Ring.ready (r : Ring) : List (List Byte) :=
  ((List.range (min 32 (r.dist r.consumer r.fetched))).map (fun i => mget r.entries ((r.consumer + i) % (2 * r.size)))).takeWhile
    Option.isSome |>.filterMap id
/-- Dispatch `n` entries: CONSUMER passes them together. -/
def dispatchEntries (k n : Nat) (s : State) : State :=
  modData k (fun r => { r with
    consumer := (r.consumer + n) % (2 * r.size), outstanding := r.outstanding + n,
    entries := (List.range n).foldl (fun m i => mdel m ((r.consumer + i) % (2 * r.size))) r.entries }) s

/-! ### Transmit (R384, R387) -/

/-- The descriptors of the frame at the front of a TX ring, to the one whose MORE is 0; none where it is not whole. -/
def frameDescs : List (List Byte) → Option (List (List Byte))
  | [] => none
  | d :: ds => if bit (u8 d 14) 0 then (frameDescs ds).map (d :: ·) else some [d]
/-- A TX descriptor is within R384. -/
def txDescOk (d : List Byte) : Bool :=
  decide (1 ≤ u32 d 8) && decide (u32 d 8 ≤ 16000) && u8 d 14 / 2 == 0 && uN d 15 16 == 0 && u8 d 31 / 2 == 0
/-- Octets of a frame. -/
def txLen (ds : List (List Byte)) : Nat := ds.foldl (fun a d => a + u32 d 8) 0
/-- The frame is within R384 and R387. -/
def txFrameOk (ds : List (List Byte)) : Bool :=
  ds.all txDescOk && decide (ds.length ≤ 16) && decide (14 ≤ txLen ds) && decide (txLen ds ≤ 16000)

/-- Frames of TX rings being read for a pipeline. -/
def readingFor (s : State) (pl : Nat) : Nat :=
  (s.host.rings.filter (fun r => r.2.kind == 1 && r.2.pipeline == pl)).foldl (fun a r => a + (r.2.inFlight.filter (fun f => f.status == 0)).length) 0
/-- The descriptors that a TX ring can dispatch now, and whether they end their frame. A frame of more descriptors than are fetched ahead breaks the limit of R387: it is passed over as it is fetched (DEDUCED, log entry 28). -/
def txDispatchable (s : State) (k : Nat) : Option (List (List Byte) × Bool) :=
  let r := dataRing s k
  if sliceRuns s (k / 128) && r.kind == 1 && (r.state == 1 || r.state == 2) then
    match frameDescs r.ready with
    | some ds =>
      if mayDispatch s k (if r.passing.isSome then 1 else ds.length) &&
        decide ((mgetD s.host.inject (injectKey r.pipeline 193) []).length + readingFor s r.pipeline < 64) then some (ds, true) else none
    | none => if r.ready.length = 32 || (r.passing.isSome && !r.ready.isEmpty) then some (r.ready, false) else none
  else none
/-- The next key in a cyclic order after `last` that satisfies `p`. -/
def nextTurn (last : Nat) (keys : List Nat) (p : Nat → Bool) : Option Nat :=
  ((keys.filter (fun k => last < k)).find? p).or ((keys.filter (fun k => k ≤ last)).find? p)

/-- End the oldest frame of a TX ring with a status; it is injected on success. -/
def txFinish (k status : Nat) (s : State) : State :=
  let r := dataRing s k
  match r.inFlight with
  | [] => s
  | f :: rest =>
    let s := modData k (fun r => { r with inFlight := rest }) s
    let s := if status = 0 then
        injectHeader r.pipeline 193 { bytes := f.bytes, slice := k / 128 }
          (count 0x15 (k / 128) 8 f.bytes.length (count 0x15 (k / 128) 7 1 s))
      else s
    finishEntries k f.held { tag := f.tag, status := status, ring := k % 128, kind := 1, ndesc := f.ndesc, len := f.len } s
/-- Frames at the front of a TX ring whose status was settled at dispatch complete: the completions of one TX ring follow its frames in ring order (R380). -/
def txFlush (k : Nat) : Nat → State → State
  | 0, s => s
  | n + 1, s =>
    match (dataRing s k).inFlight with
    | f :: _ => if f.status = 0 then s else txFlush k n (txFinish k f.status s)
    | [] => s
/-- A frame of a TX ring is dispatched. -/
def txTake (k : Nat) (f : TxFrame) (s : State) : State :=
  let s := modData k (fun r => { r with inFlight := r.inFlight ++ [f] }) s
  txFlush k (dataRing s k).inFlight.length s
/-- End the oldest frame of a TX ring, and those behind it that wait only for it. -/
def txEnd (k status : Nat) (s : State) : State :=
  let s := txFinish k status s
  txFlush k (dataRing s k).inFlight.length s

/-- Descriptors of a frame that breaks the limit are passed over; the last one completes it with BAD_FIELD (R387). -/
def txPass (k : Nat) (ds : List (List Byte)) (last : Bool) (s : State) : State :=
  let p := (dataRing s k).passing.getD (0, 0, u16 (ds.headD []) 12)
  let n := p.1 + ds.length
  let len := p.2.1 + txLen ds
  let s := modData k (fun r => { r with outstanding := r.outstanding - ds.length }) (dispatchEntries k ds.length s)
  if last then
    txTake k { bytes := [], len := len % 2 ^ 32, ndesc := n % 2 ^ 16, held := 1, tag := p.2.2, status := 0x14 }
      (modData k (fun r => { r with passing := none, outstanding := r.outstanding + 1 }) s)
  else modData k (fun r => { r with passing := some (n, len, p.2.2) }) s

/-- TX_FRAME_DISPATCH: the TX ring whose turn it is; `data` is what the DMA reads, none where a read fails. -/
def txDispatch (k : Nat) (data : Option (List Byte)) (s : State) : State :=
  match txDispatchable s k with
  | none => s
  | some (ds, last) =>
    if nextTurn s.host.txTurn (s.host.rings.map (·.1)) (fun j => (txDispatchable s j).isSome) != some k then s
    else
      let s := { s with host.txTurn := k }
      if !last || (dataRing s k).passing.isSome then txPass k ds last s
      else
        let s := dispatchEntries k ds.length s
        let status := if !txFrameOk ds then 0x14 else if isFenced s (resId 0x0C (dataRing s k).pipeline) then 0x70
          else if data.isNone then 0x90 else 0
        let bytes := if status = 0 then fit (txLen ds) (data.getD []) else []
        txTake k { bytes := bytes, len := txLen ds, ndesc := ds.length, held := ds.length, tag := u16 (ds.headD []) 12, status := status } s

/-- TX_FRAME_DISPATCH. -/
def execTxFrameDispatch (sl loc : Nat) (data : Option (List Byte)) (s : State) : Host.Outcome State Fault Refusal :=
  answer s (txDispatch (dataKey sl loc) data s)

/-- TX_FRAME_COMPLETE. -/
def execTxFrameComplete (sl loc : Nat) (s : State) : Host.Outcome State Fault Refusal :=
  answer s (if trafficOn s && pf1Dma s (sliceOf s sl).link then
    txEnd (dataKey sl loc) (if isFenced s (resId 0x0C (dataRing s (dataKey sl loc)).pipeline) then 0x70 else 0) s else s)

/-! ### Receive (R388) -/

/-- An RX descriptor is within R384. -/
def rxDescOk (d : List Byte) : Bool :=
  decide (64 ≤ u32 d 8) && decide (u32 d 8 ≤ 16384) && u32 d 8 % 64 == 0 && u8 d 14 == 0 && uN d 15 16 == 0 && u8 d 31 / 2 == 0
/-- Descriptors that a frame of `len` octets takes: their number, and whether they hold it whole. -/
def rxTake : List (List Byte) → Nat → Nat × Bool
  | [], len => (0, len == 0)
  | d :: ds, len => if len ≤ u32 d 8 || !rxDescOk d then (1, true) else
    let r := rxTake ds (len - u32 d 8)
    (r.1 + 1, r.2)
/-- Write a frame into buffers. -/
def rxWrite (sl : Nat) : List (List Byte) → List Byte → State → State
  | [], _, s => s
  | d :: ds, bs, s => rxWrite sl ds (bs.drop (u32 d 8)) (outputDma sl (u64 d 0) (bs.take (u32 d 8)) s)

/-- RX_DELIVERY: a frame of a slice's egress queue with offset `q` goes to its RX ring, or is dropped (R388). -/
def rxDeliver (sl q : Nat) (h : Head) (s : State) : State :=
  let x := sliceOf s sl
  let hash := u32 h.meta_ 24
  let loc := x.rxFirst.getD q 0 + hash * x.rxSpread.getD q 1 / 2 ^ 32
  let k := dataKey sl loc
  let r := dataRing s k
  let noBuffer := count 0x15 sl 0 1
  let descs := r.ready.take 16
  let t := rxTake descs h.frame.length
  if r.kind != 2 || !(r.state == 1 || r.state == 2) then noBuffer s
  else if !t.2 then if descs.length = 16 then count 0x15 sl 11 1 s else noBuffer s
  else if !mayDispatch s k t.1 then noBuffer s
  else
    let used := descs.take t.1
    let d : Done := { tag := u16 (used.headD []) 12, ring := loc, kind := 2, ndesc := t.1 }
    let s := dispatchEntries k t.1 s
    if !used.all rxDescOk then noBuffer (finishEntries k t.1 { d with status := 0x14 } s)
    else
      let s := rxWrite sl used h.frame s
      finishEntries k t.1 { d with len := h.frame.length, hash := hash, result := u64 h.meta_ 16, cls := u8 h.meta_ 5, queue := q }
        (count 0x15 sl 10 h.recLen (count 0x15 sl 9 1 s))

/-! ### Arrivals for slices (R394, R395) -/

/-- Octets on the egress queues of a slice. -/
def sliceDepth (s : State) (sl : Nat) : Nat :=
  (eqGroupsOf s 2 sl).foldl (fun a g => (List.range 8).foldl (fun a i => a + (queueOf s ⟨true, g * 8 + i⟩).depth) a) 0
/-- An arrival of `len` octets for a slice's egress queue: none where it is taken, else the counter of its drop. -/
def sliceDrop (s : State) (sl len : Nat) : Option Nat :=
  match (sliceOf s sl).state with
  | 0 => some 6
  | 3 => some 3
  | 5 => if 4194304 < sliceDepth s sl + len then some 4 else none
  | _ => none

/-! ### Quiesce, force and reset (R393, R395) -/

/-- Jobs of a slice in the engines, by key. -/
def sliceJobs (s : State) (sl : Nat) : List Nat := (s.host.jobs.filter (fun j => j.2.slice == sl)).map (·.1)

/-- Complete a job with a status and counts its engine (R386, R419). -/
def finishJob (j status len result : Nat) (s : State) : State :=
  match mget s.host.jobs j with
  | none => s
  | some x =>
    let e := j / 2 ^ 32
    let k := dataKey x.slice x.loc
    let s := { s with host.jobs := mdel s.host.jobs j }
    let s := if 1 ≤ e && e ≤ 3 then
        let s := count 0x16 (e - 1) 2 len (count 0x16 (e - 1) 1 (u32 x.desc 16) (count 0x16 (e - 1) 0 1 s))
        if status = 0 then s else count 0x16 (e - 1) 3 1 s
      else s
    finishEntries k 1 { tag := u16 x.desc 2, status := status, ring := x.loc, kind := 3, len := len, result := result } s

/-- The fence point: fetching stops, undispatched entries are discarded, the mailbox ring is disabled. -/
def fencePoint (sl : Nat) (freezing : Bool) (cmd : Option Cmd) (timeout : Nat) (s : State) : State :=
  let on := ((sliceRings s sl).filter (fun r => r.2.state == 1)).map (·.1)
  let s := setSliceState sl (if freezing then 4 else 2) s
  let s := modSlice sl (fun x => { x with quiesce := some (cmd, s.time.uptime, timeout, freezing), wasEnabled := on, forced := false,
                                          lost := 0, fencedJobs := 0 }) s
  let s := modRing (0x1000 + sl) (fun r => { r with state := 0, tries := 0, fetched := none }) s
  (sliceRings s sl).foldl (fun s r => settleRing (dataKey sl r.1) (modData (dataKey sl r.1) (fun r => { r with
    entries := [], fetched := r.consumer, tries := [], passing := none, state := if r.state = 1 then 3 else r.state }) s)) s

/-- Every dispatched frame and job of a slice has completed, and so has the command of its mailbox ring, but for the quiesce itself. -/
def drained (s : State) (sl : Nat) : Bool :=
  let own := match (sliceOf s sl).quiesce with | some (some c, _) => c.path == .slice sl | _ => false
  (sliceRings s sl).all (fun r => r.2.outstanding == 0) && (own || !(mbRing s (0x1000 + sl)).executing)

/-- Force: every job ends with FENCED, and a TX frame still being read with it. -/
def forceSlice (sl : Nat) (s : State) : State :=
  let jobs := sliceJobs s sl
  let s := modSlice sl (fun x => { x with forced := true, fencedJobs := x.fencedJobs + jobs.length }) s
  let s := jobs.foldl (fun s j => finishJob j 0x70 0 0 s) s
  (sliceRings s sl).foldl (fun s r => r.2.inFlight.foldl (fun s _ => txEnd (dataKey sl r.1) 0x70 s) s) s
/-- Result of SLICE_QUIESCE and SLICE_FREEZE. -/
def quiesceResult (s : State) (sl : Nat) : List Byte :=
  let x := sliceOf s sl
  leBytes 1 (b2n x.forced) ++ zeros 1 ++ leBytes 2 x.lost ++ leBytes 4 x.fencedJobs

/-- SLICE_IDLE sets: the slice enters IDLE or FROZEN. -/
def enterIdle (sl : Nat) (s : State) : State :=
  match (sliceOf s sl).quiesce with
  | none => s
  | some (_, _, _, freezing) => modSlice sl (fun x => { x with quiesce := none }) (setSliceState sl (if freezing then 5 else 3) s)

/-- The quiesce ends: the slice is idle and the command completes. -/
def endQuiesce (sl : Nat) (s : State) : State :=
  match (sliceOf s sl).quiesce with
  | none => s
  | some (cmd, _, _, freezing) =>
    let s := enterIdle sl s
    match cmd with
    | some c => completeLong c (if freezing then 0x0F06 else 0x0F03) sl (quiesceResult s sl) s
    | none => s

/-- The quiesce of a slice that has drained ends. -/
def settleQuiesce (sl : Nat) (s : State) : State := if drained s sl then endQuiesce sl s else s

/-- QUIESCE_DRAIN_END. -/
def execQuiesceDrainEnd (sl : Nat) (s : State) : Host.Outcome State Fault Refusal :=
  answer s (if running s && (sliceOf s sl).quiesce.isSome && drained s sl then endQuiesce sl s else s)

/-- QUIESCE_TIMEOUT: what has not drained is forced (R393); a mailbox command still in progress is waited for. -/
def execQuiesceTimeout (sl : Nat) (s : State) : Host.Outcome State Fault Refusal :=
  answer s (match (sliceOf s sl).quiesce with
    | some (_, at_, us, _) =>
      if running s && at_ + us * 1000 ≤ s.time.uptime then settleQuiesce sl (if drained s sl then s else forceSlice sl s) else s
    | none => s)

/-- Delete the rings and sessions of a slice, flush its queues, abort its transaction (R395). A RING_DISABLE that still waits completes with its ring (R375). -/
def clearSlice (sl : Nat) (s : State) : State :=
  let waits := (sliceRings s sl).filterMap (fun r => r.2.disabling.map (fun c => (dataKey sl r.1, c)))
  let s := waits.foldl (fun s w => completeLong w.2 0x1004 w.1 [] s) s
  let s := { s with host.rings := s.host.rings.filter (fun r => r.1 / 128 != sl),
                    host.sessions := s.host.sessions.filter (fun x => x.1 / 1024 != sl) }
  let s := (eqGroupsOf s 2 sl).foldl (fun s g => flushGroup true g (fun _ => (0x15, sl, 5)) s) s
  ((abortable s).filter (fun t => (mgetD s.mgt.txns t {}).origin == 0x2000 + sl)).foldl (fun s t => fwAbortOne t s) s

/-- SLICE_RESET: cleared, default rights, mailbox ring at indices 0, ACTIVE. -/
def resetSlice (sl : Nat) (s : State) : State :=
  let s := clearSlice sl s
  let s := modSlice sl (fun x => { x with mask := sliceDefaultMask, wasEnabled := [] }) s
  setSliceState sl 1 (modRing (0x1000 + sl) (fun r => { r with
    state := 1, producer := 0, consumer := 0, waits := [], haltCause := 0, tries := 0, fetched := none
    executing := r.executing && r.done.isNone, done := none }) s)

/-- SLICE_REMOVE: cleared and ABSENT; its PASID is free. -/
def removeSlice (sl : Nat) (s : State) : State :=
  let s := setSliceState sl 0 (clearSlice sl s)
  { s with host.slices := mdel s.host.slices sl, mgt.rings := mdel s.mgt.rings (0x1000 + sl) }

/-- A forced quiesce and SLICE_RESET (R368). -/
def forceReset (sl : Nat) (s : State) : State :=
  let x := sliceOf s sl
  let s := if x.state = 1 then endQuiesce sl (forceSlice sl (fencePoint sl false none 0 s))
    else if x.state = 2 || x.state = 4 then endQuiesce sl (forceSlice sl s) else s
  resetSlice sl s

/-! ### Status words -/

/-- HOST_RING_STATUS. -/
def ringStatusWord (r : Ring) : Nat :=
  r.state + b2n r.idle * 4 + b2n r.stalled * 8 + b2n r.armed * 16 + r.haltCause * 2 ^ 5 + r.backlog.length * 2 ^ 8 + r.badDoorbell * 2 ^ 16
/-- HOST_RING_INDEX: FETCHED is a submission ring's. -/
def ringIndexWord (r : Ring) : Nat := r.consumer + r.producer * 2 ^ 16 + (if r.kind = 4 then 0 else r.nextFetch) * 2 ^ 32
/-- HOST_SLICE_STATUS. -/
def sliceStatusWord (s : State) (sl : Nat) : Nat :=
  let x := sliceOf s sl
  x.state + b2n (x.state == 3 || x.state == 5) * 8 + b2n x.forced * 16 + x.link * 2 ^ 5 + x.pasid * 2 ^ 12 +
  (sliceRings s sl).length * 2 ^ 32 + x.fenceDiscard * 2 ^ 48

end Sys2Proof.Machine
end

