-- ==== Sys2Proof/Machine/Cores.lean ====
section
/-! DEFINITION. The reset of Tahr cores, with its drain and reclaim, and the stall of a cluster (R338, R353-R356, R363 12_packet_cores). -/

namespace Sys2Proof.Machine

/-- Cores that a RESOURCE of kind 0x09 or 0x11 names. -/
def coresNamed (r : Nat) : List Nat :=
  if resKind r = 0x11 then (List.range 32).map (· + resIndex r * 32) else [resIndex r]
/-- Threads of a core. -/
def coreThreads (c : Nat) : List Nat := (List.range 8).map (· + c * 8)

/-- Everything the threads of a core hold is given back: reservations voided, taken slots FREE. -/
def dropHoldings (c : Nat) (s : State) : State :=
  (coreThreads c).foldl (fun s t => modThread t (fun x => { x with resv := none }) (returnTaken t (voidReservation t s))) s

/-- Base of cluster memory (R22). -/
def clusterBase (cl : Nat) : Nat := 0x20000000 + cl * 0x1000000
/-- Line `n` of 64 bytes of a cluster's memory. -/
def clusterLine (s : State) (cl n : Nat) : List Byte := Memory.reads s.mem (clusterBase cl + 64 * n) 64
/-- A line lies in the locked range of a core (R335). -/
def lockedLine (x : Core) (n : Nat) : Bool := decide (x.lockOff ≤ 64 * n) && decide (64 * n < x.lockOff + x.lockLen)
/-- The locked range of a core, loaded before its threads start (R335). -/
def lockedLines (s : State) (c : Nat) : NMap (List Byte) :=
  let x := coreOf s c
  (List.range (x.lockLen / 64)).map (fun i => (x.lockOff / 64 + i, clusterLine s (c / 32) (x.lockOff / 64 + i)))

/-- Reset one core and restart its threads at their entries (R338, R354 steps 3 and 5); without an image they stay faulted (R456). -/
def resetCore (cause c : Nat) (s : State) : State :=
  let s := dropHoldings c s
  let x := coreOf s c
  let s := modCore c (fun x => { x with
    resets := (x.resets + 1) % 2 ^ 32, cause := cause, pmc := [], retired := 0, wasted := 0, feStarved := 0, beStarved := 0,
    idle := 0, issued := [], icache := lockedLines s c, resetAt := s.time.uptime, resetSince := true }) s
  (List.range 8).foldl (fun s i => modThread (c * 8 + i) (fun _ =>
    let m := x.modes.getD i 0
    { pc := x.entries.getD i 0, metered := m % 2 == 1, priority := m / 2 % 4, faulted := !x.released }) s) s

/-- The threads that hold a reservation in a channel of the cluster. -/
def reservers (cl : Nat) (s : State) : List Nat :=
  (s.tahr.threads.filter (fun t => match t.2.resv with | some (k, _, _) => k / 1024 == cl | none => false)).map (·.1)

/-- Reclaim of a cluster (R354 step 4): every slot FREE, a reservation that another cluster's thread holds in one void (log entry 96), every packet it owns released and counted as STALL_RECLAIM. -/
def reclaim (cl : Nat) (s : State) : State :=
  let s := (reservers cl s).foldl (fun s t => voidReservation t s) s
  let s := { s with tahr.channels := mmap s.tahr.channels (fun k c => if k / 1024 = cl then { c with slots := [], order := [] } else c) }
  let mine := (s.buf.heads.filter (fun h => h.2.owner == 0x10 + cl)).map (·.1)
  mine.foldl (fun s h => count 0x13 cl 0 1 (freePkt h s)) s

/-- A thread waits in WFE with no pending event of its mask. -/
def inWfe (x : Thread) : Bool := match x.waiting with | some (m, _) => x.evpend &&& m == 0 | none => false

/-- Run steps 3 to 5 of R354 and complete the command. Cores that an activation is to load stay in reset until it has (R463). -/
def finishCoreReset (r : CoreReset) (s : State) : State :=
  let s := { s with tahr.resets := s.tahr.resets.filter (fun x => x.resource != r.resource) }
  let s := r.cores.foldl (fun s c => dropHoldings c s) s
  let s := if r.reclaim then reclaim (resIndex r.resource) s else s
  let s := if r.cmd.isNone && (clusterOf s (resIndex r.resource)).loading.isSome then r.cores.foldl (fun s c => modCore c (fun x => { x with released := false }) s) s
    else r.cores.foldl (fun s c => resetCore r.cause c s) s
  match r.cmd with
  | some c => completeLong c 0x0E04 0 [] s
  | none => s

/-- The core resets whose threads all wait in WFE proceed (R354 step 2). -/
def settleResets (s : State) : State :=
  (s.tahr.resets.filter (fun r => r.cores.all (fun c => (coreThreads c).all (fun t => inWfe (threadOf s t))))).foldl
    (fun s r => finishCoreReset r s) s

/-- Start a core reset: MGMT on every thread, then the grace. -/
def startCoreReset (r : CoreReset) (s : State) : State :=
  let s := (r.cores.flatMap coreThreads).foldl (fun s t => raiseEvent t evMgmt s) s
  if r.graceUntil ≤ s.time.uptime then finishCoreReset r s else settleResets { s with tahr.resets := s.tahr.resets ++ [r] }

/-- TAHR_CORE_RESET (0x0E04). A second reset of a core whose reset still waits is executed after it (R43). -/
def tahrCoreResetSpec : CmdSpec :=
  { opcode := 0x0E04, kind := .o, layout := plain 8 [rsv 5 3]
    fields := fun c _ => firstFail [
      (resKind c.resource == 0x09 || resKind c.resource == 0x11, failWith St.badResource),
      (decide (c.at 0 4 ≤ 1000000), badField 0), (decide (c.at 4 1 ≤ 1) && (c.at 4 1 == 0 || resKind c.resource == 0x11), badField 4)]
    run := fun c s =>
      let cores := coresNamed c.resource
      if cores.any (coreFenced s) && resKind c.resource == 0x09 || isFenced s c.resource then .error (failWith St.fenced)
      else .ok { s := startCoreReset { cmd := some c, resource := c.resource, cores := cores.filter (fun x => !coreFenced s x),
                                       graceUntil := s.time.uptime + c.at 0 4 * 1000, reclaim := c.at 4 1 == 1, cause := 1 } s,
                 log := .later }
    objects := fun c _ => (coresNamed c.resource).map coreObj }

/-- GRACE_EXPIRY: GRACE_US has passed. -/
def execGraceExpiry (resource : Nat) (s : State) : Host.Outcome State Fault Refusal :=
  answer s (match s.tahr.resets.find? (fun r => r.resource == resource) with
    | some r => if mailboxReady s && r.graceUntil ≤ s.time.uptime then finishCoreReset r s else s
    | none => s)

/-- A thread is unarmed (R355). -/
def unarmed (s : State) (t : Nat) : Bool :=
  let x := threadOf s t
  x.faulted || (match x.waiting with
    | some (m, _) => !(bit m evTimer && x.tcmp != 0) &&
        !(bit m evChan && s.tahr.channels.any (fun c => c.1 / 1024 == threadCluster t && c.2.enable && c.2.notify == t % 256 &&
            (bit c.2.producers 0 || bit c.2.producers 2)))
    | none => false)

/-- Cores of a cluster that are not fenced (R355). -/
def liveCores (s : State) (cl : Nat) : List Nat :=
  ((List.range 32).map (· + cl * 32)).filter (fun c => !coreFenced s c)
/-- Every thread of every unfenced core of a cluster is unarmed, and no thread of the cluster is halted (R355). -/
def quietNow (s : State) (cl : Nat) : Bool :=
  let ts := (liveCores s cl).flatMap coreThreads
  !ts.isEmpty && ts.all (unarmed s) && !(s.tahr.threads.any (fun x => threadCluster x.1 == cl && x.2.halted))
/-- A cluster stalls: that has held for 65,536 consecutive CK_TAHR cycles (R355). -/
def stalls (s : State) (cl : Nat) : Bool := quietNow s cl && decide (65536 ≤ (clusterOf s cl).quiet)

/-- STALL_RECOVERY (R356). -/
def execStallRecovery (cl : Nat) (s : State) : Host.Outcome State Fault Refusal :=
  answer s (if mailboxReady s && !s.faults.safe && (clusterOf s cl).stalled then
    let s := modCluster cl (fun x => { x with stalled := false }) s
    let r := resId 0x11 cl
    finishCoreReset { cmd := none, resource := r, cores := liveCores s cl, graceUntil := 0, reclaim := true, cause := 2 }
      (journalFw 0x0E04 0 r s).2
  else s)

end Sys2Proof.Machine
end

