-- ==== Sys2Proof/Machine/Image.lean ====
section
/-! DEFINITION. Artefacts and the packet-core image: the layout of an artefact (R450), of the image's core entries and load records (R338 12_packet_cores, R452 17_firmware_and_trust), and the loading of a cluster (R454, R463). -/

namespace Sys2Proof.Machine

/-! ### Artefacts (R450) -/

/-- Blocks of 4 KiB that a header's body takes. -/
def bodyBlocks (a : List Byte) : Nat := ceilDiv (u32 a 16) 4096
/-- Length of an artefact by its header. -/
def artefactLen (a : List Byte) : Nat := 4096 + 4096 * bodyBlocks a + 29792
/-- The unpadded body. -/
def artefactBody (a : List Byte) : List Byte := slice a 4096 (u32 a 16)
/-- The signature. -/
def artefactSignature (a : List Byte) : List Byte := slice a (4096 + 4096 * bodyBlocks a) 29792
/-- Header bytes 0 to 255. -/
def artefactHeader (a : List Byte) : List Byte := slice a 0 256
/-- SECURITY_VERSION. -/
def headerSv (h : List Byte) : Nat := u16 h 6
/-- BODY_DIGEST. -/
def headerDigest (h : List Byte) : List Byte := slice h 24 32
/-- SIGNER_KEY. -/
def headerKey (h : List Byte) : List Byte := slice h 152 64
/-- REQUIRES_FW, REQUIRES_CORE, REQUIRES_PROGRAM by kind 1 to 3. -/
def headerRequires (h : List Byte) (kind : Nat) : List Byte := slice h (24 + 32 * kind) 32

/-! ### The packet-core image (R338, R452) -/

/-- One core entry of 96 bytes. -/
def coreEntry (body : List Byte) (c : Nat) : List Byte := slice body (c * 96) 96

/-- Checks of a core entry: entries in cluster memory, reserved bits zero, the lock range aligned and inside cluster memory. -/
def coreEntryOk (e : List Byte) : Bool :=
  (List.range 8).all (fun t => decide (0x10000000 ≤ u64 e (8 * t)) && decide (u64 e (8 * t) < 0x11000000) &&
    u8 e (64 + t) / 8 == 0) &&
  u32 e 72 % 64 == 0 && u32 e 76 % 64 == 0 && decide (u32 e 76 ≤ 32768) && decide (u32 e 72 + u32 e 76 ≤ 2 ^ 24) &&
  uN e 80 16 == 0

/-- A load record: clusters, offset, bytes. -/
structure LoadRec where
  clusters : Nat
  offset : Nat
  bytes : List Byte
deriving DecidableEq, Repr

/-- The load records that follow the core entries; none where one is malformed. Each takes at least 16 bytes. -/
def loadRecords : Nat → List Byte → Option (List LoadRec)
  | _, [] => some []
  | 0, _ :: _ => none
  | n + 1, bs =>
    let len := u32 bs 8
    let padded := ceilDiv len 8 * 8
    if bs.length < 16 + padded || 4 ≤ u8 bs 0 || uN bs 1 3 != 0 || uN bs 12 4 != 0 || 2 ^ 24 < u32 bs 4 + len then none
    else (loadRecords n (bs.drop (16 + padded))).map (fun rs => ⟨u8 bs 0, u32 bs 4, slice bs 16 len⟩ :: rs)

/-- Load records of an image's body. -/
def imageRecords (body : List Byte) : Option (List LoadRec) :=
  let rest := body.drop (64 * 96)
  loadRecords (rest.length / 16 + 1) rest

/-- The checks of KIND 2. -/
def coreImageOk (body : List Byte) : Bool :=
  decide (64 * 96 ≤ body.length) && (List.range 64).all (fun c => coreEntryOk (coreEntry body c)) && (imageRecords body).isSome

/-! ### The boot flash (R447, R451) -/

/-- The layout of the boot flash: offset and size of the two directory copies, the boot counter, the identity area, and the slots of each kind. -/
def flashLayout : List (Nat × Nat) :=
  [(0x00000000, 0x10000), (0x00010000, 0x10000), (0x00020000, 0x40000), (0x00060000, 0x20000),
   (0x00080000, 0x200000), (0x00280000, 0x200000), (0x00480000, 0x1000000), (0x01480000, 0x1000000),
   (0x02480000, 0x2000000), (0x04480000, 0x2000000)]
/-- Records that a sector of the boot counter holds: the area is two sectors, a record 16 bytes (R447, R449). -/
def counterRecords : Nat := (flashLayout.getD 2 (0, 0)).2 / 2 / 16
/-- Blocks of a slot's check area. -/
def checkBlocks (kind : Nat) : Nat := match kind with | 1 => 1 | 2 => 4 | _ => 8
/-- Bytes of a slot before its check area; for a key record, of its place in Stag SRAM (R458). -/
def slotRoom (kind : Nat) : Nat := if kind = 4 then 40960 else (flashLayout.getD (2 + 2 * kind) (0, 0)).2 - 4096 * checkBlocks kind

/-- Block i of a slot; what is not written is erased. -/
def flashBlock (d : List Byte) (i : Nat) : List Byte :=
  let x := slice d (4096 * i) (min 4096 (d.length - 4096 * i))
  x ++ List.replicate (4096 - x.length) 0xFF
/-- Write bytes at a block boundary of a slot: the blocks that are reached are erased first, and their entries of the check area written (R451, R458). -/
def BootSlot.write (off : Nat) (bytes : List Byte) (x : BootSlot) : BootSlot :=
  let n := ceilDiv bytes.length 4096
  let new := bytes ++ List.replicate (4096 * n - bytes.length) 0xFF
  { state := 1, data := x.data.take off ++ new ++ x.data.drop (off + 4096 * n), point := off + bytes.length,
    check := (if off = 0 then [] else x.check) ++ (List.range n).map (fun i => crc32c 0 (flashBlock new i)) }
/-- The artefact of a slot, by its header. -/
def BootSlot.artefact (x : BootSlot) : List Byte := x.data.take (artefactLen x.data)
/-- Every block of the artefact reads as its entry of the check area says (R451). -/
def BootSlot.readable (x : BootSlot) : Bool :=
  (List.range (ceilDiv (artefactLen x.data) 4096)).all (fun i => crc32c 0 (flashBlock x.data i) == x.check.getD i 0)

/-! ### Fused keys (R470) -/

/-- Word 22: VENDOR_REVOKE, OWNER_PRESENT, OWNER_REVOKE. -/
def keyWord (s : State) : Nat := otpWord s 22
/-- The digest fused at an index for a signer: 0 vendor, 1 owner. -/
def fusedDigest (s : State) (signer i : Nat) : List Byte := otpBytes s (if signer = 0 then 6 + 4 * i else 23 + 4 * i) 4
/-- A key is fused and not revoked. -/
def keyLive (s : State) (signer i : Nat) : Bool :=
  if signer = 0 then !bit (keyWord s) i else bit (keyWord s) (8 + i) && !bit (keyWord s) (16 + i)
/-- No owner key is fused (OWNER_UNFUSED). -/
def ownerUnfused (s : State) : Bool := bitsOf (keyWord s) 11 8 == 0
/-- SIGNER_KEY is the unrevoked key fused at KEY_INDEX for SIGNER. -/
def keyMatches (s : State) (h : List Byte) : Bool :=
  keyLive s (u8 h 20) (u8 h 21) && sha256 (headerKey h) == fusedDigest s (u8 h 20) (u8 h 21)

/-! ### Verification (R452) -/

/-- The pipeline program's MAGIC, FORMAT and PROGRAM_HASH (R222, R223 07_stage_programs). -/
def programOk (body : List Byte) : Bool :=
  u32 body 0 == 0x50484E50 && u16 body 4 == 1 && slice body 16 32 == sha256 (body.drop 64)

/-- The form of a key record (R461). -/
def keyRecordOk (body : List Byte) : Bool :=
  body.length == 64 && decide (1 ≤ u8 body 0) && decide (u8 body 0 ≤ 3) && decide (u8 body 1 ≤ 3) && uN body 2 30 == 0 &&
  (u8 body 0 == 1 || uN body 32 32 == 0)

/-- The key rule of R452 for kinds 1 to 3 and of R461 for a key record. -/
def keyOk (s : State) (kind : Nat) (h body : List Byte) : Bool :=
  let owner := u8 h 20 == 1
  match kind with
  | 1 => keyMatches s h
  | 4 =>
    if u8 body 0 = 3 then !owner && keyMatches s h && u8 h 21 != u8 body 1
    else if u8 body 0 = 1 && ownerUnfused s then owner && sha256 (headerKey h) == slice body 32 32
    else owner && keyMatches s h
  | _ => ownerUnfused s || keyMatches s h

/-- Header checks: MAGIC, KIND, FORMAT, ranges, SIGNER of the kind, reserved fields (R450, R452). -/
def headerOk (kind : Nat) (a : List Byte) : Bool :=
  u32 a 0 == 0x54465241 && u8 a 4 == kind && u8 a 5 == 1 && decide (headerSv a ≤ 64) && decide (1 ≤ u32 a 16) &&
  decide (u8 a 20 ≤ 1) && (kind == 4 || u8 a 20 == (if kind == 1 then 0 else 1)) && decide (u8 a 21 ≤ 3) &&
  u16 a 22 == 0 && uN a 216 40 == 0 && uN a 256 3840 == 0

/-- The body checks of a kind. -/
def bodyOk (kind : Nat) (body : List Byte) : Bool :=
  match kind with
  | 1 => decide (body.length ≤ 1048576)
  | 2 => coreImageOk body
  | 3 => programOk body
  | _ => keyRecordOk body

/-- FAIL or VERDICT of an artefact as a kind: 0 verified, else the first check of R452 that fails, in the order of the codes (DEDUCED, log entry 36). -/
def verdict (s : State) (kind : Nat) (a : List Byte) : Nat :=
  let h := artefactHeader a
  let body := artefactBody a
  if a.length < 256 || a.length != artefactLen a then 1
  else if !headerOk kind a then 2
  else if !keyOk s kind h body then 3
  else if !Config.slhVerify (headerKey h) (h ++ headerKey h) (artefactSignature a) then 4
  else if decide (kind ≤ 3) && decide (headerSv h < fusedSv s kind) then 5
  else if sha256 body != headerDigest h || !bodyOk kind body then 6
  else 0

/-! ### REQUIRES (R456, R462) -/

/-- Every REQUIRES field of a header that is not zero equals the digest of that kind. -/
def requiresOk (h : List Byte) (digest : Nat → List Byte) : Bool :=
  [1, 2, 3].all (fun k => leNat (headerRequires h k) == 0 || headerRequires h k == digest k)
/-- BODY_DIGEST of what runs of a kind; none where nothing runs. -/
def runningDigest (s : State) (kind : Nat) : List Byte :=
  match mget s.boot.running kind with | some h => headerDigest h | none => []

/-- The slot of a kind that is not active. -/
def otherSlot (s : State) (kind : Nat) : Nat := 1 - mgetD s.boot.active kind 0
/-- A slot. -/
def slotOf (s : State) (kind i : Nat) : BootSlot := mgetD s.boot.slots (2 * kind + i) {}

/-! ### Selecting artefacts (R451, R455, R456) -/

/-- The slots of a kind in the order in which they are tried. -/
def slotOrder (s : State) (kind : Nat) : List Nat :=
  let a := mgetD s.boot.active kind 0
  if a = 0 then [0, 1] else if a = 1 then [1, 0] else []
/-- What a slot's artefact fails by, as VERDICT has it: one that reaches the check area by its length, one that is unreadable by its body (DESIGN CHOICE, log entry 36: no code is stated). -/
def slotVerdict (s : State) (kind i : Nat) : Nat :=
  let x := slotOf s kind i
  if slotRoom kind < artefactLen x.data then 1 else if !x.readable then 6 else verdict s kind x.artefact
/-- The slot is readable and its artefact verified; `bad` names the slots, by kind × 2 + slot, whose blocks cannot be read. -/
def slotPasses (bad : List Nat) (s : State) (kind i : Nat) : Bool := !bad.contains (2 * kind + i) && slotVerdict s kind i == 0
/-- The first slot of a kind that passes and meets a further condition. -/
def pickSlot (bad : List Nat) (s : State) (kind : Nat) (p : List Byte → Bool) : Option (List Byte) :=
  ((slotOrder s kind).find? (fun i => slotPasses bad s kind i && p (slotOf s kind i).artefact)).map (fun i => (slotOf s kind i).artefact)

/-- The artefact's REQUIRES and those of the running firmware hold for the digests given (R456). -/
def mayLoad (s : State) (digest : Nat → List Byte) (art : List Byte) : Bool :=
  requiresOk (artefactHeader art) digest && requiresOk (mgetD s.boot.running 1 []) digest
/-- Digest of an artefact that may be absent. -/
def digestOf (a : Option (List Byte)) : List Byte := match a with | some a => headerDigest (artefactHeader a) | none => []

/-- The packet-core image to load beside a program of the digest given. -/
def pickImage (bad : List Nat) (program : List Byte) (s : State) : Option (List Byte) :=
  pickSlot bad s 2 (fun a => mayLoad s (fun k => match k with
    | 1 => runningDigest s 1 | 2 => headerDigest (artefactHeader a) | _ => program) a)
/-- The pipeline program to load. -/
def pickProgram (bad : List Nat) (s : State) : Option (List Byte) :=
  pickSlot bad s 3 (fun a => mayLoad s (fun k => match k with
    | 1 => runningDigest s 1 | 2 => runningDigest s 2 | _ => headerDigest (artefactHeader a)) a)

/-! ### Loading a cluster -/

/-- Write the image's load records of a cluster into its zeroed memory and scratch. -/
def loadMemory (cl : Nat) (body : List Byte) (m : List Host.Cell) : List Host.Cell :=
  let m := Memory.clear (Memory.clear m (clusterBase cl) (clusterBase cl + 2 ^ 24)) (0x30000000 + cl * 0x200000) (0x30000000 + (cl + 1) * 0x200000)
  ((imageRecords body).getD []).foldl (fun m r => if bit r.clusters cl then Memory.writes m (clusterBase cl + r.offset) r.bytes else m) m

/-- Take one core's entry of the image. -/
def setEntry (body : List Byte) (c : Nat) (s : State) : State :=
  let e := coreEntry body c
  modCore c (fun x => { x with
    entries := numbers 8 8 e, modes := numbers 1 8 (e.drop 64), lockOff := u32 e 72, lockLen := u32 e 76, released := true }) s

/-- Load an image into a cluster and restart its threads (R338, R454, R463 step 3): RESET_CAUSE 0. At a boot the cores come out of reset with RESETS 0. -/
def loadCluster (boot : Bool) (cl : Nat) (art : List Byte) (s : State) : State :=
  let body := artefactBody art
  let cores := (List.range 32).map (· + 32 * cl)
  let s := if boot then s else reclaim cl (cores.foldl (fun s c => dropHoldings c s) s)
  let s := { s with mem := loadMemory cl body s.mem,
                    boot.running := mset s.boot.running (2 + 2 * cl) (artefactHeader art) }
  let s := cores.foldl (fun s c => setEntry body c s) s
  let s := (cores.filter (fun c => !coreFenced s c)).foldl (fun s c => resetCore 0 c s) s
  if boot then cores.foldl (fun s c => modCore c (fun x => { x with resets := 0, resetSince := false }) s) s else s

/-- No image runs in a cluster: every thread is held faulted, without a report (R456). -/
def holdCluster (cl : Nat) (s : State) : State :=
  (List.range 256).foldl (fun s i => modThread (cl * 256 + i) (fun x => { x with faulted := true }) s) s

/-- The image that passes is loaded into a cluster; without one its threads are held faulted and LOAD_FAILED sets (R456, R463). -/
def loadPicked (boot : Bool) (cl : Nat) (image : Option (List Byte)) (s : State) : State :=
  match image with
  | some a => loadCluster boot cl a s
  | none => holdCluster cl { s with boot.loadFailed := withBit s.boot.loadFailed 1 true }

/-- A cluster that an activation skipped while it was fenced is loaded when its fence clears (R463). -/
def loadDue (cl : Nat) (s : State) : State :=
  if (clusterOf s cl).imageDue && !isFenced s (resId 0x11 cl) then
    loadPicked false cl (pickImage [] (runningDigest s 3) s) (modCluster cl (fun x => { x with imageDue := false }) s)
  else s

end Sys2Proof.Machine
end

