-- ==== Sys2Proof/Machine/Collector.lean ====
section
/-! DEFINITION. The fault collector: reports, windows, fences, escalation, the safe state, fault records and clearing (R432-R445 16_fault_handling, R87, R234, R245, R246, R363, R390, R430). -/

namespace Sys2Proof.Machine

/-! ### The catalogue (R435) -/

/-- Class of a single event: 0 corrected, 1 contained, 2 fatal; none for an unused code. -/
def sourceClass (src : Nat) : Option Nat :=
  if [1, 3, 4, 6, 8, 10, 12, 13, 15, 16, 19, 21, 22, 27, 29].contains src then some 0
  else if [2, 5, 11, 14, 17, 18, 20, 23].contains src then some 1
  else if [7, 9, 24, 25, 26, 28, 30, 31].contains src then some 2 else none

/-- Default threshold and window in ms; none for a source without a window. -/
def sourceWindow (src : Nat) : Option (Nat × Nat) :=
  match src with
  | 1 => some (8, 1000) | 3 => some (8, 10000) | 4 => some (16, 1000) | 6 => some (64, 1000) | 8 => some (256, 1000)
  | 10 => some (16, 1000) | 12 => some (16, 1000) | 13 => some (16, 1000) | 15 => some (4, 1000) | 16 => some (4, 10000)
  | 19 => some (1024, 1000) | 21 => some (4, 1000) | 22 => some (10, 100) | 27 => some (64, 1000) | 29 => some (8, 60000)
  | _ => none

/-- Threshold and window in force (R438). -/
def windowOf (s : State) (src : Nat) : Option (Nat × Nat) :=
  match sourceWindow src with | none => none | some d => some (mgetD s.faults.cfg src d)

/-- Kind of resource that a source reports. -/
def sourceKind (src : Nat) : Nat :=
  match src with
  | 1 => 0x01 | 2 => 0x08 | 3 => 0x01 | 4 => 0x0C | 5 => 0x0C | 8 => 0x14 | 9 => 0x14 | 10 => 0x0E | 11 => 0x0E | 13 => 0x12
  | 14 => 0x12 | 15 => 0x09 | 16 => 0x11 | 17 => 0x11 | 19 => 0x0D | 20 => 0x0D | 21 => 0x0D | 22 => 0x13 | _ => 0x18

/-- Fence targets of a power domain (R436, R475). -/
def domainTargets (d : Nat) : List Nat :=
  if 3 ≤ d && d ≤ 8 then
    let k := d - 3
    (List.range 4).map (fun i => resId 0x08 (4 * k + i)) ++
      [resId 0x0C (2 * k), resId 0x0C (2 * k + 1), resId 0x0C (16 + 2 * k), resId 0x0C (17 + 2 * k)]
  else match d with
    | 10 => [resId 0x11 0] | 11 => [resId 0x11 1] | 12 => [resId 0x13 0, resId 0x13 1] | 13 => [resId 0x14 0]
    | 16 => (List.range 4).map (fun i => resId 0x13 (2 + i))
    | 17 => (List.range 19).map (fun i => resId 0x08 (24 + i)) | 18 => (List.range 19).map (fun i => resId 0x08 (43 + i))
    | 19 => [resId 0x08 62, resId 0x08 63]
    | _ => []

/-- Power domain of a unit. -/
def domainOfUnit (r : Nat) : Option Nat :=
  let i := resIndex r
  let octet := fun (o : Nat) => if o < 24 then some (3 + o / 4) else some (octetDomain o)
  match resKind r with
  | 0x01 => octet (i / 8) | 0x08 => octet i | 0x09 => some (10 + i / 32) | 0x0C => some (3 + i % 16 / 2)
  | 0x0D => some (if i < 64 then 12 else 16) | 0x11 => some (10 + i) | 0x13 => some (if i < 2 then 12 else 16) | 0x14 => some 13
  | _ => none

/-! ### Effects of a fence (R439) -/

/-- Ports that use a lane of an octet. -/
def portsOnLane (s : State) (o l : Nat) : List Nat :=
  (s.ports.filter (fun p => p.1 / 8 == o && ((p.2.phys.map lanesOf).getD []).contains l)).map (·.1)

/-- A lane is fenced: powered down. -/
def fenceLane (i : Nat) (s : State) : State :=
  if i < 192 then (portsOnLane s (i / 8) (i % 8)).foldl (fun s p => portFails p .fenced s) s else laneFails i 5 s

/-- A pipeline is fenced: its ports fail, frames in staging are discarded, packets in it are lost with their buffers (DESIGN CHOICE, log entry 29). -/
def fencePipe (i : Nat) (s : State) : State :=
  let k := i % 16
  let s := ((s.ports.filter (fun p => p.1 / 16 == k)).map (·.1)).foldl (fun s p => portFails p .fenced s) s
  let s := ((s.staging.filter (fun q => q.1 / 16 == k)).map (fun q => (q.1, q.2.length))).foldl
    (fun s q => { count 0x01 q.1 6 q.2 s with staging := mdel s.staging q.1 }) s
  let s := if i < 16 then { s with host.inject := mdel (mdel s.host.inject (injectKey k 192)) (injectKey k 193) } else s
  let gone := (s.pkts.filter (fun p => p.2.pipe == k && p.2.egress == decide (16 ≤ i) && (p.2.egress || !p.2.ready))).map (·.1)
  gone.foldl (fun s n => if 16 ≤ i then dropEgress n s else { s with pkts := mdel s.pkts n }) s

/-- A scheduler sector is fenced: its VOQs are flushed as DEST_DOWN and their balances returned. -/
def fenceSector (i : Nat) (s : State) : State :=
  ((s.sched.voqs.filter (fun q => q.1 / 131072 == i)).map (·.1)).foldl (fun s v =>
    returnCredit v (flushQueue ⟨false, v⟩ 0x0C v 6 s)) s

/-- The die bridge is fenced: the messages of DC0 and DC1 are lost and those in flight counted (R16). -/
def fenceBridge (s : State) : State :=
  let lost := fun (d : Nat) (l : List BridgeMsg) (m : NMap Nat) => mput m d (mgetD m d 0 + min l.length (bridgeLimit d))
  { s with pkts := s.pkts.filter (fun p => !(s.dc0 ++ s.dc1).contains (.packet p.1)), dc0 := [], dc1 := [],
           faults.bridgeLost := lost 1 s.dc1 (lost 0 s.dc0 s.faults.bridgeLost) }

/-- The journal region has become unreadable: the journal goes on in Stag SRAM with a marker of cause 4 (R87). -/
def journalLost (s : State) : State :=
  let j := s.journal
  let needed := s.pair.role == 4 && (s.pair.peerRole == 2 || s.pair.peerRole == 3) && decide (s.pair.peerApplied + 1 < j.head)
  let s := { s with journal := { j with sram := true, recs := [], release := j.head, payloads := [], payloadNext := 0, sigPending := [] } }
  let s := if needed then { s with pair.syncPoint := none } else s
  journalLevels (journalMarker 4 0 s)

/-- HBM memory of a stack is lost (R430): every 1 MiB region and the 256 MiB journal region meet every pseudo-channel of their stack (R420). -/
def loseStack (n : Nat) (s : State) : State :=
  if 2 ≤ n then s
  else
    let s := { s with tables := mmap s.tables (fun _ t =>
      if t.regions.any (fun r => r / 24576 == n) then { t with lost := true } else t) }
    if !s.journal.sram && stackOf s.journal.base == some n then journalLost s else s

/-- A pseudo-channel of H2 to H5 is fenced: queues with a block there lose their spilled part (R246). -/
def losePc (p : Nat) (s : State) : State :=
  if p < 64 then loseStack (p / 32) s
  else
    let hit := fun (b : Nat) => decide (blockPc b = p - 64)
    let qs := ((s.buf.blocks.filter (fun b => hit b.1 && !b.2.orphan)).map (fun b => b.2.queue)).eraseDups
    let s := qs.foldl (fun s q => loseSpill q s) s
    releaseBlocks ((s.buf.blocks.filter (fun b => hit b.1)).map (·.1)) s

/-- A core is fenced (R363). -/
def fenceCore (c : Nat) (s : State) : State := dropHoldings c s

/-- An accelerator engine is fenced: every dispatched job completes with FENCED (R390). -/
def fenceEngine (e : Nat) (s : State) : State :=
  ((s.host.jobs.filter (fun j => j.1 / 2 ^ 32 == e)).map (·.1)).foldl (fun s j => finishJob j 0x70 0 0 s) s

/-- What a fence of a unit does. -/
def fenceEffect (r : Nat) (s : State) : State :=
  let i := resIndex r
  match resKind r with
  | 0x01 => fenceLane i s
  | 0x08 => (octetLanes i).foldl (fun s l => fenceLane l s) s
  | 0x0C => fencePipe i s
  | 0x12 => fenceSector i s
  | 0x14 => fenceBridge s
  | 0x09 => fenceCore i s
  | 0x11 => (coresNamed r).foldl (fun s c => fenceCore c s) s
  | 0x0E => loseReserves i s
  | 0x0D => losePc i s
  | 0x13 => (List.range 32).foldl (fun s p => losePc (i * 32 + p) s) s
  | 0x18 => if engineUnit 0 < r then fenceEngine (r - engineUnit 0) s else s
  | _ => s

/-- SERVICE fell to 0: every network port fails (R441). -/
def settleService (s : State) : State :=
  if service s = 0 then
    ((s.ports.filter (fun p => p.2.link != 0 && !p.2.conds.contains .fenced)).map (·.1)).foldl (fun s p => portFails p .fenced s) s
  else s

/-- Fence one unit. -/
def fenceUnit (r : Nat) (s : State) : State :=
  if s.faults.fenced.contains r then s
  else settleService (fenceEffect r { s with faults.fenced := s.faults.fenced ++ [r] })

/-! ### Records and escalation (R433, R440) -/

/-- Members whose fences escalate to a group. -/
def escalateAt (kind : Nat) : Nat := if kind = 0x01 then 4 else 8
/-- Individually fenced members of a unit's group. -/
def fencedMates (s : State) (r : Nat) : Nat :=
  (s.faults.fenced.filter (fun x => groupOf x == groupOf r && (groupOf r).isSome)).length

/-- Escalate a fence to the group when enough members are fenced; ACTION 2 is recorded. -/
def escalate (src r : Nat) (detail : List Byte) (s : State) : State :=
  match groupOf r with
  | none => s
  | some g =>
    if fencedMates s r < escalateAt (resKind r) || s.faults.fenced.contains g then s
    else
      let s := fenceUnit g { s with faults.escalated := s.faults.escalated ++ [g] }
      pendRecord (mkRecord s src r ((sourceClass src).getD 0) 2 0 g detail) s

/-- The fences of this clock, with those of before it dropped (R437). -/
def noteFences (counted : Bool) (targets : List Nat) (s : State) : State :=
  let now := s.time.uptime
  { s with faults.fencedNow := s.faults.fencedNow.filter (fun f => f.at_ == now) ++ targets.map (fun r => ⟨now, counted, r⟩) }
/-- The units of a report were fenced in this clock, by a contained event if this report is the Nth count, by an Nth count if it is a contained event: the two cause one fence and one record (R437). -/
def sameFence (s : State) (targets : List Nat) (contained severe : Bool) : Bool :=
  (contained || severe) && targets.all (fun r => s.faults.fencedNow.any (fun f => f.at_ == s.time.uptime && f.counted == contained && f.unit == r))

/-- A fence ordered by a report: the fence, its record and its escalation. A power domain with no fence target fences nothing, and its record has ACTION 0 (R436; DEDUCED, log entry 96). -/
def fenceReport (src resource cnt : Nat) (targets : List Nat) (detail : List Byte) (s : State) : State :=
  let target := if targets.length = 1 then namedTarget (targets.headD 0) else resource
  let s := noteFences (sourceClass src == some 0) targets (targets.foldl (fun s r => fenceUnit r s) s)
  let detail := if targets == [resId 0x14 0] then leBytes 8 (mgetD s.faults.bridgeLost 0 0) ++ leBytes 8 (mgetD s.faults.bridgeLost 1 0) else detail
  let act := if targets.isEmpty then 0 else 1
  let s := pendRecord (mkRecord s src resource ((sourceClass src).getD 0) act cnt (if act = 1 then target else 0) detail) s
  targets.foldl (fun s r => escalate src r detail s) (if targets.isEmpty then settleService s else s)

/-! ### Counting (R437) -/

/-- Instance that a report counts for: the agent of BUF_FREE, else the reporting unit. -/
def instanceOf (src resource : Nat) (detail : List Byte) : Nat := if src = 12 then u8 detail 0 else resource

/-- Count one event: the count after it, and the windows (closed when the count reached N). -/
def countEvent (s : State) (src inst n tms : Nat) : Nat × List Window :=
  let same := fun (w : Window) => w.source == src && w.inst == inst
  let others := s.faults.windows.filter (fun w => !same w)
  let now := s.time.uptime
  let open_ := (s.faults.windows.find? same).filter (fun w => now < w.start + tms * 1000000)
  let c := match open_ with | some w => w.count + 1 | none => 1
  if n ≤ c then (c, others)
  else (c, others ++ [⟨src, inst, c, match open_ with | some w => w.start | none => now⟩])

/-- Targets of a severe or contained event; none where the action is the safe state (R234, R435, R436). -/
def reportTargets (src resource : Nat) (detail : List Byte) : Option (List Nat) :=
  match src with
  | 6 => none | 27 => none | 29 => none
  | 12 =>
    let agent := u8 detail 0
    if agent < 12 then some [resId 0x0C agent]
    else if agent = 12 then some [resId 0x12 (u32 detail 8 / 131072 % 8)]
    else if agent = 16 || agent = 17 then some [resId 0x09 ((agent - 16) * 32 + u16 detail 6 / 8 % 32)]
    else none
  | 18 => some [engineUnit (u8 detail 0)]
  | 23 => if [0, 1, 14, 15].contains (u8 detail 0) then none else some (domainTargets (u8 detail 0))
  | _ => some [resource]

/-- A self-test fails when its unit, or a member of it, is reported. -/
def failTests (r : Nat) (s : State) : State :=
  { s with faults.tests := s.faults.tests.map (fun t => if t.unit = namedTarget r || groupOf r = some t.unit then { t with failed := true } else t) }

/-- Severity whose action is the safe state: ACTION 3 with the count. -/
def safeReport (src resource cls cnt : Nat) (detail : List Byte) (s : State) : State :=
  let s := enterSafe src resource s
  if s.faults.stagHeld then s else pendRecord (mkRecord s src resource cls 3 cnt 0 detail) s

/-- Bursts of a pseudo-channel in service: a corrected one counts in CE_COUNT, an uncorrectable one in UE_COUNT (R429); reads of a fenced one are not counted again (R430). In the safe state counters stop and nothing is fenced, so an uncorrectable burst stays where readers may meet it (R444). -/
def countBurst (src resource : Nat) (s : State) : State :=
  if isFenced s resource then s
  else if s.faults.safe then (if src = 20 then modPchan (resIndex resource) (fun x => { x with bad := true }) s else s)
  else if src = 19 then modPchan (resIndex resource) (fun x => { x with ce := (x.ce + 1) % 2 ^ 16 }) s
  else if src = 20 then modPchan (resIndex resource) (fun x => { x with ue := (x.ue + 1) % 256 }) s
  else s

/-- A report on its way: it crosses the bridge in CC2 to the half of the collector on the other die (R14, R443). CC2 has reserved credit and the highest priority of the control lanes, so nothing holds it. A resource of neither die alone (the device, the bridge) reports from the F-die (DESIGN CHOICE, log entry 81). -/
def reportCross (resource : Nat) (s : State) : State := bridgeCross (if (dieOf resource).getD false then 7 else 6) 1 s

/-- One report (R432), which every source makes. -/
def report (src resource : Nat) (detail : List Byte) (s : State) : State :=
  match sourceClass src with
  | none => s
  | some cls =>
    if !running s || resKind resource != sourceKind src || !resValid resource ||
      (src == 3 && (resIndex resource < 192 || 496 ≤ resIndex resource)) then s
    else
    let s := countBurst src resource (reportCross resource s)
    if cls = 2 || (src = 23 && [0, 1, 14, 15].contains (u8 detail 0)) then fatal src resource detail s
    else if s.faults.safe && s.faults.fatalAt == some s.time.uptime then s
    else if s.faults.safe then pendRecord (mkRecord s src resource cls 0 0 0 detail) s
    else
      let targets := (reportTargets src resource detail).getD []
      let s := targets.foldl (fun s r => failTests r s) s
      let severe := match windowOf s src with
        | none => false
        | some (n, t) => n != 0 && decide (n ≤ (countEvent s src (instanceOf src resource detail) n t).1)
      if !targets.isEmpty && targets.all (isFenced s) then
        if sameFence s targets (cls == 1) severe then s else pendRecord (mkRecord s src resource cls 6 0 0 detail) s
      else
        let r : Nat × Bool × State := match windowOf s src with
          | none => (0, false, s)
          | some (n, t) => if n = 0 then (0, false, s)
            else
              let c := countEvent s src (instanceOf src resource detail) n t
              (c.1, decide (n ≤ c.1), { s with faults.windows := c.2 })
        if cls = 1 || r.2.1 then
          match reportTargets src resource detail with
          | none => safeReport src resource cls r.1 detail r.2.2
          | some ts => fenceReport src resource r.1 ts detail r.2.2
        else pendRecord (mkRecord r.2.2 src resource cls 0 r.1 0 detail) r.2.2

/-- FAULT_REPORT. -/
def execFaultReport (src resource : Nat) (detail : List Byte) (s : State) : Host.Outcome State Fault Refusal :=
  answer s (report src resource detail s)

/-- A refused release or transfer of R233: counted against the agent and reported as BUF_FREE. `pos` is 2 DOUBLE_FREE or 3 FOREIGN_FREE; DETAIL holds agent, owner, thread, handle and VOQ (DESIGN CHOICE, log entry 32). -/
def freeRefused (agent pos handle owner thread voq : Nat) (s : State) : State :=
  report 12 (resId 0x18 0) (leBytes 1 agent ++ leBytes 1 owner ++ leBytes 4 handle ++ leBytes 2 thread ++ leBytes 4 voq)
    (count 0x0A agent pos 1 s)

/-- FAULT_RECORD (R433, R434): the oldest pending record is written, with its journal record. -/
def faultRecord (s : State) : State :=
  match s.faults.pending with
  | [] => s
  | r :: rest =>
    if !running s || s.boot.restarting || s.faults.stagHeld || s.boot.phase < 2 then s
    else
      let s := { s with faults.pending := rest }
      let seq := s.faults.next
      let j := if r.action < 1 || 4 < r.action || (s.faults.safe && journalFree s.journal == 0) then (0, s)
        else journalFw 0x1400 seq r.target s
      let log := j.2.faults.log ++ [{ r with seq := seq, journalSeq := j.1 }]
      let s := { j.2 with faults.next := seq + 1, faults.log := log.drop (log.length - 4096), faults.alert := true }
      emit (.msix 4) s

/-! ### The collector's own health (R443) -/

/-- COLLECTOR_COMPARE: each half sends its copy to the other over CC2; a mismatch drives the safe state directly (R443). -/
def execCollectorCompare (equal : Bool) (s : State) : Host.Outcome State Fault Refusal :=
  answer s (if !running s then s
    else
      let s := bridgeCross 7 1 (bridgeCross 6 1 { s with faults.comparedAt := some s.time.uptime })
      if equal then s else fatal 31 (resId 0x18 0) [] s)

/-- No comparison for 10 µs after one was made raises COLLECTOR, once (R443; log entry 98). -/
def collectorTick (s : State) : State :=
  match s.faults.comparedAt with
  | some t => if running s && s.faults.collectorOk && t + 10000 ≤ s.time.uptime then fatal 31 (resId 0x18 0) [] s else s
  | none => s

/-! ### Clearing (R442) -/

/-- Units that a FAULT_CLEAR names: the unit, or for the device its fenced engines (log entry 30). -/
def clearUnits (s : State) (r : Nat) : List Nat :=
  if r = resId 0x18 0 then [1, 2, 3].map engineUnit |>.filter s.faults.fenced.contains
  else if s.faults.fenced.contains r then [r] else []

/-- A power domain that the mode keeps off: PD_FAB0 and PD_FAB1 in fabric-less mode (R4). -/
def modeKeepsOff (s : State) (d : Nat) : Bool := !s.fabric.connected && (d == 17 || d == 18)

/-- The cause of a fence persists: a bank with held segments, a stack reading above 100 °C for a stack and its pseudo-channels, a die reading above it for every other unit (R245, R442; DEDUCED, log entry 96: R442 does not say which reading stands for which unit). -/
def causePersists (s : State) (r : Nat) : Bool :=
  let i := resIndex r
  match resKind r with
  | 0x0E => bankHeld s i != 0
  | 0x0D => decide (100 < (hbmOf s (i / 32)).temp)
  | 0x13 => decide (100 < (hbmOf s i).temp)
  | _ => decide (100 < s.power.tjF) || decide (100 < s.power.tjT)

/-- Pseudo-channels of a pseudo-channel or stack. -/
def pchansNamed (r : Nat) : List Nat :=
  if resKind r = 0x0D then [resIndex r] else if resKind r = 0x13 then (List.range 32).map (· + resIndex r * 32) else []

/-- A pseudo-channel enters a mode; its activate-count tables restart empty (R425). -/
def enterMode (mode p : Nat) (s : State) : State :=
  modPchan p (fun x => { x with mode := mode, window := false, act := [], queue := [], bad := false }) s

/-- The self-test of a unit starts; pseudo-channels enter TEST (R425). -/
def startTest (r : Nat) (s : State) : State :=
  let pcs := pchansNamed r
  pcs.foldl (fun s p => enterMode 1 p s) s

/-- Self-tests that wait for the trial power-up of a domain. -/
def trialsOf (d : Nat) (s : State) : List SelfTest := s.faults.tests.filter (fun t => t.trial == some d)

/-- FAULT_CLEAR (0x1402). -/
def faultClearSpec : CmdSpec :=
  { opcode := 0x1402, kind := .o, layout := plain 0 []
    fields := fun c _ => firstFail [(c.resource != 0, failWith St.badResource)]
    run := fun c s =>
      let r := c.resource
      let noTrial := match domainOfUnit r with | some d => (domainOf s d).heldOff && modeKeepsOff s d | none => false
      if (clearUnits s r).isEmpty || groupFenced s r || causePersists s r || noTrial then
        .error (failWith St.wrongState)
      else
        let off := (domainOfUnit r).filter (fun d => (domainOf s d).heldOff)
        let s := { s with faults.tests := s.faults.tests ++ [{ unit := r, cmd := some c, trial := off }] }
        match off with
        | some d => .ok { s := startRamp d s, log := .later }
        | none => .ok { s := startTest r s, log := .later }
    objects := fun c _ => unitObjs c.resource }

/-- Ports that failed by a fence only: once nothing stands against them their up delay starts. -/
def portsFollow (s : State) : State :=
  ((s.ports.filter (fun p => p.2.conds == [.fenced])).map (·.1)).foldl (fun s p =>
    if (standing s p).contains .fenced then s else portGood p s) s

/-- What a passed self-test does for a unit (R442). -/
def clearEffect (r : Nat) (s : State) : State :=
  let i := resIndex r
  let lane := fun (s : State) (l : Nat) => if 192 ≤ l && [0, 5].contains (laneOf s l).state then startLane l s else s
  match resKind r with
  | 0x01 => portsFollow (lane s i)
  | 0x08 => portsFollow ((octetLanes i).foldl lane s)
  | 0x0C => portsFollow s
  | 0x09 => resetCore 1 i s
  | 0x11 => (coresNamed r).foldl (fun s c => resetCore 1 c s) s
  | 0x12 => ((s.sched.voqs.filter (fun q => q.1 / 131072 == i)).map (·.1)).foldl (fun s v => modQueue ⟨false, v⟩ (fun q => { q with credit := 0 }) s) s
  | 0x0D => enterMode 2 i (zeroPc i s)
  | 0x13 => (pchansNamed r).foldl (fun s p => enterMode 2 p s) (zeroStack i s)
  | _ => s

/-- Unit of an agent that counts for BUF_FREE: the ingress pipeline of agents 0 to 11 (R234). -/
def agentUnit (agent : Nat) : Nat := if agent < 12 then resId 0x0C agent else 0

/-- The unit and its members return to use. -/
def unfence (r : Nat) (s : State) : State :=
  let units := clearUnits s r
  let stays := fun (x : Nat) => !(units.contains x || groupOf x == some r)
  let s := { s with faults.fenced := s.faults.fenced.filter stays, faults.escalated := s.faults.escalated.filter stays,
                    faults.windows := s.faults.windows.filter (fun w => stays (if w.source = 12 then agentUnit w.inst else w.inst)) }
  loadDue 1 (loadDue 0 (portsFollow (clearEffect r s)))

/-- End the self-test of a unit. A pseudo-channel leaves TEST with it, for RECOVERY after a pass and for IN_SERVICE, fenced, otherwise (R425). -/
def endTest (t : SelfTest) (pass : Bool) (s : State) : State :=
  let s := { s with faults.tests := s.faults.tests.filter (fun x => x.unit != t.unit) }
  let r := t.unit
  if pass && !t.failed then
    let s := unfence r s
    let s := pendRecord (mkRecord s 0 r 0 4 0 r []) s
    match t.cmd with | some c => completeLong c 0x1402 r [] s | none => s
  else
    let s := pendRecord (mkRecord s 0 r 0 5 0 0 []) s
    let s := (pchansNamed r).foldl (fun s p => if (pchanOf s p).mode = 1 then enterMode 3 p s else s) s
    match t.cmd with | some c => refuse c 0x1402 (failWith St.fenced) s | none => s

/-- SELF_TEST_COMPLETE. -/
def execSelfTestComplete (resource : Nat) (pass : Bool) (s : State) : Host.Outcome State Fault Refusal :=
  answer s (match s.faults.tests.find? (fun t => t.unit == resource && t.trial.isNone) with
    | some t => if mailboxReady s then endTest t pass s else s
    | none => s)

/-! ### FAULT_GET, FAULT_SET_WINDOW -/

/-- The 64 bytes of a fault record (R433). -/
def FRec.bytes (r : FRec) : List Byte :=
  leBytes 8 r.seq ++ leBytes 8 r.uptime ++ leBytes 4 r.boot ++ leBytes 4 r.resource ++ leBytes 4 r.placement ++ leBytes 2 r.source ++
  leBytes 1 r.cls ++ leBytes 1 r.action ++ leBytes 4 r.count ++ leBytes 4 r.target ++ fit 16 r.detail ++ leBytes 8 r.journalSeq

/-- FLT_WINDOW. -/
def windowWord (s : State) (src : Nat) : Nat := match windowOf s src with | some (n, t) => n + t * 2 ^ 16 | none => 0

/-- The first counting source of a unit's kind, and its open count. -/
def unitCount (s : State) (r : Nat) : Nat :=
  match (List.range 32).find? (fun src => (sourceWindow src).isSome && sourceKind src == resKind r && src != 12 &&
      !(src == 3 && resIndex r < 192)) with
  | none => 0
  | some src => match s.faults.windows.find? (fun w => w.source == src && w.inst == r) with
    | some w => if s.time.uptime < w.start + ((windowOf s src).getD (0, 0)).2 * 1000000 then w.count else 0
    | none => 0

/-- FAULT_GET (0x1401). -/
def faultGetSpec : CmdSpec :=
  { opcode := 0x1401, kind := .r
    layout := fun c => match c.at 0 1 with
      | 0 => .ok { len := 16, rsvd := [rsv 1 3] }
      | 1 => .ok { len := 8, rsvd := [rsv 1 3] }
      | 2 => .ok { len := 8, rsvd := [rsv 1 3, rsv 4 4] }
      | _ => .error (badField 0)
    resLen := fun c s => match c.at 0 1 with
      | 0 => 64 * min (c.at 4 4) (s.faults.next - c.at 8 8)
      | _ => 8
    fields := fun c _ => match c.at 0 1 with
      | 0 => firstFail [(decide (1 ≤ c.at 4 4) && decide (c.at 4 4 ≤ 4096), badField 4)]
      | 1 => firstFail [((sourceClass (c.at 4 4)).isSome, badField 4)]
      | _ => firstFail [(c.resource != 0, failWith St.badResource)]
    run := fun c s => match c.at 0 1 with
      | 0 =>
        if c.at 8 8 + s.faults.log.length < s.faults.next || s.faults.next < c.at 8 8 then .error (failWith St.notFound)
        else .ok { s := s, log := .silent,
                   result := (((s.faults.log.filter (fun r => c.at 8 8 ≤ r.seq)).take (c.at 4 4)).map FRec.bytes).flatten }
      | 1 => .ok { s := s, result := leBytes 8 (windowWord s (c.at 4 4)), log := .silent }
      | _ =>
        let r := c.resource
        let esc := s.faults.escalated.contains r || (match groupOf r with | some g => s.faults.escalated.contains g | none => false)
        .ok { s := s, log := .silent,
              result := leBytes 1 (b2n (isFenced s r || !(clearUnits s r).isEmpty)) ++ leBytes 1 (b2n esc) ++ zeros 2 ++ leBytes 4 (unitCount s r) } }

/-- FAULT_SET_WINDOW (0x1403). -/
def faultSetWindowSpec : CmdSpec :=
  { opcode := 0x1403, kind := .o, layout := plain 12 [rsv 2 2]
    fields := fun c _ => firstFail [
      ((sourceWindow (c.at 0 2)).isSome, badField 0), (decide (c.at 4 4 ≤ 65535), badField 4),
      (decide (1 ≤ c.at 8 4) && decide (c.at 8 4 ≤ 86400000), badField 8)]
    run := fun c s => .ok { s := { s with faults.cfg := mset s.faults.cfg (c.at 0 2) (c.at 4 4, c.at 8 4),
                                          faults.windows := s.faults.windows.filter (fun w => w.source != c.at 0 2) } }
    object := fun c _ _ => c.at 0 2 }

/-- STALL (R355): counted in STALLS and reported. -/
def execStall (cl : Nat) (s : State) : Host.Outcome State Fault Refusal :=
  answer s (if trafficOn s && !(clusterOf s cl).stalled && stalls s cl then
    report 16 (resId 0x11 cl) [] (modCluster cl (fun x => { x with stalls := (x.stalls + 1) % 2 ^ 16, stalled := true }) s)
  else s)

end Sys2Proof.Machine
end

