-- ==== Sys2Proof/Machine/Hbm.lean ====
section
/-! DEFINITION. The HBM controllers: temperature, row-disturbance protection, retraining, initialisation, HBM_GET and HBM_SET (R420-R431 15_hbm_controllers). -/

namespace Sys2Proof.Machine

/-! ### Refresh and temperature (R423) -/

/-- Refresh step after a reading: raised above a threshold, lowered at 3 °C below it. -/
def refreshStep (step : Nat) (t : Int) : Nat :=
  if 95 < t || (step = 2 && 92 < t) then 2 else if 85 < t || (1 ≤ step && 82 < t) then 1 else 0

/-- HBM_TEMP_READ: a reading above 105 °C is reported as HBM_TEMP. -/
def execHbmTempRead (n : Nat) (t : Int) (s : State) : Host.Outcome State Fault Refusal :=
  answer s (if running s && n < 6 && (domainOf s (if n < 2 then 12 else 16)).on then
    let s := modHbm n (fun x => { x with temp := t, step := refreshStep x.step t, maxTemp := max x.maxTemp t }) s
    if 105 < t then report 22 (resId 0x13 n) [] s else s
  else s)

/-! ### Row-disturbance protection (R424, R425) -/

/-- The pseudo-channel takes accesses: its stack is ready, and it is not paused and not fenced, but for those of its self-test in TEST (R425, R430). -/
def pcServes (s : State) (p : Nat) : Bool :=
  running s && decide (p < 192) && (hbmOf s (p / 32)).ready && (!isFenced s (resId 0x0D p) || (pchanOf s p).mode == 1) && !(pchanOf s p).paused

/-- Length of a refresh window in ns at a refresh step (R423). -/
def windowLength (step : Nat) : Nat := 32000000 / 2 ^ step
/-- The running refresh window of a pseudo-channel is over; the first one starts at no stated moment. -/
def windowDue (x : PChan) (s : State) : Bool :=
  match x.windowAt with | some t => decide (t + x.windowNs ≤ s.time.uptime) | none => true

/-- A refresh window of a pseudo-channel starts with the threshold that is set, and the length that the step gives. -/
def windowStarts (rh step now : Nat) (x : PChan) : PChan :=
  let x := { x with rhNow := rh, act := [], windowAt := some now, windowNs := windowLength step }
  if x.mode = 0 || x.mode = 2 then
    if x.window then { x with mode := 3, window := false } else { x with window := true }
  else x

/-- REFRESH_WINDOW, at the end of the one before: entries are freed, the threshold in force is taken, START-UP and RECOVERY end with their first whole window. -/
def execRefreshWindow (p : Nat) (s : State) : Host.Outcome State Fault Refusal :=
  answer s (if running s && p < 192 && (hbmOf s (p / 32)).ready && windowDue (pchanOf s p) s then
    modPchan p (windowStarts (hbmOf s (p / 32)).rh (hbmOf s (p / 32)).step s.time.uptime) s
  else s)

/-- The entry that an activate of a row uses in a table of 16: its own, a free one, or the lowest count; with the count it takes. -/
def actEntry (tab : NMap (Nat × Nat)) (row : Nat) : Nat × Nat :=
  match tab.find? (fun e => e.2.1 == row) with
  | some e => (e.1, e.2.2 + 1)
  | none => match (List.range 16).find? (fun i => (mget tab i).isNone) with
    | some i => (i, 1)
    | none =>
      let low := tab.foldl (fun b e => if e.2.2 < b.2.2 then e else b) (tab.headD (0, 0, 0))
      (low.1, low.2.2 + 1)

/-- Queue neighbour refresh of a row. -/
def queueRefresh (bank row : Nat) (x : PChan) : PChan := { x with queue := mmod x.queue bank [] (fun q => q ++ [row]) }

/-- The bank takes no activate of a row: its queue of neighbour refreshes is full, or holds that of this row, which comes before its next activate (R424). -/
def bankHolds (x : PChan) (bank row : Nat) : Bool :=
  let q := mgetD x.queue bank []
  decide (4 ≤ q.length) || (x.mode == 3 && q.contains row)

/-- HBM_ACTIVATE. -/
def execHbmActivate (p bank row : Nat) (s : State) : Host.Outcome State Fault Refusal :=
  answer s (
    let x := pchanOf s p
    if !pcServes s p || 48 ≤ bank || 16384 ≤ row || bankHolds x bank row then s
    else if x.mode = 3 then
      let tab := mgetD x.act bank []
      let e := actEntry tab row
      if x.rhNow ≤ e.2 then
        modPchan p (fun x => queueRefresh bank row { x with act := mset x.act bank (mdel tab e.1) }) s
      else modPchan p (fun x => { x with act := mset x.act bank (mset tab e.1 (row, e.2)) }) s
    else
      let d := drawBelow 256 s
      if d.1 = 0 then modPchan p (queueRefresh bank row) d.2 else d.2)

/-- NEIGHBOUR_REFRESH: the oldest queued one of a bank. -/
def execNeighbourRefresh (p bank : Nat) (s : State) : Host.Outcome State Fault Refusal :=
  answer s (match mgetD (pchanOf s p).queue bank [] with
    | [] => s
    | _ :: rest => if pcServes s p then
        modPchan p (fun x => { x with nrr := (x.nrr + 1) % 2 ^ 32, queue := if rest.isEmpty then mdel x.queue bank else mset x.queue bank rest }) s
      else s)

/-! ### Retraining (R426-R428) -/

/-- Position of UPTIME in the 64 ms cycle, counted from `ahead` ns before the pause of a pseudo-channel. -/
def pausePhase (s : State) (p ahead : Nat) : Nat := (s.time.uptime + ahead + 64000000 - p * 250000) % 64000000

/-- RETRAIN_HOLD: from 400 ns before a pause of H0 or H1 the ingress pipelines hold admission. -/
def execRetrainHold (p : Nat) (s : State) : Host.Outcome State Fault Refusal :=
  answer s (if running s && p < 64 && (hbmOf s (p / 32)).ready && s.retrainHold.isNone && pausePhase s p 400 < 400 then
    { s with retrainHold := some s.time.uptime } else s)

/-- Admission is held by the pause of a pseudo-channel of H0 or H1 at the latest when it begins (R427). -/
def holdAtPause (p : Nat) (s : State) : State :=
  if p < 64 && s.retrainHold.isNone then { s with retrainHold := some s.time.uptime } else s

/-- RETRAIN_PAUSE: every pseudo-channel of a stack made ready is retrained, also a fenced one (DEDUCED: R426 excepts none; log entry 96). -/
def execRetrainPause (p : Nat) (s : State) : Host.Outcome State Fault Refusal :=
  answer s (if running s && p < 192 && (hbmOf s (p / 32)).ready && pausePhase s p 0 < 1000 then
    holdAtPause p (modPchan p (fun x => { x with paused := true }) s) else s)

/-- The hold in force is that of the pause of `p`: it was taken within the 400 ns before it, or in it. -/
def holdsFor (s : State) (p : Nat) : Bool :=
  match s.retrainHold with
  | some t => decide (p < 64) && decide ((t + 400 + 64000000 - p * 250000) % 64000000 < 1400)
  | none => false

/-- The hold of admission ends; its clocks are counted in every pipeline. -/
def releaseHold (s : State) : State :=
  match s.retrainHold with
  | none => s
  | some t =>
    let n := fpipeClocks (s.time.uptime - t)
    (List.range 12).foldl (fun s pl => { s with holdClocks := mput s.holdClocks pl (mgetD s.holdClocks pl 0 + n) }) { s with retrainHold := none }

/-- RETRAIN_END: a failed eye margin keeps the settings and is reported as HBM_TRAIN. -/
def execRetrainEnd (p : Nat) (pass : Bool) (s : State) : Host.Outcome State Fault Refusal :=
  answer s (if running s && ((pchanOf s p).paused || holdsFor s p) && 1000 ≤ pausePhase s p 0 then
    let trained := (pchanOf s p).paused
    let s := if holdsFor s p then releaseHold s else s
    let s := modPchan p (fun x => { x with paused := false }) s
    if pass || !trained then s else report 21 (resId 0x0D p) [] s
  else s)

/-! ### Initialisation (R431) -/

/-- HBM_INIT_COMPLETE. -/
def execHbmInitComplete (n : Nat) (s : State) : Host.Outcome State Fault Refusal :=
  answer s (if running s && n < 6 && (domainOf s (if n < 2 then 12 else 16)).on && !(hbmOf s n).ready then
    modHbm n (fun x => { x with ready := true }) s else s)

/-! ### HBM_SET, HBM_GET (R421, R422) -/

/-- A window is in use (R422). -/
def windowInUse (s : State) (n w : Nat) : Bool :=
  let base := hbmBase n + w * 2 ^ 30
  let gib := 2 ^ 30
  let j := s.journal
  s.tables.any (fun t => t.2.regions.any (fun r => overlaps base gib (regionBase r) (2 ^ 20))) ||
  overlaps base gib j.base (j.sizeMib * 2 ^ 20) || meetsTahr base gib ||
  s.dumps.any (fun d => d.2.dest == 1 && overlaps base gib d.2.base (d.2.depth * dumpFrame d.1 d.2.sections)) ||
  s.tahr.clusters.any (fun d => d.2.dumpDest == 1 && overlaps base gib d.2.dumpBase (d.2.dumpDepth * 4096))

/-- XMASK0-3 of a stack section. -/
def xmasksAt (c : Cmd) : List Nat := (List.range 4).map (fun i => c.at (8 + 4 * i) 4)

/-- Address of the same burst under other masks: bits [8:5] follow the parities (R420). -/
def xorMove (old new : List Nat) (off : Nat) : Nat :=
  (List.range 4).foldl (fun a i =>
    if parity 30 (off &&& old.getD i 0) = parity 30 (off &&& new.getD i 0) then a else a ^^^ 2 ^ (5 + i)) off

/-- After a change of masks every byte of an order 3 window is found at the address that now maps to its place. -/
def remapXor (n : Nat) (old new : List Nat) (s : State) : State :=
  let inXor := fun (a : Nat) => stackOf a == some n && orderOf s n ((a - hbmBase n) / 2 ^ 30) == 3
  let moved := (s.mem.filter (fun c => inXor c.1)).map (fun c => (hbmBase n + xorMove old new (c.1 - hbmBase n), c.2))
  { s with mem := moved.foldl (fun m c => Memory.write m c.1 c.2) (s.mem.filter (fun c => !inXor c.1)) }

/-- HBM_SET (0x1602). -/
def hbmSetSpec : CmdSpec :=
  { opcode := 0x1602, kind := .c
    layout := fun c => match c.at 0 1 with
      | 0 => .ok { len := 8, rsvd := [rsv 4 4] }
      | 1 => .ok { len := 32, rsvd := [rsv 2 2, rsv 24 8] }
      | _ => .error (badField 0)
    fields := fun c _ =>
      if c.at 0 1 = 0 then firstFail [
        (decide (c.at 1 1 ≤ 5), badField 1), (decide (c.at 2 1 ≤ 23), badField 2), (decide (c.at 3 1 ≤ 3), badField 3),
        (c.at 1 1 < 2 || c.at 3 1 == 0, badField 3), (!(c.at 1 1 == 1 && decide (16 ≤ c.at 2 1)) || c.at 3 1 == 1, badField 3)]
      else firstFail ([
        (decide (c.at 1 1 ≤ 5), badField 1), (decide (256 ≤ c.at 4 4) && decide (c.at 4 4 ≤ 16384), badField 4)] ++
        (List.range 4).map (fun i => (c.at (8 + 4 * i) 4 % 512 == 0 && decide (c.at (8 + 4 * i) 4 < 2 ^ 30), badField (8 + 4 * i))))
    objects := fun c _ => [if c.at 0 1 = 0 then objKey 30 (c.at 1 1) (c.at 2 1) else objKey 31 (c.at 1 1) 0]
    object := fun c _ _ => c.at 1 1
    apply := fun c s =>
      let n := c.at 1 1
      if c.at 0 1 = 0 then
        let w := c.at 2 1
        if orderOf s n w = c.at 3 1 then .ok (s, [])
        else if windowInUse s n w then .error (failWith St.wrongState)
        else
          let base := hbmBase n + w * 2 ^ 30
          .ok (modHbm n (fun x => { x with orders := mset x.orders w (c.at 3 1) })
            { s with mem := Memory.clear s.mem base (base + 2 ^ 30) }, [])
      else
        let old := (hbmOf s n).xmask
        let new := xmasksAt c
        if old != new && (List.range 24).any (fun w => orderOf s n w == 3 && windowInUse s n w) then .error (failWith St.wrongState)
        else .ok (modHbm n (fun x => { x with rh := c.at 4 4, xmask := new }) (if old = new then s else remapXor n old new s), []) }

/-- HBM_GET (0x1601). -/
def hbmGetSpec : CmdSpec :=
  { opcode := 0x1601, kind := .r
    layout := fun c => if c.at 0 1 ≤ 2 then .ok { len := 8, rsvd := [rsv 3 5] } else .error (badField 0)
    resLen := fun c _ => if c.at 0 1 = 1 then 32 else 8
    fields := fun c _ => firstFail [
      (decide (c.at 1 1 ≤ 5), badField 1), (decide (c.at 2 1 ≤ [23, 0, 31].getD (c.at 0 1) 0), badField 2)]
    run := fun c s =>
      let n := c.at 1 1
      let x := hbmOf s n
      .ok { s := s, log := .silent, result := match c.at 0 1 with
        | 0 => leBytes 1 0 ++ leBytes 1 n ++ leBytes 1 (c.at 2 1) ++ leBytes 1 (orderOf s n (c.at 2 1)) ++ zeros 4
        | 1 => leBytes 1 1 ++ leBytes 1 n ++ zeros 2 ++ leBytes 4 x.rh ++ (x.xmask.map (leBytes 4)).flatten ++ zeros 8
        | _ => leBytes 8 (pcStatusWord s (n * 32 + c.at 2 1)) } }

end Sys2Proof.Machine
end

