-- ==== Sys2Proof/Machine/Fabric.lean ====
section
/-! DEFINITION. The fabric interface: VOQ dequeue, cells, reorder and reassembly, credit messages, presence and port status, and the commands of class FABRIC but FABRIC_LINK_SET (R3 00_scope; R252, R260, R272 09_queues_and_scheduling; R282-R305 10_fabric_interface). -/

namespace Sys2Proof.Machine

/-! ### Fabric lane failures (R280, R281, R435) -/

/-- A fabric lane that entered FAILED is reported as FAB_LINK. -/
def noteFailed (l : Nat) (old s : State) : State :=
  if isFabricLane l && (laneOf old l).state != 5 && (laneOf s l).state == 5 then report 3 (resId 0x01 l) [] s else s

/-- What the FEC of a fabric or pair lane reports of the 4,096 codewords before a marker (section 0x03 of R419): how many it corrected, how many it could not, and how many symbols, at most the 15 of a codeword that RS(544,514) corrects. No command carries these numbers: free values (log entry 1). -/
def laneFec (l : Nat) (s : State) : State :=
  let cw := drawBelow 4097 s
  let bad := drawBelow (4097 - cw.1) cw.2
  let more := drawBelow (14 * cw.1 + 1) bad.2
  count 0x03 l 2 (cw.1 + more.1) (count 0x03 l 1 bad.1 (count 0x03 l 0 cw.1 more.2))

/-- LANE_MARKER. -/
def execLaneMarker (l : Nat) (_device _index : Nat) (receiving : Bool) (s : State) : Host.Outcome State Fault Refusal :=
  answer s (if running s && [3, 4].contains (laneOf s l).state then
    let u := laneFec l s
    noteFailed l u (laneMarker l receiving u)
  else s)
/-- LANE_FAILURE. -/
def execLaneFailure (l cause : Nat) (s : State) : Host.Outcome State Fault Refusal := answer s (noteFailed l s (laneFailure l cause s))
/-- LANE_BRINGUP_TIMEOUT. -/
def execLaneBringupTimeout (l : Nat) (s : State) : Host.Outcome State Fault Refusal := answer s (noteFailed l s (laneBringupTimeout l s))

/-! ### Records (R286, R287) -/

/-- A packet record: prefix, carried words, frame; AGE_US is filled in when its first cell leaves. -/
def recordBytes (carry target offset : Nat) (h : Head) : List Byte :=
  let m := h.meta_
  let words := (setBits 8 carry).map (fun w => slice m (16 * w) 16)
  leBytes 2 h.recLen ++ leBytes 1 target ++ leBytes 1 (offset + u8 m 4 % 8 * 8 + u8 m 6 % 4 * 64) ++
  leBytes 1 (u8 m 5 % 8 + u8 m 80 % 2 * 8) ++ leBytes 1 carry ++ leBytes 2 (u16 m 0 % 256) ++ slice m 72 4 ++ zeros 4 ++
  slice m 16 8 ++ words.flatten ++ h.frame

/-- Age in µs, saturating (R286). -/
def ageUs (s : State) (h : Head) : Nat := min (((s.time.uptime : Int) - h.origin).toNat / 1000) (2 ^ 32 - 1)

/-- Write the carried words of a record into zeroed metadata. -/
def carriedMeta (bs : List Byte) (ws : List Nat) (m : List Byte) : List Byte :=
  (List.range ws.length).foldl (fun m i => poke m (16 * ws.getD i 0) (slice bs (24 + 16 * i) 16)) m

/-- Carried metadata rebuilt from a record (R287). -/
def rebuildMeta (bs : List Byte) : List Byte :=
  let m := carriedMeta bs (setBits 8 (u8 bs 5)) (zeros 128)
  let tag := u8 bs 3
  let m := poke m 2 (slice bs 0 2)
  let m := poke m 4 (leBytes 1 (withBits (u8 m 4) 2 0 (tag / 8)))
  let m := poke m 5 (leBytes 1 (withBits (u8 m 5) 2 0 (u8 bs 4)))
  let m := poke m 6 (leBytes 1 (tag / 64))
  let m := poke m 7 (leBytes 1 (tag % 8))
  let m := poke m 0 (leBytes 2 (u8 bs 6))
  let m := poke m 16 (slice bs 16 8)
  let m := poke m 72 (slice bs 8 4)
  poke m 80 (leBytes 1 (withBit (u8 m 80) 0 (bit (u8 bs 4) 3)))

/-- Whole length of the record that begins with these 24 bytes. -/
def recordLen (bs : List Byte) : Nat := 24 + 16 * popcount 8 (u8 bs 5) + u16 bs 0

/-- Put a received frame on an egress queue: the drop curve, pool tests 1 and 3 of R238, a buffer of the agent (R291, R326). -/
def arriveOn (agent e : Nat) (h : Head) (s : State) : State :=
  let q : QId := ⟨true, e⟩
  match offerCurve q (u8 h.meta_ 6) s with
  | (true, s) => s
  | (false, s) =>
    let pool := (qcfgOf s q).pool
    let a := admission pool none (segsFor h.frame.length) s
    if a != .ok then admitDrop a pool none s
    else match allocPkt agent { h with pool := pool } s with
      | (some seg, s) => enqueue q seg s
      | (none, s) => s

/-- The head of a received record. -/
def recordHead (s : State) (bs : List Byte) : Head :=
  let frame := (bs.drop (recordLen bs - u16 bs 0)).take (u16 bs 0)
  let origin : Int := (s.time.uptime : Int) - (u32 bs 12 * 1000 : Nat)
  { meta_ := rebuildMeta bs, frame := frame, recLen := frame.length, hv := zeros 256, origin := origin, voqAt := some origin }

/-- A reassembled record becomes a packet (R291). -/
def reassembled (device voq : Nat) (bs : List Byte) (s : State) : State :=
  let t := u8 bs 2
  if 193 < t then count 0x0E 0 0 1 s
  else
    let s := book t device 1 (u16 bs 0) s
    if t < 192 && (portOf s t).link = 3 then count 0x02 t 3 1 s
    else match (if t < 192 then arrivalQueue s 1 t (u8 bs 3 % 8) else none) with
      | none => count 0x0C voq 7 1 s
      | some e => arriveOn 0x0D e (recordHead s bs) s

/-- A record in reassembly is discarded as PKT_LOST; what is known of it counts as consumed (R301). -/
def loseRecord (device : Nat) (s : State) : State :=
  let p := peerOf s device
  if p.partialRec.isEmpty then s
  else
    let bs := p.partialRec
    let s := count 0x0F device 1 1 (modPeer device (fun p => { p with partialRec := [] }) s)
    if 3 ≤ bs.length && u8 bs 2 ≤ 193 then book (u8 bs 2) device 1 (u16 bs 0) s else s

/-- Parse the records of a stream; the rest stays in reassembly. -/
def parseRecords (device voq : Nat) : Nat → List Byte → State → State
  | 0, _, s => s
  | n + 1, bs, s =>
    let keep := modPeer device (fun p => { p with partialRec := bs, partialVoq := voq }) s
    if bs.length < 2 then keep
    else if u16 bs 0 = 0 then modPeer device (fun p => { p with partialRec := [] }) s
    else if bs.length < 24 || bs.length < recordLen bs then keep
    else parseRecords device voq n (bs.drop (recordLen bs)) (reassembled device voq (bs.take (recordLen bs)) s)

/-- One released DATA cell (R291). A single zero byte before a cell whose first record begins at offset 0 was pad. -/
def dataCell (device voq : Nat) (first : Option Nat) (payload : List Byte) (s : State) : State :=
  let p := peerOf s device
  if p.skipping then
    match first with
    | none => s
    | some off => parseRecords device voq 300 (payload.drop off)
        (modPeer device (fun p => { p with skipping := false, partialRec := [] }) s)
  else
    let old := if p.partialRec == [0] && first == some 0 then [] else p.partialRec
    parseRecords device (if old.isEmpty then voq else p.partialVoq) 300 (old ++ payload) s

/-! ### Credit messages (R292-R296, R302) -/

/-- REQUEST_ON at the generator. -/
def onRequest (m : CreditMsg) (s : State) : State := addRequest m.target m.device m.voq m.offset s
/-- REQUEST_OFF. -/
def offRequest (m : CreditMsg) (s : State) : State := dropRequest m.target m.device m.voq m.offset s
/-- GRANT at the requester: grants that GSEQ shows lost are answered with LOST (R302). -/
def onGrant (m : CreditMsg) (s : State) : State :=
  let g := bitsOf m.value 28 13
  let a := mgetD (peerOf s m.device).audit m.target (0, 0, false)
  let k := (g + 2 ^ 16 - a.1) % 2 ^ 16
  if 2 ^ 15 ≤ k then s
  else
    let s := modPeer m.device (fun p => { p with
      audit := mset p.audit m.target ((g + 1) % 2 ^ 16, (a.2.1 + 4096 * k) % 2 ^ 29, true) }) s
    let s := if k = 0 then s else sendCredit m.device (creditWord 5 0 m.target 0 (k * 2 ^ 13)) s
    addGrant m.voq s
/-- RETURN at the generator. -/
def onReturn (m : CreditMsg) (s : State) : State := book m.target m.device 2 m.value s
/-- LOST. -/
def onLost (m : CreditMsg) (s : State) : State :=
  let k := bitsOf m.value 28 13
  count 0x10 m.target 3 k (book m.target m.device 2 (4096 * k) s)
/-- AUDIT_GRANT: of the grants by which the own next GSEQ lies ahead of the audited value, those sent more than 4 µs ago are written off once; those before the audited value have been seen. -/
def onAuditGrant (m : CreditMsg) (s : State) : State :=
  let e := bitsOf m.value 28 13
  let x := targetOf s m.target
  let next := mgetD x.gseq m.device 0
  let ahead := (mgetD x.sent m.device []).filter (fun g => decide ((next + 2 ^ 16 - 1 - g.1) % 2 ^ 16 < (next + 2 ^ 16 - e) % 2 ^ 16))
  let old := fun (g : Nat × Nat) => decide (g.2 + 4000 < s.time.uptime)
  let j := (ahead.filter old).length
  let s := modTarget m.target (fun x => { x with sent := mset x.sent m.device (ahead.filter (fun g => !old g)) }) s
  if j = 0 then s else count 0x10 m.target 3 j (book m.target m.device 2 (4096 * j) s)
/-- AUDIT_RETURN: the returned total, and its counter, are set to agree modulo 2²⁹, by the nearer difference that leaves it at 0 or above (log entry 86). -/
def onAuditReturn (m : CreditMsg) (s : State) : State :=
  let b := mgetD (targetOf s m.target).books m.device (0, 0, 0)
  let d := (m.value % 2 ^ 29 + 2 ^ 29 - b.2.2 % 2 ^ 29) % 2 ^ 29
  if d = 0 then s
  else if d < 2 ^ 28 || b.2.2 + d < 2 ^ 29 then book m.target m.device 2 d s
  else count 0x10 m.target 2 (2 ^ 64 + d - 2 ^ 29)
    (modTarget m.target (fun x => { x with books := mset x.books m.device (b.1, b.2.1, b.2.2 + d - 2 ^ 29) }) s)

/-- The message came from a present device in fabric-connected mode and names a target. -/
def creditLive (m : CreditMsg) (s : State) : Bool :=
  trafficOn s && s.fabric.connected && (peerOf s m.device).present && decide (m.target < 194)
/-- A credit message as an event. -/
def onMsg (f : CreditMsg → State → State) (m : CreditMsg) (s : State) : Host.Outcome State Fault Refusal :=
  answer s (if creditLive m s then f m s else s)

/-- REQUEST_ON (R293). -/
def execRequestOn (m : CreditMsg) (s : State) : Host.Outcome State Fault Refusal := onMsg onRequest m s
/-- REQUEST_OFF (R293). -/
def execRequestOff (m : CreditMsg) (s : State) : Host.Outcome State Fault Refusal := onMsg offRequest m s
/-- GRANT (R294, R302). -/
def execGrant (m : CreditMsg) (s : State) : Host.Outcome State Fault Refusal := onMsg onGrant m s
/-- RETURN (R296). -/
def execCreditReturn (m : CreditMsg) (s : State) : Host.Outcome State Fault Refusal := onMsg onReturn m s
/-- LOST (R302). -/
def execLost (m : CreditMsg) (s : State) : Host.Outcome State Fault Refusal := onMsg onLost m s
/-- AUDIT_GRANT (R302). -/
def execAuditGrant (m : CreditMsg) (s : State) : Host.Outcome State Fault Refusal := onMsg onAuditGrant m s
/-- AUDIT_RETURN (R302). -/
def execAuditReturn (m : CreditMsg) (s : State) : Host.Outcome State Fault Refusal := onMsg onAuditReturn m s

/-- One received credit message of a CREDIT cell. -/
def creditMessage (device w : Nat) (s : State) : State :=
  let m : CreditMsg := { device := device, voq := bitsOf w 59 40, target := bitsOf w 39 32, offset := bitsOf w 31 29, value := w % 2 ^ 29 }
  if bitsOf w 63 60 = 0 then s
  else if 8 ≤ bitsOf w 63 60 then count 0x0E 0 0 1 s
  else if 194 ≤ m.target then s
  else match bitsOf w 63 60 with
    | 1 => onRequest m s | 2 => offRequest m s | 3 => onGrant m s | 4 => onReturn m s | 5 => onLost m s
    | 6 => onAuditGrant m s | _ => onAuditReturn m s

/-- AUDIT_SEND (R302): every target with which credit was exchanged since the last audit. -/
def auditSend (s : State) : State :=
  s.fabric.peers.foldl (fun s d =>
    if !d.2.present then s
    else
      let due := d.2.audit.filter (fun a => a.2.2.2)
      let s := due.foldl (fun s a =>
        sendCredit d.1 (creditWord 7 0 a.1 0 a.2.2.1) (sendCredit d.1 (creditWord 6 0 a.1 0 (a.2.1 * 2 ^ 13)) s)) s
      modPeer d.1 (fun p => { p with audit := mmap p.audit (fun _ a => (a.1, a.2.1, false)) }) s) s
/-- AUDIT_SEND. -/
def execAuditSend (s : State) : Host.Outcome State Fault Refusal :=
  answer s (if trafficOn s && s.fabric.connected then auditSend s else s)

/-- REQUEST_REPEAT (R293). -/
def execRequestRepeat (v : Nat) (s : State) : Host.Outcome State Fault Refusal :=
  answer s (
    let b := voqBindOf s (v / 8)
    if !trafficOn s || 1048576 ≤ v || !(queueOf s ⟨false, v⟩).requesting || b.kind = 0 then s
    else if destLocal s b then addRequest (creditTarget b) s.fabric.device v (v % 8) s
    else sendCredit b.device (creditWord 1 v b.target (v % 8) 0) s)

/-- A wait of `ns` from a start time is over. -/
def waitedSince (ns : Nat) (since : Option Nat) (s : State) : Bool :=
  match since with | some t => decide (t + ns ≤ s.time.uptime) | none => false

/-- CREDIT_CELL_SEND (R292): eight messages, or 50 ns after the first. -/
def execCreditCellSend (device : Nat) (s : State) : Host.Outcome State Fault Refusal :=
  answer s (
    let p := peerOf s device
    if !trafficOn s || !s.fabric.connected || p.msgs.isEmpty || (spraySet s).isEmpty ||
        (decide (p.msgs.length < 8) && !waitedSince 50 (p.msgs.head?.map (·.2)) s) then s
    else
      sendUnicast device 2 0 none (fit 64 ((p.msgs.take 8).map (fun m => beBytes 8 m.1)).flatten)
        (modPeer device (fun p => { p with msgs := p.msgs.drop 8 }) s))

/-! ### DATA cells (R288, R289) -/

/-- Write the age of each record whose first byte is among the first `n` pending bytes. -/
def stampAges (s : State) (n : Nat) (rs : List PendRec) (bs : List Byte) : List Byte :=
  rs.foldl (fun bs r => match r.start with
    | some o => if o < n then poke bs (o + 12) (leBytes 4 (ageUs s (mgetD s.buf.heads r.head {}))) else bs
    | none => bs) bs

/-- The first cell or the transfer of a packet ends its stay in a VOQ (R411 point 2). -/
def noteSojourn (v head : Nat) (s : State) : State := monEvent 2 v (s.time.uptime - (mgetD s.buf.heads head {}).enq) s

/-- Send the first `n` pending bytes to a device as one cell, with pad; packets whose last byte left are released. -/
def sendData (device n : Nat) (s : State) : State :=
  let p := peerOf s device
  let bs := stampAges s n p.pendRecs p.pend
  let starts := p.pendRecs.filter (fun r => match r.start with | some o => decide (o < n) | none => false)
  let first := starts.head?
  let gone := p.pendRecs.filter (fun r => decide (r.stop ≤ n))
  let left := (p.pendRecs.filter (fun r => decide (n < r.stop))).map (fun r => { r with
    start := match r.start with | some o => if o < n then none else some (o - n) | none => none, stop := r.stop - n })
  let s := modPeer device (fun p => { p with pend := bs.drop n, pendRecs := left }) s
  let payload := fit (max 64 (ceilDiv (min n bs.length) 16 * 16)) (bs.take n)
  let s := sendUnicast device 1 ((first.map (·.voq)).getD 0) (first.bind (·.start)) payload s
  let s := starts.foldl (fun s r => noteSojourn r.voq r.head s) s
  gone.foldl (fun s r => freePkt r.head s) s

/-- Full cells while 256 bytes are pending. -/
def sendFull (device : Nat) : Nat → State → State
  | 0, s => s
  | n + 1, s => if 256 ≤ (peerOf s device).pend.length then sendFull device n (sendData device 256 s) else s

/-- CELL_FILL (R288): the oldest pending byte has waited FILL_NS. -/
def execCellFill (device : Nat) (s : State) : Host.Outcome State Fault Refusal :=
  answer s (
    let p := peerOf s device
    if trafficOn s && s.fabric.connected && !p.pend.isEmpty && !(spraySet s).isEmpty &&
        waitedSince s.fabric.fillNs (p.pendRecs.head?.map (·.since)) s then
      sendData device (min 256 p.pend.length) s
    else s)

/-- Put a packet's record into the stream to a device. -/
def streamPacket (device target v seg : Nat) (s : State) : State :=
  let h := mgetD s.buf.heads seg {}
  let bs := recordBytes s.fabric.carry target (v % 8) h
  let s := modPeer device (fun p => { p with
    pend := p.pend ++ bs, pendRecs := p.pendRecs ++ [⟨seg, v, some p.pend.length, p.pend.length + bs.length, s.time.uptime⟩] }) s
  sendFull device 80 s

/-! ### VOQ dequeue (R228, R252, R260, R272, R304, R326) -/

/-- Hand a packet from a VOQ to the arrival group of a local destination. -/
def transferLocal (v seg : Nat) (b : Bind) (s : State) : State :=
  let lost := fun (sec elem pos : Nat) => dropPkt seg sec elem pos s
  match (if b.kind = 2 then sliceDrop s b.target (frameLen s seg) else none) with
  | some pos => lost 0x15 b.target pos
  | none =>
    match arrivalQueue s b.kind b.target (v % 8) with
    | none => lost 0x0C v 7
    | some e => enqueue ⟨true, e⟩ seg (recharge seg (qcfgOf s ⟨true, e⟩).pool s)

/-- The packet selected from a VOQ leaves it: balance, books, and its destination. -/
def sendFromVoq (v seg : Nat) (b : Bind) (s : State) : State :=
  let len := frameLen s seg
  let s := modQueue ⟨false, v⟩ (fun q => { q with credit := q.credit - len }) (popHead ⟨false, v⟩ s)
  let s := if destLocal s b then transferLocal v seg b (book (creditTarget b) s.fabric.device 1 len (noteSojourn v seg s))
    else streamPacket b.device b.target v seg s
  voqSettle v s

/-- VOQ_DEQUEUE: the scheduler of a sector sends one packet; packets for other devices wait while the spray set is empty. -/
def voqDequeue (sector : Nat) (s : State) : State :=
  if !trafficOn s || !bridgeOn s || 8 ≤ sector || isFenced s (resId 0x12 sector) then s
  else match selectVoq sector s with
    | (none, s) => s
    | (some (q, path), s) =>
      let b := voqBindOf s (q.num / 8)
      match (queueOf s q).head with
      | [] => s
      | seg :: _ =>
        if !destLocal s b && (spraySet s).isEmpty then s
        else sendFromVoq q.num seg b (chargePath path (frameLen s seg) s)

/-- VOQ_DEQUEUE. -/
def execVoqDequeue (sector : Nat) (s : State) : Host.Outcome State Fault Refusal := answer s (voqDequeue sector s)

/-! ### Reorder (R290) -/

/-- A released cell: DATA is parsed, CREDIT read. -/
def releaseCell (device : Nat) (c : HeldCell) (s : State) : State :=
  let s := monEvent 5 c.lane (s.time.uptime - c.at_) s
  let s := modPeer device (fun p => { p with nextSeq := (p.nextSeq + 1) % 2 ^ 24 }) s
  if c.typ = 1 then dataCell device c.voq (if c.firstValid then some c.firstOff else none) c.payload s
  else (List.range 8).foldl (fun s i => creditMessage device (beNat (slice c.payload (8 * i) 8)) s) s

/-- Release the held cells that follow in order. -/
def releaseHeld (device : Nat) : Nat → State → State
  | 0, s => s
  | n + 1, s =>
    let p := peerOf s device
    match mget p.held p.nextSeq with
    | none => s
    | some c => releaseHeld device n (releaseCell device c (modPeer device (fun p => { p with held := mdel p.held p.nextSeq }) s))

/-- Cells in the reorder store, all sources. -/
def reorderCount (s : State) : Nat := s.fabric.peers.foldl (fun a p => a + p.2.held.length) 0

/-- A unicast cell of a present source arrives. -/
def streamCell (device seq : Nat) (c : HeldCell) (s : State) : State :=
  let p := peerOf s device
  let d := (seq + 2 ^ 24 - p.nextSeq) % 2 ^ 24
  if d = 0 then releaseHeld device (p.held.length + 1) (releaseCell device c s)
  else if 2 ^ 23 ≤ d || (mget p.held seq).isSome then count 0x0E 0 4 1 s
  else if 16384 ≤ d then count 0x0E 0 3 1 s
  else if 65536 ≤ reorderCount s then count 0x0E 0 2 1 s
  else modPeer device (fun p => { p with held := mset p.held seq c }) s

/-- Declare the gap at the head of a stream lost: each missing SEQ counts, the record it interrupts is discarded, the held cells follow. -/
def gapLost (device : Nat) (s : State) : State :=
  let p := peerOf s device
  let dist := fun (q : Nat) => (q + 2 ^ 24 - p.nextSeq) % 2 ^ 24
  match p.held.map (fun c => dist c.1) with
  | [] => s
  | d :: ds =>
    let n := ds.foldl min d
    let s := count 0x0F device 0 n (loseRecord device s)
    let s := modPeer device (fun p => { p with
      nextSeq := (p.nextSeq + n) % 2 ^ 24, skipping := true, partialRec := [] }) s
    releaseHeld device (p.held.length + 1) s

/-- REORDER_TIMEOUT (R290). -/
def execReorderTimeout (device : Nat) (s : State) : Host.Outcome State Fault Refusal :=
  answer s (
    let held := (peerOf s device).held
    if trafficOn s && !held.isEmpty && held.any (fun c => decide (c.2.at_ + s.fabric.reorderUs * 1000 ≤ s.time.uptime)) then
      gapLost device s else s)

/-! ### Presence and port states (R297-R300) -/

/-- A device stops being present (R299). -/
def deviceGone (d : Nat) (s : State) : State :=
  let pend := (peerOf s d).pendRecs
  let s := modPeer d (fun p => { p with present := false, ports := [], lastPresence := [] }) s
  let s := ((s.sched.voqs.map (fun e => e.1 / 8)).eraseDups.filter (fun g =>
      s.fabric.connected && (voqBindOf s g).kind == 1 && (voqBindOf s g).device == d)).foldl
    (fun s g => flushGroup false g (fun v => (0x0C, v, 6)) s) s
  let s := pend.foldl (fun s r => dropPkt r.head 0x0C r.voq 6 s) s
  let s := loseRecord d s
  let s := { s with sched.targets := mmap s.sched.targets (fun _ x => { x with
    requests := x.requests.filter (fun r => r.1 != d), gseq := mdel x.gseq d, sent := mdel x.sent d }) }
  let s := s.sched.targets.foldl (fun s t =>
    let b := mgetD t.2.books d (0, 0, 0)
    let open_ := b.1 - (b.2.1 + b.2.2)
    if open_ = 0 then s else book t.1 d 2 open_ s) s
  settleGroups (modPeer d (fun p => { p with
    nextSeq := 0, txSeq := 0, held := [], partialRec := [], skipping := false, pend := [], pendRecs := [], msgs := [], audit := [] }) s)

/-- A PRESENCE cell (R297, R298): a port state is applied where two consecutive cells agree on it. The counts of port changes begin anew with a new incarnation (DESIGN CHOICE, log entry 86). -/
def onPresence (d : Nat) (payload : List Byte) (s : State) : State :=
  let inc := beNat (payload.take 2)
  let states := (List.range 192).map (fun p => u8 payload (2 + p / 4) / 4 ^ (p % 4) % 4)
  let s := if (peerOf s d).present && (peerOf s d).incarnation != inc then deviceGone d s else s
  let old := (peerOf s d).lastPresence
  let was := (peerOf s d).present
  let s := modPeer d (fun p => { p with
    present := true, incarnation := inc, seen := s.time.uptime, lastPresence := states
    changes := if p.incarnation = inc then p.changes else [] }) s
  let s := if was then s else settleGroups s
  (List.range 192).foldl (fun s p =>
    if old.isEmpty || old.getD p 0 != states.getD p 0 then s else applyRemotePort d p (states.getD p 0) s) s

/-- A port message applies when CHANGE lies 1 to 127 ahead (R298). -/
def portMessage (d : Nat) (m : List Byte) (s : State) : State :=
  let port := u8 m 0
  let ahead := (u8 m 2 + 256 - mgetD (peerOf s d).changes port 0) % 256
  if 192 ≤ port || ahead = 0 || 127 < ahead then s
  else applyRemotePort d port (u8 m 1 % 4) (modPeer d (fun p => { p with changes := mset p.changes port (u8 m 2) }) s)
/-- A PORT_STATUS cell. -/
def onPortStatus (d : Nat) (payload : List Byte) (s : State) : State :=
  (List.range 8).foldl (fun s i => portMessage d (slice payload (8 * i) 8) s) s
/-- A DEVICE_DOWN cell: it ends the presence of the incarnation it names. -/
def onDeviceDown (d inc : Nat) (s : State) : State :=
  if (peerOf s d).present && (peerOf s d).incarnation = inc then deviceGone d s else s

/-- Flooded cells are taken in fabric-connected mode. -/
def fabricOn (s : State) : Bool := trafficOn s && s.fabric.connected

/-- PRESENCE. -/
def execPresence (d _seq : Nat) (payload : List Byte) (s : State) : Host.Outcome State Fault Refusal :=
  answer s (if fabricOn s && decide (d < 2048) then onPresence d payload s else s)
/-- PORT_STATUS. -/
def execPortStatus (d _seq : Nat) (payload : List Byte) (s : State) : Host.Outcome State Fault Refusal :=
  answer s (if fabricOn s && decide (d < 2048) then onPortStatus d payload s else s)
/-- DEVICE_DOWN. -/
def execDeviceDown (d inc : Nat) (s : State) : Host.Outcome State Fault Refusal :=
  answer s (if fabricOn s then onDeviceDown d inc s else s)
/-- PRESENCE_TIMEOUT: 3 ms without a PRESENCE cell. -/
def execPresenceTimeout (d : Nat) (s : State) : Host.Outcome State Fault Refusal :=
  answer s (if fabricOn s && (peerOf s d).present && (peerOf s d).seen + 3000000 ≤ s.time.uptime then deviceGone d s else s)

/-- Payload of a PRESENCE cell. -/
def presencePayload (s : State) : List Byte :=
  let states := (List.range 192).foldl (fun a p => a + (portOf s p).link % 4 * 4 ^ p) 0
  beBytes 2 (incarnation s) ++ leBytes 48 states ++ zeros 14
/-- PRESENCE_SEND (R297). -/
def execPresenceSend (s : State) : Host.Outcome State Fault Refusal :=
  answer s (if fabricOn s then floodCell 4 (presencePayload s) s else s)

/-- DEVICE_DOWN on every ACTIVE fabric lane (R300), twice where there is only one (R289). -/
def floodDown (s : State) : State :=
  let lanes := spraySet s
  if lanes.isEmpty then s
  else
    let h : CellHead := { typ := 5, dest := 0, src := s.fabric.device, voq := 0, seq := s.fabric.floodSeq, paylen := 0,
                          firstValid := false, firstOff := 0 }
    let bs := cellBytes h (fit 64 (beBytes 2 (incarnation s)))
    let lanes := if lanes.length = 1 then lanes ++ lanes else lanes
    emits (lanes.map (fun l => Out.cell l bs)) { s with fabric.floodSeq := (s.fabric.floodSeq + 1) % 2 ^ 24 }
/-- DEVICE_DOWN_FLOOD: in the safe state. -/
def execDeviceDownFlood (s : State) : Host.Outcome State Fault Refusal :=
  answer s (if running s && s.faults.safe && s.fabric.connected then floodDown s else s)

/-! ### Receiving cells (R284, R285) -/

/-- One delineated cell. -/
def takeCell (lane : Nat) (h : CellHead) (crc : Nat) (payload : List Byte) (s : State) : State :=
  let bad := count 0x0E 0 0 1 s
  if pcrc payload != crc then count 0x0E 0 1 1 s
  else if 5 < h.typ || 12 < h.paylen || (h.typ != 1 && h.paylen != 0) then bad
  else if h.typ = 3 then onPortStatus h.src payload s
  else if h.typ = 4 then onPresence h.src payload s
  else if h.typ = 5 then onDeviceDown h.src (beNat (payload.take 2)) s
  else if h.dest != s.fabric.device || !(peerOf s h.src).present then bad
  else
    let s := count 0x0F h.src 2 1 s
    streamCell h.src h.seq { typ := h.typ, firstValid := h.firstValid, firstOff := h.firstOff, payload := payload, voq := h.voq,
                             lane := lane - 192, at_ := s.time.uptime } s

/-- Search the words of a lane for headers (R285). -/
def delineate (lane : Nat) : Nat → List Byte → State → State
  | 0, _, s => s
  | n + 1, bs, s =>
    if bs.length < 16 then s
    else match readHead bs with
      | none => delineate lane n (bs.drop 16) s
      | some (h, crc) =>
        let len := 16 * (h.paylen + 4)
        if bs.length < 16 + len then s
        else delineate lane n (bs.drop (16 + len)) (takeCell lane h crc ((bs.drop 16).take len) s)

/-- CELL_RECEIVE: what arrives on an ACTIVE fabric lane. -/
def execCellReceive (lane : Nat) (bs : List Byte) (s : State) : Host.Outcome State Fault Refusal :=
  answer s (if fabricOn s && isFabricLane lane && (laneOf s lane).state == 4 then delineate lane (bs.length / 16 + 1) bs s else s)

/-! ### DEVICE_SET_MODE (R3, R305) -/

/-- Leave the old mode: VOQs for other devices are flushed, balances, requests and books cleared. -/
def clearMode (s : State) : State :=
  let far := (s.sched.voqs.map (fun e => e.1 / 8)).eraseDups.filter (fun g =>
    (voqBindOf s g).kind == 1 && (voqBindOf s g).device != s.fabric.device)
  let s := far.foldl (fun s g => flushGroup false g (fun v => (0x0C, v, 6)) s) s
  let s := s.fabric.peers.foldl (fun s p => p.2.pendRecs.foldl (fun s r => dropPkt r.head 0x0C r.voq 6 s) s) s
  let s := { s with sched.voqs := mmap s.sched.voqs (fun _ q => { q with credit := 0, requesting := false, reqSince := 0 }) }
  { s with sched.targets := mmap s.sched.targets (fun _ x => { x with
      requests := [], books := [], gseq := [], sent := [] }) }

/-- PD_FAB0 or PD_FAB1 is powered down for fabric-less mode (R4): a trial power-up of one that is held off ends, and the self-test that waits for it fails (DESIGN CHOICE, log entry 47). -/
def fabricOff (d : Nat) (s : State) : State :=
  if (domainOf s d).heldOff then
    let s := rampOver d (modDomain d (fun x => { x with ramping := false })
      { s with power.waiting := s.power.waiting.filter (· != d) })
    (trialsOf d s).foldl (fun s t => endTest t false s) s
  else switchOff d s

/-- DEVICE_SET_MODE, 0x0102 O: a long command (R45). -/
def deviceSetModeSpec : CmdSpec :=
  { opcode := 0x0102, kind := .o, layout := plain 8 [rsv 1 7]
    fields := fun c s => firstFail [(decide (c.at 0 1 ≤ 1), badField 0), (c.at 0 1 == 0 || !isB1S s, failWith St.notPresent)]
    run := fun c s =>
      if (c.at 0 1 == 1) == s.fabric.connected then .ok { s := s, log := .silent }
      else if s.ports.any (fun p => p.2.enabled) || s.fabric.octets.any (fun o => o.2.enable) then .error (failWith St.wrongState)
      else
        let s := { clearMode s with fabric.connected := c.at 0 1 == 1, fabric.peers := [] }
        let s := if c.at 0 1 = 0 then fabricOff 17 (fabricOff 18 s) else s
        .ok { s := s.sched.voqs.foldl (fun s q => voqSettle q.1 s) s } }

/-! ### FABRIC_DEVICE_SET and FABRIC_GET (R282) -/

/-- FABRIC_DEVICE_SET, 0x0C03 C. -/
def fabricDeviceSetSpec : CmdSpec :=
  { opcode := 0x0C03, kind := .c, layout := plain 264 [rsv 6 2]
    fields := fun c _ => firstFail [
      (decide (c.at 0 2 < 2048), badField 0), (decide (1 ≤ c.at 3 1) && decide (c.at 3 1 ≤ 100), badField 3),
      (decide (20 ≤ c.at 4 2) && decide (c.at 4 2 ≤ 1000), badField 4)]
    objects := fun _ _ => [objKey 29 0 1]
    object := fun c _ _ => c.at 0 2
    apply := fun c s =>
      if c.at 0 2 != s.fabric.device && s.fabric.octets.any (fun o => o.2.enable) then .error (failWith St.wrongState)
      else .ok ({ s with fabric := { s.fabric with
        device := c.at 0 2, carry := c.at 2 1, reorderUs := c.at 3 1, fillNs := c.at 4 2, expected := c.at 8 256 } }, []) }

/-- FULL_RATE (R303): at least 208 ACTIVE lanes at 212.5 Gb/s. -/
def fullRate (s : State) : Bool := decide (208 ≤ ((spraySet s).filter (fun l => (octetOf s (l / 8)).rate == 4)).length)
/-- FAB_STATUS. -/
def fabStatusWord (s : State) : Nat :=
  s.fabric.device + b2n s.fabric.connected * 2 ^ 11 + (spraySet s).length * 2 ^ 12 + b2n (fullRate s) * 2 ^ 21 +
  incarnation s * 2 ^ 32
/-- FAB_PEER_STATUS. -/
def fabPeerWord (s : State) (d : Nat) : Nat :=
  let p := peerOf s d
  b2n p.present + b2n (bit s.fabric.expected d) * 2 + (if p.present then p.incarnation else 0) * 4 + p.nextSeq * 2 ^ 18 +
  counter s 0x0F d 0 % 2 ^ 22 * 2 ^ 42

/-- Sum of the books of a target over the devices. -/
def bookTotals (s : State) (t : Nat) : Nat × Nat × Nat :=
  (targetOf s t).books.foldl (fun a b => (a.1 + b.2.1, a.2.1 + b.2.2.1, a.2.2 + b.2.2.2)) (0, 0, 0)
/-- FABRIC_GET's result. -/
def fabricGetResult (s : State) (sec i : Nat) : List Byte :=
  match sec with
  | 0 => leBytes 2 s.fabric.device ++ leBytes 1 s.fabric.carry ++ leBytes 1 s.fabric.reorderUs ++ leBytes 2 s.fabric.fillNs ++
      zeros 2 ++ leBytes 256 s.fabric.expected
  | 1 =>
    let o := octetOf s i
    leBytes 1 i ++ leBytes 1 (b2n o.enable) ++ leBytes 1 o.mask ++ leBytes 1 o.rate ++ leBytes 1 o.txInvert ++
    leBytes 1 o.rxInvert ++ leBytes 1 o.training ++ zeros 1 ++ leBytes 2 o.uncorrLimit ++ leBytes 2 o.retryMs ++ zeros 4
  | 2 => leBytes 8 (fabPeerWord s i)
  | _ =>
    let b := bookTotals s i
    leBytes 8 b.1 ++ leBytes 8 b.2.1 ++ leBytes 8 b.2.2

/-- FABRIC_GET, 0x0C01 R. -/
def fabricGetSpec : CmdSpec :=
  { opcode := 0x0C01, kind := .r, layout := plain 8 [rsv 1 3]
    resLen := fun c s => (fabricGetResult s (c.at 0 1) (c.at 4 4)).length
    fields := fun c s => firstFail [
      (decide (c.at 0 1 ≤ 3), badField 0),
      (match c.at 0 1 with
        | 0 => c.at 4 4 == 0 | 1 => decide (24 ≤ c.at 4 4) && decide (c.at 4 4 ≤ 61) | 2 => decide (c.at 4 4 < 2048)
        | _ => decide (c.at 4 4 < 194), badField 4),
      (c.at 0 1 != 1 || !isB1S s, failWith St.notPresent)]
    run := fun c s => .ok { s := s, result := fabricGetResult s (c.at 0 1) (c.at 4 4), log := .silent } }

end Sys2Proof.Machine
end

