-- ==== Sys2Proof/Machine/Pair.lean ====
section
/-! DEFINITION. The pair: link, sideband, formation, roles, peer failure, switchover, counter deltas and redirected traffic (R306-R312, R314, R320-R327 11_pair_operation). The snapshot and the journal records that a member applies stand in Replication.lean. -/

namespace Sys2Proof.Machine

/-! ### Ports held disabled (R312, R314) -/

/-- Hold every network port disabled, and keep which the replicated state holds enabled. -/
def holdPorts (s : State) : State :=
  let on := (s.ports.filter (fun p => p.2.enabled)).map (·.1)
  let s := on.foldl (fun s n => disablePort n s) s
  { s with pair.holding := true, pair.held := (s.pair.held ++ on).eraseDups }
/-- Enable the network ports that the replicated state holds enabled. -/
def releasePorts (s : State) : State :=
  let on := s.pair.held
  on.foldl (fun s n => if (portOf s n).phys.isSome then enablePort n s else s) { s with pair.holding := false, pair.held := [] }

/-- Set the replicated state to its reset values (R313, R314); SAs and everything local stay. -/
def resetReplicated (s : State) : State :=
  let s := (s.ports.map (·.1)).foldl (fun s n => disablePort n s) s
  let s := { s with
    ports := mmap s.ports (fun _ p => { sas := p.sas, pnWarn := p.pnWarn, downCount := p.downCount, change := p.change, conds := p.conds })
    groups := [], bank := {}, bankOld := {}, buckets := [], mirrors := [], samplers := [], tables := [], ruleGroups := []
    mgt.tombs := [], monitors := [], dumps := [], buf.acctCfg := []
    buf.pools := mmap s.buf.pools (fun i p => { poolReset i with
      used := p.used, blocks := p.blocks, warnOn := p.warnOn, pauseOn := p.pauseOn, stopOn := p.stopOn })
    sched.voqs := mmap s.sched.voqs (fun _ q => { q with cfg := none })
    sched.eqs := mmap s.sched.eqs (fun _ q => { q with cfg := none }) }
  let s := { s with
    sched.voqBind := [], sched.eqBind := [], sched.destMap := [], sched.arrival := [], sched.nodes := [], sched.profiles := []
    sched.gates := []
    sched.targets := mmap s.sched.targets (fun _ t => { t with rateM := 0, rateE := 0, stopKib := 1024, resumeKib := 768 })
    tahr.channels := mmap s.tahr.channels (fun _ c => { slots := c.slots, order := c.order })
    tahr.cores := mmap s.tahr.cores (fun _ c => { c with userRead := false, selects := [] })
    tahr.clusters := mmap s.tahr.clusters (fun _ c => { c with dumpDest := 0, dumpPeriod := 0, dumpBase := 0, dumpDepth := 0 }) }
  (List.range 64).foldl (fun s p => if (mget s.buf.pools p).isSome then poolLevels p s else s) s

/-! ### Roles (R309-R312, R322-R325) -/

/-- A commit that applies what the active has sent is under way. -/
def peerCommit (k : Commit) : Bool := match k.goal with | .replay _ _ => true | .snapshot => true | _ => false
/-- What the active has sent is being applied. -/
def peerBusy (s : State) : Bool := s.mgt.commits.any peerCommit
/-- Records received make up a whole transaction, batch or single command (R315). -/
def unitReceived (s : State) : Bool :=
  match s.pair.received with
  | [] => false
  | r :: _ => r.status != 0 || r.isCommit || r.cmd.txnId == 0 || s.pair.received.any (·.isCommit)

/-- Begin a synchronisation as the member that loads (R314 step 1). -/
def beginSync (inc : Nat) (s : State) : State :=
  let s := setRole 2 (resetReplicated { s with mgt.commits := s.mgt.commits.filter (fun k => !peerCommit k) })
  let s := { s with pair.holding := true, pair.held := [], pair.snapped := false, pair.received := [], pair.appliedSeq := 0,
                    pair.syncPoint := none, pair.takingOver := false, pair.switchHead := none }
  journalMarker 5 (inc % 2 ^ 16) s

/-- Leave the pair: ALONE, and whatever was held forwards again. `recorded`: the change of role gets a record of its own, where no PAIR_SET of this member tells of it. -/
def leavePair (recorded : Bool) (s : State) : State :=
  if s.pair.role = 0 then s
  else
    let s := pairPortsDown (if recorded then changeRole 0 0 s else setRole 0 s)
    releasePorts { s with pair.syncPoint := none, pair.received := [], pair.snapped := false, pair.armed := none,
                          pair.switching := 0, pair.peerRole := 0, pair.appliedSeq := 0, pair.appliedGen := 0, pair.ackedSeq := 0,
                          pair.peerApplied := 0, pair.takingOver := false, pair.switchHead := none, pair.unacked := [], pair.txSeq := [], pair.rxSeq := [] }
/-- Leave the pair for a reason that no command of this member gives. -/
def dissolve (s : State) : State := leavePair true s

/-- What a member leaves behind as it becomes ACTIVE. -/
def activeState (s : State) : State :=
  { s with pair.received := [], pair.armed := none, pair.switching := 0, pair.takingOver := false, pair.switchHead := none }
/-- Become ACTIVE. -/
def becomeActive (s : State) : State := changeRole 4 4 (activeState s)

/-- The last steps of a takeover (R322): incomplete transactions are discarded, the role is ACTIVE, and the marker of cause 6 names the last record applied. -/
def takeOverNow (s : State) : State :=
  let applied := s.pair.appliedSeq
  let s := setRole 4 (activeState { s with pair.syncPoint := none, pair.peerRole := 0 })
  { journalMarker 6 applied s with pair.takeovers := (s.pair.takeovers + 1) % 2 ^ 16 }
/-- Take over (R322): once every complete transaction and batch received is applied. -/
def takeOver (s : State) : State := if peerBusy s || unitReceived s then { s with pair.takingOver := true } else takeOverNow s

/-- A STANDBY member that has lost the active: it takes over unless PAIR_ACT_IN is high (R322). -/
def standbyAlone (s : State) : State :=
  if s.pair.actIn then changeRole 5 5 { s with pair.received := [], pair.switching := 0, pair.switchHead := none } else takeOver s

/-- The ACTIVE member goes on without a peer that applies its records, whose role it takes as `role`: nothing it still lacks holds back release, and a switchover is cancelled (R319, R323, R325). -/
def peerAway (role : Nat) (s : State) : State :=
  let s := { s with pair.syncPoint := none, pair.peerRole := role, pair.armed := none, pair.switching := 0 }
  if s.journal.release ≤ s.journal.relWanted then releaseTo s.journal.relWanted s else s
/-- The peer is declared failed (R321, R322). -/
def peerFailed (s : State) : State :=
  let s := pairPortsDown s
  match s.pair.role with
  | 3 => standbyAlone s
  | 2 => changeRole 5 5 { s with pair.received := [], pair.snapped := false }
  | 4 => peerAway 0 { s with pair.unacked := [] }
  | _ => s

/-- Own stepping, as OTP word 1 reads it. -/
def ownStepping (s : State) : Nat := otpWord s 1 % 256

/-- The members may not form a pair: stepping or mode differ, or the PAIR_ID straps read the same (R5, R310). -/
def mismatched (b : Beat) (s : State) : Bool :=
  b.stepping != ownStepping s || b.mode != b2n s.fabric.connected || b.pairId == s.power.pairId

/-- Formation under R310 and R311. A peer that is ACTIVE already stays active (DEDUCED, log entry 33). -/
def formPair (b : Beat) (s : State) : State :=
  if b.role = 4 then beginSync b.incarnation s
  else if s.pair.cfg.priority < b.priority || (s.pair.cfg.priority = b.priority && s.power.pairId) then beginSync b.incarnation s
  else becomeActive s

/-- Port states that a HEARTBEAT reports (R327). -/
def beatPorts (ps : List Nat) (s : State) : State :=
  (List.range (min 192 ps.length)).foldl (fun s p => applyPairPort p (ps.getD p 0 % 4) s) s

/-- Every record of the active before `head` that is sent to this member has been applied. Records of local classes are not sent (R315), so a gap between the last SEQ applied and `head` may hold nothing for this member: a free value decides (log entry 84). -/
def caughtUp (head : Nat) (s : State) : Bool × State :=
  if !s.pair.received.isEmpty || peerBusy s then (false, s)
  else if head ≤ s.pair.appliedSeq + 1 then (true, s)
  else let r := draw 1 s; (r.1 == 1, r.2)

/-- What a HEARTBEAT does to the role. A mismatch found at any time takes the member out of the pair (R5, R310). -/
def beatRole (b : Beat) (s : State) : State :=
  if s.pair.role != 0 && mismatched b s then { dissolve s with pair.mismatch := true }
  else match s.pair.role with
  | 1 => formPair b s
  | 5 => if b.role = 4 then beginSync b.incarnation s else s
  | 2 =>
    if !s.pair.snapped || b.role != 4 then s
    else match caughtUp b.journalHead s with
      | (true, s) => releasePorts (changeRole 3 3 s)
      | (false, s) => s
  | 3 => if s.pair.switching = 2 && b.role = 3 then
      becomeActive { s with pair.peerRole := 3, pair.syncPoint := some (s.journal.head - 1) } else s
  | 4 =>
    let s := if b.role = 2 || b.role = 3 then s else { s with pair.syncPoint := none }
    if s.journal.release ≤ s.journal.relWanted then releaseTo s.journal.relWanted s else s
  | _ => s

/-- The peer has restarted: the sequences of the reliable classes begin anew in both directions (R307; DESIGN CHOICE, log entry 80). -/
def newPeer (inc : Nat) (s : State) : State :=
  if s.pair.peerInc = 0 || s.pair.peerInc = inc then s else { s with pair.unacked := [], pair.txSeq := [], pair.rxSeq := [] }
/-- HEARTBEAT. -/
def heartbeat (b : Beat) (s : State) : State :=
  if !running s || !s.pair.cfg.enable || s.pair.link = 0 then s
  else
    let s := newPeer (b.incarnation % 2 ^ 16) s
    let s := { s with pair.beatAt := some s.time.uptime, pair.peerRole := b.role, pair.peerInc := b.incarnation % 2 ^ 16,
                      pair.peerApplied := b.applied }
    beatRole b (beatPorts b.ports s)

/-- HEARTBEAT_SEND (R307). -/
def execHeartbeatSend (s : State) : Host.Outcome State Fault Refusal :=
  answer s (if running s && s.pair.cfg.enable && s.pair.link != 0 then
    pairSend 1 ([s.pair.role, incarnation s, s.journal.head, s.pair.appliedSeq] ++ (List.range 192).map (fun p => (portOf s p).link)) s
  else s)

/-- PAIR_BEAT_TOGGLE (R308): not in the safe state, without power, or while the firmware does not refresh it. -/
def execPairBeatToggle (s : State) : Host.Outcome State Fault Refusal :=
  answer s (if running s && s.pair.cfg.enable && !s.faults.safe && !s.boot.restarting && (domainOf s 19).on then
    { s with pair.beatOut := !s.pair.beatOut }
  else s)

/-- PAIR_BEAT_IN: a change of level refreshes the sideband path. -/
def execPairBeatIn (level : Bool) (s : State) : Host.Outcome State Fault Refusal :=
  answer s (if level = s.pair.beatIn then s else { s with pair.beatIn := level, pair.sideAt := some s.time.uptime })

/-- PAIR_ACT_IN; the new active of a switchover follows the old one's PAIR_ACT_OUT. -/
def execPairActIn (level : Bool) (s : State) : Host.Outcome State Fault Refusal :=
  answer s (
    let s' := { s with pair.actIn := level, pair.actInSince := if level && !s.pair.actIn then s.time.uptime else s.pair.actInSince }
    if running s && !level && s.pair.role = 3 && s.pair.switching = 2 then
      becomeActive { s' with pair.peerRole := 3, pair.syncPoint := some (s.journal.head - 1) }
    else s')

/-- SPLIT_BRAIN (R324): the event is journalled as a record of the firmware's own, with the peer's incarnation (DESIGN CHOICE, log entry 34). -/
def execSplitBrain (s : State) : Host.Outcome State Fault Refusal :=
  answer s (if running s && s.pair.role = 4 && s.pair.actIn && s.pair.actInSince + 10000 ≤ s.time.uptime && s.power.pairId then
    (journalFw 0x0D00 s.pair.peerInc (resId 0x1C 0) (fwAbortAll (setRole 5 { s with pair.syncPoint := none, pair.armed := none, pair.switching := 0 }))).2
  else s)

/-- The link is DOWN while the sideband beats (R323, R325): a peer that was SYNCING or STANDBY is ISOLATED. A new active that has acknowledged a SWITCH takes over under R322. -/
def linkLost (s : State) : State :=
  match s.pair.role with
  | 3 => if s.pair.switching = 2 then standbyAlone s else changeRole 5 5 { s with pair.received := [], pair.switchHead := none }
  | 2 => changeRole 5 5 { s with pair.received := [], pair.snapped := false }
  | 4 => peerAway (if s.pair.peerRole = 2 || s.pair.peerRole = 3 then 5 else s.pair.peerRole) s
  | _ => s

/-- PAIR_DISSOLVE (R309): the peer has dissolved the pair. -/
def execPairDissolve (s : State) : Host.Outcome State Fault Refusal :=
  answer s (if running s && s.pair.link != 0 then dissolve s else s)

/-- PAIR_PORT_MESSAGE (R327): CHANGE 1 to 127 ahead. -/
def execPairPortMessage (port st change : Nat) (s : State) : Host.Outcome State Fault Refusal :=
  answer s (
    let s := pairTaken 3 s
    let ahead := (change + 256 - mgetD s.pair.changes port 0) % 256
    if !running s || s.pair.link = 0 || 192 ≤ port || ahead = 0 || 127 < ahead then s
    else applyPairPort port (st % 4) { s with pair.changes := mset s.pair.changes port (change % 256) })

/-! ### PAIR_SET and PAIR_GET (R309) -/

/-- PAIR_SET as a payload. -/
def pairCfgOf (c : Cmd) : PairCfg :=
  { enable := c.at 0 1 == 1, priority := c.at 1 1, syncCommit := c.at 2 1 == 1, standbyLearn := c.at 3 1 == 1, carry := c.at 4 1,
    rate := c.at 5 1, txInvert := c.at 6 2, rxInvert := c.at 8 2 }

/-- Power the pair octets and their lanes by ENABLE. -/
def settlePairLanes (s : State) : State :=
  if s.pair.cfg.enable then startOctet 63 (startOctet 62 (switchOn 19 s))
  else switchOff 19 (stopOctet 63 (stopOctet 62 s))

/-- PAIR_SET, 0x0D02 C. A DIVERGED member stands outside the formed pair: ENABLE 0 there sends no dissolution, and the active stays ACTIVE for the new synchronisation of R317 (DEDUCED, log entry 85). -/
def pairSetSpec : CmdSpec :=
  { opcode := 0x0D02, kind := .c, layout := plain 16 [rsv 10 6]
    fields := fun c _ => firstFail [
      (decide (c.at 0 1 ≤ 1), badField 0), (decide (c.at 2 1 ≤ 1), badField 2), (decide (c.at 3 1 ≤ 1), badField 3),
      (c.at 5 1 == 3 || c.at 5 1 == 4, badField 5)]
    objects := fun _ _ => [objKey 29 0 2]
    apply := fun c s =>
      let old := s.pair.cfg
      let new := pairCfgOf c
      if old.enable && (old.rate != new.rate || old.txInvert != new.txInvert || old.rxInvert != new.rxInvert) then
        .error (failWith St.wrongState)
      else
        let s := if old.enable && !new.enable && [2, 3, 4, 5].contains s.pair.role && s.pair.link != 0 then pairSend 3 [3] s else s
        let s := if new.enable then s else leavePair false s
        let s := settlePairLanes { s with pair.cfg := new }
        .ok (if new.enable && s.pair.role = 0 then setRole 1 { s with pair.mismatch := false } else s, []) }

/-- PAIR_SET as last committed. -/
def pairCfgBytes (p : PairCfg) : List Byte :=
  leBytes 1 (b2n p.enable) ++ leBytes 1 p.priority ++ leBytes 1 (b2n p.syncCommit) ++ leBytes 1 (b2n p.standbyLearn) ++
  leBytes 1 p.carry ++ leBytes 1 p.rate ++ leBytes 2 p.txInvert ++ leBytes 2 p.rxInvert ++ zeros 6

/-- PAIR_GET, 0x0D01 R. -/
def pairGetSpec : CmdSpec :=
  { opcode := 0x0D01, kind := .r, layout := plain 0 [], resLen := fun _ _ => 48
    run := fun _ s => .ok {
      s := s, log := .silent
      result := pairCfgBytes s.pair.cfg ++ leBytes 8 (pairStatusWord s) ++ leBytes 8 s.pair.appliedSeq ++ leBytes 8 s.pair.ackedSeq ++
        leBytes 8 s.pair.appliedGen } }

/-! ### Switchover (R325) -/

/-- PAIR_SWITCHOVER, 0x0D03 O. -/
def pairSwitchoverSpec : CmdSpec :=
  { opcode := 0x0D03, kind := .o, layout := plain 8 []
    run := fun c s =>
      if s.pair.role != 4 || s.pair.peerRole != 3 then .error (failWith St.wrongState)
      else .ok { s := { s with pair.armed := some (c.at 0 8) } } }

/-- SWITCHOVER_START: at AT_NTIME, once no commit is in progress; SWITCH carries the SEQ of the last written record. -/
def execSwitchoverStart (s : State) : Host.Outcome State Fault Refusal :=
  answer s (match s.pair.armed with
    | none => s
    | some t =>
      if !running s || s.pair.role != 4 || s.pair.peerRole != 3 || s.pair.link = 0 || s.time.ntime < t || !s.mgt.commits.isEmpty then s
      else
        let s := fwAbortAll { s with pair.armed := none, pair.switching := 1 }
        pairSend 3 [4, s.journal.head - 1] s)

/-- A SWITCH is acknowledged once every record up to its SEQ has been applied; the member then waits for the old active (R325). -/
def settleSwitch (s : State) : State :=
  match s.pair.switchHead with
  | none => s
  | some h =>
    if s.pair.role != 3 || s.pair.link = 0 then s
    else match caughtUp (h + 1) s with
      | (true, s) => pairSend 3 [5] { s with pair.switching := 2, pair.switchHead := none }
      | (false, s) => s

/-- SWITCHOVER_ACK: the old active becomes STANDBY. -/
def execSwitchoverAck (s : State) : Host.Outcome State Fault Refusal :=
  answer s (let s := pairTaken 3 s
  if running s && s.pair.role = 4 && s.pair.switching = 1 && s.pair.link != 0 then
    changeRole 3 3 { s with pair.switching := 0, pair.syncPoint := none, pair.snapped := true, pair.appliedSeq := 0, pair.received := [] } else s)

/-! ### Counter deltas (R320) -/

/-- Pairs with increments since the last delta: (table, index, packets, octets). -/
def deltas (s : State) : List (Nat × Nat × Nat × Nat) :=
  (s.tables.map (fun t => (((mgetD t.2.insts 0 {}).pairs.filter (fun p => p.2.deltaPackets != 0 || p.2.deltaOctets != 0)).map
    (fun p => (t.1, p.1, p.2.deltaPackets, p.2.deltaOctets))))).flatten

/-- DELTA_SEND. -/
def execDeltaSend (s : State) : Host.Outcome State Fault Refusal :=
  answer s (
    let ds := deltas s
    if !trafficOn s || s.pair.link = 0 || s.pair.role < 2 || ds.isEmpty then s
    else
      let s := { s with tables := mmap s.tables (fun _ t => { t with insts := mmap t.insts (fun _ i => { i with
        pairs := mmap i.pairs (fun _ p => { p with deltaPackets := 0, deltaOctets := 0 }) }) }) }
      pairSend 5 (ds.map (fun d => [d.1, d.2.1, d.2.2.1, d.2.2.2])).flatten s)

/-- Add one delta to the peer copy; discarded for a pair that is absent. -/
def addDelta (d : Nat × Nat × Nat × Nat) (s : State) : State :=
  match tableOf s d.1 with
  | none => s
  | some x =>
    match mget (instOf x 0).pairs d.2.1 with
    | none => s
    | some p =>
      if x.kind != 4 || isTomb s 0 d.1 d.2.1 then s
      else
        let p' := { p with peerPackets := (p.peerPackets + d.2.2.1) % 2 ^ 64, peerOctets := (p.peerOctets + d.2.2.2) % 2 ^ 64 }
        modInst d.1 0 (fun i => { i with pairs := mset i.pairs d.2.1 p' }) s

/-- COUNTER_DELTA: the sequence number of the message in its class, and its deltas. One that has been received before is discarded (R307, R320); its acknowledgement goes out again. -/
def execCounterDelta (m : Nat × List (Nat × Nat × Nat × Nat)) (s : State) : Host.Outcome State Fault Refusal :=
  let due := mgetD s.pair.rxSeq 5 0
  answer s (if !trafficOn s || s.pair.link = 0 then s
    else if m.1 = due then m.2.foldl (fun s d => addDelta d s) (pairTaken 5 s)
    else if (due + 2 ^ 32 - m.1) % 2 ^ 32 < 2 ^ 31 then pairEmit 3 0 [10, 5, m.1] s
    else s)

/-! ### Redirected traffic (R326) -/

/-- REDIRECT_RECORD: a record from the peer for a port of this member. -/
def redirectRecord (bs : List Byte) (s : State) : State :=
  let len := u16 bs 0
  let port := u8 bs 2
  if bs.length < 24 || len = 0 || bs.length < recordLen bs || 192 ≤ port then count 0x11 0 2 1 s
  else
    let s := count 0x11 0 6 len (count 0x11 0 5 1 s)
    match arrivalQueue s 1 port (u8 bs 3 % 8) with
    | none => count 0x0C 0 7 1 s
    | some e =>
      let h := recordHead s bs
      arriveOn 0x0D e { h with meta_ := poke h.meta_ 4 (leBytes 1 (s.mgt.curTag + s.mgt.curTag % 2 * 8)) } s
/-- REDIRECT_RECORD. -/
def execRedirectRecord (bs : List Byte) (s : State) : Host.Outcome State Fault Refusal :=
  answer s (if trafficOn s && s.pair.link != 0 then redirectRecord bs s else s)

end Sys2Proof.Machine
end

