-- ==== Sys2Proof/Machine/Egress.lean ====
section
/-! DEFINITION. Egress dequeue: frames for ports enter the egress stages over the die bridge, frames for slices go to RX descriptors, frames for the pair link leave as redirect records (R200, R245, R260, R277, R388, R326, R411). -/

namespace Sys2Proof.Machine

/-- Nanoseconds until the gate of a queue next closes; none where it never closes (R276). -/
def gateLeftOf (s : State) (port q : Nat) : Option Nat :=
  match (gateOf s port).oper with
  | none => none
  | some l =>
    let segs := gateSegs l.cycle l.entries
    openFor q ((gateAt 0 (gatePos l s.time.ntime) segs).2 ++ segs)

/-- Bytes 128 to 143 of the metadata at egress entry; bytes 144 to 255 are zero (R200). -/
def egressMeta (port e sojourn len : Nat) (m : List Byte) : List Byte :=
  fit 128 m ++ leBytes 2 port ++ zeros 2 ++ leBytes 4 e ++ leBytes 4 (min sojourn (2 ^ 32 - 1)) ++ leBytes 2 len ++ zeros 114

/-- The packet that enters the egress stages. -/
def egressPkt (s : State) (port e seg : Nat) (h : Head) : Pkt :=
  { frame := h.frame
    meta_ := egressMeta port e ((s.time.uptime : Int) - h.voqAt.getD h.enq).toNat h.frame.length h.meta_
    hv := zeros 256, source := u16 h.meta_ 0, pipe := port / 16, egress := true, tag := u8 h.meta_ 4 % 8, born := s.time.uptime
    handle := seg, queue := e, maxFrame := (portOf s port).fwd.maxFrame, gateLeft := gateLeftOf s port (e % 8) }

/-- A frame for a port: the egress reader takes it over, it crosses in DC1 and enters the egress stages, and with its last segment read its buffer is released (R227). -/
def toPort (port e seg : Nat) (s : State) : State :=
  let k := egressPkt s port e seg (mgetD s.buf.heads seg {})
  let s := bridgeBack (.packet s.nextPkt) (modHead seg (fun h => { h with owner := 0x0F }) s)
  freePkt seg { s with pkts := mset s.pkts s.nextPkt k, nextPkt := s.nextPkt + 1 }

/-- A frame for a slice: host DMA delivers or drops it, and its buffers are released. -/
def toSlice (sl e seg : Nat) (s : State) : State :=
  freePkt seg (rxDeliver sl (e % 8) (mgetD s.buf.heads seg {}) (bridgeCross 1 1 s))

/-- A frame for the pair link: a record, counted as redirected. -/
def toPair (port e seg : Nat) (s : State) : State :=
  let h := mgetD s.buf.heads seg {}
  let bs := poke (recordBytes s.pair.cfg.carry port (e % 8) h) 12 (leBytes 4 (ageUs s h))
  freePkt seg (pairRedirect bs (count 0x11 0 4 h.recLen (count 0x11 0 3 1 s)))

/-- EGRESS_DEQUEUE of a target: 0-191 ports, 192 host DMA, 193 the pair link. -/
def egressDequeue (target : Nat) (s : State) : State :=
  if !trafficOn s || 193 < target || !bridgeOn s || (target < 193 && !dc1Credit s) then s
  else match selectEgress target s with
    | (none, s) => s
    | (some (q, path), s) =>
      match (queueOf s q).head with
      | [] => s
      | seg :: _ =>
        let b := eqBindOf s (q.num / 8)
        let s := chargePath path (frameLen s seg) s
        let s := qSettle q (popHead q (monEvent 3 q.num (s.time.uptime - (mgetD s.buf.heads seg {}).enq) s))
        if inFencedBank s seg then bankDrop seg s
        else if b.kind = 1 then toPort b.target q.num seg s
        else if b.kind = 2 then toSlice b.target q.num seg s
        else toPair b.target q.num seg s

/-- EGRESS_DEQUEUE. -/
def execEgressDequeue (target : Nat) (s : State) : Host.Outcome State Fault Refusal := answer s (egressDequeue target s)

end Sys2Proof.Machine
end

