-- ==== Sys2Proof/Machine/Jobs.lean ====
section
/-! DEFINITION. The accelerators: dispatch by deficit round robin, sessions, and what each operation computes (R386, R389-R392 13_host_interface). -/

namespace Sys2Proof.Machine

/-! ### Sessions (R391) -/

/-- Key of a session. -/
def sessKey (sl n : Nat) : Nat := sl * 1024 + n
/-- Key length an ALG takes; none for HMAC, which takes 1 to 64. -/
def algKey (alg : Nat) : Option Nat := if [1, 6, 8].contains alg then some 16 else if [2, 7, 9].contains alg then some 32 else none
/-- A session record is within R391. -/
def sessionOk (r : List Byte) : Bool :=
  decide (u8 r 0 ≤ 9) && u8 r 2 / 4 == 0 && u8 r 3 == 0 && u64 r 24 == 0 && decide (u32 r 20 ≤ 1024) &&
  (u8 r 0 == 0 || (match algKey (u8 r 0) with
    | some n => u8 r 1 == n
    | none => decide (1 ≤ u8 r 1) && decide (u8 r 1 ≤ 64)))
/-- The session that a record makes, given what the index holds. -/
def sessionOf (r : List Byte) (old : Option Session) : Session :=
  let key := (r.drop 32).take (u8 r 1)
  let new : Session := {
    alg := u8 r 0, keyLen := u8 r 1, flags := u8 r 2, spi := u32 r 4, seq := u64 r 8, salt := u32 r 16, window := u32 r 20
    key := some key, digest := (sha256 key).take 8, seen := [] }
  match old with
  | some o => if bit (u8 r 2) 1 then { new with seq := o.seq, window := o.window, seen := o.seen } else new
  | none => new
/-- The journalled payload of a SESSION_LOAD: the key replaced by 8 bytes of its digest. -/
def sessionShown (r : List Byte) : List Byte := r.take 32 ++ (sha256 ((r.drop 32).take (u8 r 1))).take 8 ++ zeros 56

/-- SESSION_LOAD: its STATUS, and the session written and journalled. -/
def sessionLoad (sl n : Nat) (r : List Byte) (s : State) : Nat × State :=
  let k := sessKey sl n
  let old := mget s.host.sessions k
  if !sessionOk r then (0x14, s)
  else if u8 r 0 != 0 && old.isNone && 65536 ≤ s.host.sessions.length then (0x40, s)
  else if !journalRoom s.journal 96 then (0x60, s)
  else
    let s := { s with host.sessions := if u8 r 0 = 0 then mdel s.host.sessions k else mset s.host.sessions k (sessionOf r old) }
    (0, (journalCmd { uptime := s.time.uptime, generation := s.mgt.generation, object := n, resource := 0, opcode := 0x0F10,
                      origin := 0x2000 + sl, payload := sessionShown r } s).2)

/-! ### Dispatch (R390) -/

/-- A job descriptor is within R389 and R392. -/
def jobOk (d : List Byte) : Bool :=
  let e := u8 d 0
  let op := u8 d 1
  let n := u32 d 16
  decide (1 ≤ n) && decide (n ≤ 16777216) && uN d 52 4 == 0 && uN d 56 7 == 0 && u8 d 63 / 2 == 0 &&
  (match e with
    | 1 => decide (op ≤ 7) && decide (u32 d 4 ≤ 1023) && (op != 0 || n == 96) &&
        (op != 1 || decide (u32 d 32 ≤ n)) && (op != 2 || decide (u32 d 32 + 16 ≤ n)) && (op != 5 || u32 d 36 % 4 != 3) &&
        (op != 7 || decide (32 ≤ n))
    | 2 => (op == 1 || op == 2) && u32 d 4 == 0 && u32 d 36 % 4 != 3
    | 3 => decide (1 ≤ op) && decide (op ≤ 3) && u32 d 4 == 0 && u32 d 20 == 0 && u64 d 24 == 0
    | _ => false)

/-- A SESSION_LOAD of this ring is under way: no engine starts a later job of the ring (R390). -/
def loading (s : State) (k : Nat) : Bool :=
  s.host.jobs.any (fun j => dataKey j.2.slice j.2.loc == k && u8 j.2.desc 0 == 1 && u8 j.2.desc 1 == 0)

/-- The job at the front of a JOB ring that an engine may start now. A descriptor that names no engine may be taken by any. -/
def readyJob (s : State) (e k : Nat) : Option (List Byte) :=
  let r := dataRing s k
  if sliceRuns s (k / 128) && r.kind == 3 && (r.state == 1 || r.state == 2) && mayDispatch s k 1 && !loading s k then
    r.ready.head?.filter (fun d => u8 d 0 == e || u8 d 0 == 0 || 3 < u8 d 0)
  else none

/-- Key of a ring's deficit at an engine. -/
def deficitKey (e k : Nat) : Nat := e * 2 ^ 32 + k
/-- Quantum of 64 KiB of source. -/
def quantum : Nat := 65536

/-- Deficit round robin: the ring that an engine serves next, the deficits and the ring whose turn it is. -/
def drr (s : State) (e : Nat) (keys : List Nat) : Nat → Nat → NMap Nat → Option (Nat × NMap Nat)
  | 0, _, _ => none
  | n + 1, cur, defs =>
    let need := match readyJob s e cur with | some d => u32 d 16 | none => 0
    if keys.contains cur && need ≤ mgetD defs (deficitKey e cur) 0 then some (cur, defs)
    else match nextTurn cur keys (fun _ => true) with
      | none => none
      | some k =>
        let defs := if keys.contains cur then defs else mput defs (deficitKey e cur) 0
        drr s e keys n k (mput defs (deficitKey e k) (mgetD defs (deficitKey e k) 0 + quantum))

/-- Accept a job that the engine executes. -/
def acceptJob (e k : Nat) (d : List Byte) (src : Option (List Byte)) (s : State) : State :=
  let sl := k / 128
  let n := s.host.nextJob
  let key := e * 2 ^ 32 + n % 2 ^ 32
  let job : Job := { slice := sl, loc := k % 128, desc := d, src := src.map (fit (u32 d 16)) }
  let add := fun (j : Job) (s : State) => { s with host.jobs := mset s.host.jobs key j, host.nextJob := n + 1 }
  if e = 1 && u8 d 1 = 0 then
    match src with
    | none => add job s
    | some bs =>
      let r := sessionLoad sl (u32 d 4) (fit 96 bs) s
      add { job with preset := some r.1 } r.2
  else add job s

/-- JOB_DISPATCH: `src` is what the DMA reads, none where a read fails. -/
def jobDispatch (e k : Nat) (src : Option (List Byte)) (s : State) : State :=
  match readyJob s e k with
  | none => s
  | some d =>
    let keys := (s.host.rings.map (·.1)).filter (fun j => (readyJob s e j).isSome)
    match drr s e keys (260 * (keys.length + 1)) (mgetD s.host.turn e 0) s.host.deficits with
    | none => s
    | some (k', defs) =>
      if k' != k then s
      else
        let cost := u32 d 16
        let s := { s with host.turn := mput s.host.turn e k,
                          host.deficits := mput defs (deficitKey e k) (mgetD defs (deficitKey e k) 0 - cost) }
        let s := dispatchEntries k 1 s
        let c : Done := { tag := u16 d 2, ring := k % 128, kind := 3 }
        if s.faults.fenced.contains (engineUnit e) then finishEntries k 1 { c with status := 0x70 } s
        else if !jobOk d then finishEntries k 1 { c with status := 0x14 } s
        else match src with
          | none => finishEntries k 1 { c with status := 0x90 } s
          | some _ => acceptJob e k d src s

/-- JOB_DISPATCH. -/
def execJobDispatch (e sl loc : Nat) (src : Option (List Byte)) (s : State) : Host.Outcome State Fault Refusal :=
  answer s (if 1 ≤ e && e ≤ 3 then jobDispatch e (dataKey sl loc) src s else s)

/-! ### Operations (R392) -/

/-- What an operation gives: STATUS, output, RESULT, and the session's new state where it changes. -/
structure JobOut where
  status : Nat := 0
  out : List Byte := []
  result : Nat := 0
  session : Option Session := none

/-- CRC of the reflected kind, continued from an earlier result. -/
def crcJob (poly param : Nat) (bs : List Byte) : Nat := crcR poly (param ^^^ 0xFFFFFFFF) bs ^^^ 0xFFFFFFFF
/-- CRC-32 of IEEE 802.3. -/
def crc32 (bs : List Byte) : Nat := crcJob 0xEDB88320 0 bs
/-- Fold carries into 16 bits. -/
def foldSum (v : Nat) : Nat :=
  let a := v % 2 ^ 16 + v / 2 ^ 16
  let b := a % 2 ^ 16 + a / 2 ^ 16
  b % 2 ^ 16 + b / 2 ^ 16
/-- Sum of 16-bit big-endian words, odd octets padded with zero (RFC 1071). -/
def sumWords : List Byte → Nat
  | [] => 0
  | [a] => a.toNat * 256
  | a :: b :: bs => a.toNat * 256 + b.toNat + sumWords bs
/-- Hash of an HMAC ALG: function, block size, MAC length. -/
def hmacOf (alg : Nat) (key msg : List Byte) : List Byte :=
  match alg with | 3 => hmac sha256 64 key msg | 4 => hmac sha384 128 key msg | _ => hmac sha512 128 key msg
/-- MAC length. -/
def macLen (alg : Nat) : Nat := match alg with | 3 => 32 | 4 => 48 | _ => 64

/-- Sequence number of a received ESP packet: with ESN its high half is recovered against the window (RFC 4304 as RFC 4303 gives it). -/
def espSeq (x : Session) (low : Nat) : Nat :=
  if !bit x.flags 0 then low
  else
    let th := x.seq / 2 ^ 32
    let tl := x.seq % 2 ^ 32
    let w := max x.window 1
    if w ≤ tl + 1 then (if tl + 1 - w ≤ low then th * 2 ^ 32 + low else (th + 1) * 2 ^ 32 + low)
    else if (tl + 1 + 2 ^ 32 - w) % 2 ^ 32 ≤ low then (th - 1) * 2 ^ 32 + low else th * 2 ^ 32 + low
/-- The replay window lets a sequence number pass. -/
def replayOk (x : Session) (q : Nat) : Bool :=
  decide (x.seq < q) || (decide (q < x.seq) && decide (x.seq - q < x.window) && !x.seen.contains q)
/-- The window after a packet was accepted. -/
def advanceReplay (x : Session) (q : Nat) : Session :=
  let top := max x.seq q
  { x with seq := top, seen := ((if x.seq = 0 then [q] else [q, x.seq]) ++ x.seen).eraseDups.filter (fun p => p != top && decide (top - p < max x.window 1)) }
/-- Additional data of ESP: SPI and sequence number, 64 bits with ESN. -/
def espAad (x : Session) (q : Nat) : List Byte :=
  beBytes 4 x.spi ++ (if bit x.flags 0 then beBytes 8 q else beBytes 4 (q % 2 ^ 32))

/-- ESP encapsulation (RFC 4303, RFC 4106). -/
def espOut (x : Session) (key : List Byte) (next : Nat) (bs : List Byte) : JobOut :=
  if x.seq = (if bit x.flags 0 then 2 ^ 64 - 1 else 2 ^ 32 - 1) then { status := 0x95 }
  else
    let q := x.seq
    let pad := (4 - (bs.length + 2) % 4) % 4
    let pt := bs ++ (List.range pad).map (fun i => BitVec.ofNat 8 (i + 1)) ++ leBytes 1 pad ++ leBytes 1 next
    let iv := beBytes 8 q
    let r := gcmSeal key (leBytes 4 x.salt ++ iv) (espAad x q) pt
    { out := beBytes 4 x.spi ++ beBytes 4 (q % 2 ^ 32) ++ iv ++ r.1 ++ r.2, result := q,
      session := some { x with seq := (q + 1) % 2 ^ 64 } }

/-- ESP decapsulation: the replay window is checked before the ICV. The packet's own header is authenticated (PRESUMED, log entry 20). -/
def espIn (x : Session) (key bs : List Byte) : JobOut :=
  let q := espSeq x (beNat (slice bs 4 4))
  if !replayOk x q then { status := 0x94 }
  else
    let n := bs.length - 32
    match gcmOpen key (leBytes 4 x.salt ++ slice bs 8 8) (slice bs 0 4 ++ (espAad x q).drop 4) ((bs.drop 16).take n) (bs.drop (16 + n)) with
    | none => { status := 0x92 }
    | some pt =>
      { out := pt.take (pt.length - 2 - u8 pt (pt.length - 2)), result := u8 pt (pt.length - 1), session := some (advanceReplay x q) }

/-- A crypto operation under its session. -/
def cryptoOp (op : Nat) (x : Session) (d bs : List Byte) : JobOut :=
  let a := x.alg
  let match_ := match op with | 1 => a ≤ 2 | 2 => a ≤ 2 | 3 => 3 ≤ a && a ≤ 5 | 4 => 3 ≤ a && a ≤ 5 | 6 => a == 6 || a == 7 | _ => 8 ≤ a
  if !match_ then { status := 0x14 }
  else match x.key with
    | none => { status := 0x93 }
    | some key =>
      let aad := bs.take (u32 d 32)
      let rest := bs.drop (u32 d 32)
      match op with
      | 1 =>
        let r := gcmSeal key (slice d 40 12) aad rest
        { out := aad ++ r.1 ++ r.2 }
      | 2 =>
        let n := rest.length - 16
        match gcmOpen key (slice d 40 12) aad (rest.take n) (rest.drop n) with
        | some pt => { out := aad ++ pt }
        | none => { status := 0x92, out := aad ++ zeros n }
      | 3 =>
        let m := hmacOf a key bs
        { out := m, result := u64 m 0 }
      | 4 =>
        if bs.length < macLen a then { status := 0x14 }
        else
          let n := bs.length - macLen a
          if hmacOf a key (bs.take n) = bs.drop n then {} else { status := 0x92 }
      | 6 => espOut x key (u32 d 36 % 256) bs
      | _ => espIn x key bs

/-- Result of an operation of engines 1 to 3; the extra-flags octet of gzip is a free value (log entry 1). -/
def runJob (sess : Option Session) (xfl : Byte) (d bs : List Byte) : JobOut :=
  let op := u8 d 1
  let param := u32 d 36
  match u8 d 0 with
  | 1 =>
    if op = 5 then
      { out := match param % 4 with | 0 => sha256 bs | 1 => sha384 bs | _ => sha512 bs }
    else match sess with
      | none => { status := 0x93 }
      | some x => cryptoOp op x d bs
  | 2 =>
    let z := Config.compressed 1 (param % 4) bs
    let crc := crc32 bs
    if op = 1 then { out := z, result := crc }
    else { out := [0x1F, 0x8B, 8, 0, 0, 0, 0, 0, xfl, 255] ++ z ++ leBytes 4 crc ++ leBytes 4 (bs.length % 2 ^ 32), result := crc }
  | _ =>
    match op with
    | 1 => { result := crcJob 0x82F63B78 param bs }
    | 2 => { result := crcJob 0xEDB88320 param bs }
    | _ => { result := foldSum (param % 2 ^ 16 + sumWords bs) }

/-- Write a job's output within DST_CAP and complete it. -/
def endJob (j : Nat) (x : Job) (o : JobOut) (s : State) : State :=
  let cap := u32 x.desc 20
  let out := o.out.take cap
  let tooLong := cap < o.out.length && u8 x.desc 0 != 3
  let status := if tooLong && o.status = 0 then 0x91 else o.status
  let s := if out.isEmpty then s else outputDma x.slice (u64 x.desc 24) out s
  let esp := u8 x.desc 0 = 1 && u8 x.desc 1 = 7
  let s := match o.session with
    | some n => if esp && status != 0 then s else
        { s with host.sessions := mset s.host.sessions (sessKey x.slice (u32 x.desc 4)) n }
    | none => s
  finishJob j status out.length o.result s

/-- JOB_COMPLETE. -/
def jobComplete (j : Nat) (s : State) : State :=
  match mget s.host.jobs j with
  | none => s
  | some x =>
    match x.preset, x.src with
    | some st, _ => finishJob j st 0 0 s
    | none, none => finishJob j 0x90 0 0 s
    | none, some bs =>
      let r := if u8 x.desc 0 = 2 && u8 x.desc 1 = 2 then draw 8 s else (0, s)
      endJob j x (runJob (mget s.host.sessions (sessKey x.slice (u32 x.desc 4))) (BitVec.ofNat 8 r.1) x.desc bs) r.2

/-- JOB_COMPLETE: the job's output and completion are DMA of its slice (R366, R367). -/
def execJobComplete (e j : Nat) (s : State) : Host.Outcome State Fault Refusal :=
  answer s (if trafficOn s && j < 2 ^ 32 && (match mget s.host.jobs (e * 2 ^ 32 + j) with
      | some x => pf1Dma s (sliceOf s x.slice).link
      | none => false) then jobComplete (e * 2 ^ 32 + j) s else s)

/-! ### DMA reads that fail (R34, R367) -/

/-- DMA_READ_ERROR. -/
def dmaReadError (d : DmaRead) (s : State) : State :=
  match d with
  | .mailbox p =>
    match ringKey p with
    | some k =>
      let r := mbRing s k
      if r.state = 1 && !r.resident && r.posted != 0 && !r.executing then
        modRing k (fun r => { r with state := 2, haltCause := 2, tries := 0 }) s else s
    | none => s
  | .descriptor sl loc => if mayFetch s (dataKey sl loc) then takeEntry (dataKey sl loc) none s else s
  | .txFrame sl loc => txEnd (dataKey sl loc) 0x90 s
  | .jobSource e j =>
    match mget s.host.jobs (e * 2 ^ 32 + j % 2 ^ 32) with
    | some x => if x.preset.isSome then s else finishJob (e * 2 ^ 32 + j % 2 ^ 32) 0x90 0 0 s
    | none => s
/-- DMA_READ_ERROR. -/
def execDmaReadError (d : DmaRead) (s : State) : Host.Outcome State Fault Refusal := answer s (if (match d with | .mailbox _ => running s | _ => trafficOn s) then dmaReadError d s else s)

end Sys2Proof.Machine
end

