-- ==== Sys2Proof/Machine/Slices.lean ====
section
/-! DEFINITION. The commands of the classes SLICE and RING, and what a PCIe reset does to them (R368, R371-R375, R379, R393-R398 13_host_interface). -/

namespace Sys2Proof.Machine

/-- A slice names an object of another slice (R58). -/
def otherSlice (own : Nat) (c : Cmd) (_ : State) : Bool := c.at 0 2 != own

/-! ### RING (R373-R375, R379) -/

/-- Checks of a RING_SET that need no state (R374): ranges, and fields that do not apply are 0. -/
def ringSetFields (c : Cmd) (_ : State) : Option Fail :=
  let kind := c.at 3 1
  let sub := decide (1 ≤ kind) && decide (kind ≤ 3)
  let z := fun (off n : Nat) => (c.at off n == 0, badField off)
  firstFail ([
    (decide (c.at 0 2 < 4096), badField 0), (decide (c.at 2 1 < 128), badField 2),
    (decide (kind ≤ 4) && (kind == 0 || (kind == 4) == decide (64 ≤ c.at 2 1)), badField 3),
    (if kind = 0 then c.at 4 1 == 0 else decide (4 ≤ c.at 4 1) && decide (c.at 4 1 ≤ 15), badField 4),
    (if sub then decide (64 ≤ c.at 5 1) && decide (c.at 5 1 < 128) else c.at 5 1 == 0, badField 5),
    (if kind = 1 then decide (c.at 6 1 < 12) else c.at 6 1 == 0, badField 6),
    (if kind = 0 then c.at 8 8 == 0 else c.at 8 8 % 4096 == 0, badField 8)] ++
    (if kind = 4 then [
      (c.at 16 8 % 4 == 0, badField 16), (decide (c.at 28 4 ≤ 1000000), badField 28),
      (decide (1 ≤ c.at 32 2) && decide (c.at 32 2 ≤ 4096), badField 32)]
     else [z 16 8, z 24 4, z 28 4, z 32 2]))

/-- The ring of a RING_SET. -/
def ringOf (c : Cmd) : Ring :=
  { kind := c.at 3 1, log2 := c.at 4 1, cq := c.at 5 1, pipeline := c.at 6 1, base := c.at 8 8, msgAddr := c.at 16 8,
    msgData := c.at 24 4, coalNs := c.at 28 4, coalCount := c.at 32 2 }

/-- Local ring numbers below the slice's limit (R372). -/
def localOk (s : State) (sl loc : Nat) : Bool :=
  if loc < 64 then decide (loc < (sliceOf s sl).maxQp) else decide (loc < 64 + (sliceOf s sl).maxQp)

/-- RING_SET, 0x1002 O. -/
def ringSetSpec : CmdSpec :=
  { opcode := 0x1002, kind := .o, layout := plain 40 [rsv 7 1, rsv 34 6], foreign := otherSlice
    fields := ringSetFields
    run := fun c s =>
      let sl := c.at 0 2
      let k := dataKey sl (c.at 2 1)
      let old := mget s.host.rings k
      let cq := mget s.host.rings (dataKey sl (c.at 5 1))
      if (sliceOf s sl).state != 1 then .error (failWith St.wrongState)
      else if !localOk s sl (c.at 2 1) then .error (badField 2)
      else if (match old with | some r => r.state != 0 || !r.idle | none => false) then .error (failWith St.wrongState)
      else if c.at 3 1 = 0 then
        if 64 ≤ c.at 2 1 && !(mappedTo s k).isEmpty then .error (failWith St.wrongState)
        else .ok { s := { s with host.rings := mdel s.host.rings k } }
      else if c.at 3 1 != 4 && (match cq with | some q => q.kind != 4 | none => true) then .error (badField 5)
      else if old.isNone && 65536 ≤ s.host.rings.length then .error (failWith St.noSpace)
      else .ok { s := { s with host.rings := mset s.host.rings k (ringOf c) } }
    objects := fun c _ => [dataObj (dataKey (c.at 0 2) (c.at 2 1))]
    object := fun c _ _ => dataKey (c.at 0 2) (c.at 2 1) }

/-- The ring that a command names on an ACTIVE slice. -/
def namedRing (c : Cmd) (s : State) : Except Fail (Nat × Ring) :=
  if (sliceOf s (c.at 0 2)).state != 1 then .error (failWith St.wrongState)
  else match mget s.host.rings (dataKey (c.at 0 2) (c.at 2 1)) with
    | some r => .ok (dataKey (c.at 0 2) (c.at 2 1), r)
    | none => .error (failWith St.notFound)
/-- Ranges of SLICE and LOCAL. -/
def ringFields (c : Cmd) (_ : State) : Option Fail :=
  firstFail [(decide (c.at 0 2 < 4096), badField 0), (decide (c.at 2 1 < 128), badField 2)]

/-- RING_ENABLE, 0x1003 O. -/
def ringEnableSpec : CmdSpec :=
  { opcode := 0x1003, kind := .o, layout := plain 8 [rsv 3 5], foreign := otherSlice, fields := ringFields
    run := fun c s => match namedRing c s with
      | .error f => .error f
      | .ok (k, r) =>
        if r.state != 0 || (k % 128 < 64 && (dataRing s (dataKey (k / 128) r.cq)).state = 0) then .error (failWith St.wrongState)
        else .ok { s := modData k (fun r => { r with state := 1 }) s }
    objects := fun c _ => [dataObj (dataKey (c.at 0 2) (c.at 2 1))]
    object := fun c _ _ => dataKey (c.at 0 2) (c.at 2 1) }

/-- RING_DISABLE, 0x1004 O: completes once the ring is idle. -/
def ringDisableSpec : CmdSpec :=
  { opcode := 0x1004, kind := .o, layout := plain 8 [rsv 3 5], foreign := otherSlice, fields := ringFields
    run := fun c s => match namedRing c s with
      | .error f => .error f
      | .ok (k, r) =>
        if r.state = 0 then .ok { s := s, log := .silent }
        else if (64 ≤ k % 128 && (mappedTo s k).any (fun x => x.2.state != 0)) then .error (failWith St.wrongState)
        else .ok { s := settleRing k (modData k (fun r => { r with disabling := some c }) s), log := .later }
    objects := fun c _ => [dataObj (dataKey (c.at 0 2) (c.at 2 1))]
    object := fun c _ _ => dataKey (c.at 0 2) (c.at 2 1) }

/-- The RING_SET payload of a ring. -/
def ringBytes (k : Nat) (r : Ring) : List Byte :=
  leBytes 2 (k / 128) ++ leBytes 1 (k % 128) ++ leBytes 1 r.kind ++ leBytes 1 r.log2 ++ leBytes 1 r.cq ++ leBytes 1 r.pipeline ++
  zeros 1 ++ leBytes 8 r.base ++ leBytes 8 r.msgAddr ++ leBytes 4 r.msgData ++ leBytes 4 r.coalNs ++ leBytes 2 r.coalCount ++ zeros 6

/-- RING_GET, 0x1001 R: the payload as last set, then the three ring registers. -/
def ringGetSpec : CmdSpec :=
  { opcode := 0x1001, kind := .r, layout := plain 8 [rsv 3 5], foreign := otherSlice, fields := ringFields, resLen := fun _ _ => 64
    run := fun c s => match namedRing c s with
      | .error f => .error f
      | .ok (k, r) => .ok {
          s := s, log := .silent
          result := ringBytes k r ++ zeros 8 ++ leBytes 8 (ringStatusWord r) ++ leBytes 8 (ringIndexWord r) } }

/-- RING_INVALIDATE, 0x1005 O (R379). -/
def ringInvalidateSpec : CmdSpec :=
  { opcode := 0x1005, kind := .o, layout := plain 8 [rsv 3 1], foreign := otherSlice, fields := ringFields, resLen := fun _ _ => 8
    run := fun c s => match namedRing c s with
      | .error f => .error f
      | .ok (k, r) =>
        let m := 2 * r.size
        let first := c.at 4 2
        if 64 ≤ k % 128 then .error (badField 2)
        else if m ≤ first then .error (badField 4)
        else if c.at 6 2 = 0 || r.size < c.at 6 2 then .error (badField 6)
        else
          let inside := fun (i : Nat) => decide (r.dist first i < c.at 6 2)
          let gone := (r.entries.filter (fun e => inside e.1)).length
          .ok { s := modData k (fun r => { r with entries := r.entries.filter (fun e => !inside e.1), tries := r.tries.filter (fun e => !inside e.1) }) s
                result := leBytes 2 r.consumer ++ leBytes 2 gone ++ zeros 4 }
    objects := fun c _ => [dataObj (dataKey (c.at 0 2) (c.at 2 1))]
    object := fun c _ _ => dataKey (c.at 0 2) (c.at 2 1) }

/-! ### SLICE_CREATE, SLICE_GET (R371, R372) -/

/-- Eight numbers of one byte. -/
def eight (c : Cmd) (off : Nat) : List Nat := (List.range 8).map (fun i => c.at (off + i) 1)

/-- SLICE_CREATE, 0x0F02 O. -/
def sliceCreateSpec : CmdSpec :=
  { opcode := 0x0F02, kind := .o, layout := plain 48 [(4, 4, 0xFFF00000), rsv 18 6, rsv 40 8], foreign := otherSlice
    fields := fun c s => firstFail ([
      (decide (c.at 0 2 < 4096), badField 0), (c.at 2 1 == 0 || (c.at 2 1 == 1 && s.power.hostSplit), badField 2),
      (decide (c.at 3 1 ≤ 1), badField 3), (c.at 8 8 % 512 == 0, badField 8),
      (decide (4 ≤ c.at 16 1) && decide (c.at 16 1 ≤ 12), badField 16), (decide (1 ≤ c.at 17 1) && decide (c.at 17 1 ≤ 64), badField 17)] ++
      (List.range 8).map (fun q =>
        (decide (1 ≤ c.at (32 + q) 1) && decide (c.at (32 + q) 1 ≤ 8), badField (32 + q))) ++
      (List.range 8).map (fun q => (decide (c.at (24 + q) 1 + c.at (32 + q) 1 ≤ c.at 17 1), badField (24 + q))))
    run := fun c s =>
      let n := c.at 0 2
      let frozen := c.at 3 1 == 1
      if (sliceOf s n).state != 0 then .error (failWith St.exists_)
      else if s.host.slices.any (fun x => x.2.pasid == c.at 4 4) then .error (badField 4)
      else
        let x : Slice := {
          state := if frozen then 5 else 1, link := c.at 2 1, pasid := c.at 4 4, maxQp := c.at 17 1, rxFirst := eight c 24
          rxSpread := eight c 32, mask := sliceDefaultMask, created := fit 48 c.payload }
        let ring : MbRing := { state := if frozen then 0 else 1, log2 := c.at 16 1, base := c.at 8 8 }
        .ok { s := emit (.msix 7) { s with host.slices := mset s.host.slices n x, mgt.rings := mset s.mgt.rings (0x1000 + n) ring } }
    object := fun c _ _ => c.at 0 2 }

/-- SLICE_GET, 0x0F01 R. -/
def sliceGetSpec : CmdSpec :=
  { opcode := 0x0F01, kind := .r, layout := plain 2 [], foreign := otherSlice, resLen := fun _ _ => 56
    fields := fun c _ => firstFail [(decide (c.at 0 2 < 4096), badField 0)]
    run := fun c s =>
      if (sliceOf s (c.at 0 2)).state = 0 then .error (failWith St.notFound)
      else .ok { s := s, log := .silent, result := (sliceOf s (c.at 0 2)).created ++ leBytes 8 (sliceStatusWord s (c.at 0 2)) } }

/-! ### Quiesce, freeze, reset, remove (R393, R395) -/

/-- SLICE_QUIESCE and SLICE_FREEZE. -/
def quiesceSpec (opcode : Nat) (freezing : Bool) : CmdSpec :=
  { opcode := opcode, kind := .o, layout := plain 8 [rsv 3 1], foreign := otherSlice, resLen := fun _ _ => 8
    fields := fun c _ => firstFail [
      (decide (c.at 0 2 < 4096), badField 0), (decide (c.at 2 1 ≤ (if freezing then 0 else 1)), badField 2),
      (decide (1 ≤ c.at 4 4) && decide (c.at 4 4 ≤ 1000000), badField 4)]
    run := fun c s =>
      let sl := c.at 0 2
      if (sliceOf s sl).state != 1 then .error (failWith St.wrongState)
      else
        let s := fencePoint sl freezing (some c) (c.at 4 4) s
        .ok { s := if c.at 2 1 = 1 then settleQuiesce sl (forceSlice sl s) else s, log := .later }
    objects := fun c _ => [sliceObj (c.at 0 2)]
    object := fun c _ _ => c.at 0 2 }
/-- SLICE_QUIESCE, 0x0F03 O. -/
def sliceQuiesceSpec : CmdSpec := quiesceSpec 0x0F03 false
/-- SLICE_FREEZE, 0x0F06 O. -/
def sliceFreezeSpec : CmdSpec := quiesceSpec 0x0F06 true

/-- SLICE_RESET and SLICE_REMOVE: only of a slice that is IDLE or FROZEN. -/
def afterIdleSpec (opcode : Nat) (f : Nat → State → State) : CmdSpec :=
  { opcode := opcode, kind := .o, layout := plain 2 [], foreign := otherSlice
    fields := fun c _ => firstFail [(decide (c.at 0 2 < 4096), badField 0)]
    run := fun c s =>
      if (sliceOf s (c.at 0 2)).state != 3 && (sliceOf s (c.at 0 2)).state != 5 then .error (failWith St.notQuiesced)
      else .ok { s := f (c.at 0 2) s }
    objects := fun c _ => [sliceObj (c.at 0 2)]
    object := fun c _ _ => c.at 0 2 }
/-- SLICE_RESET, 0x0F04 O. -/
def sliceResetSpec : CmdSpec := afterIdleSpec 0x0F04 resetSlice
/-- SLICE_REMOVE, 0x0F05 O. -/
def sliceRemoveSpec : CmdSpec := afterIdleSpec 0x0F05 removeSlice

/-! ### Migration (R396-R398) -/

/-- A ring record of a state image. -/
def ringRecord (x : Slice) (loc : Nat) (r : Ring) : List Byte :=
  leBytes 1 loc ++ leBytes 1 r.kind ++ leBytes 1 r.log2 ++ leBytes 1 r.cq ++ leBytes 1 r.pipeline ++
  leBytes 1 (b2n (x.wasEnabled.contains loc)) ++ leBytes 1 (b2n r.armed) ++ zeros 1 ++ leBytes 2 r.producer ++ leBytes 2 r.consumer ++
  zeros 4 ++ leBytes 8 r.base ++ leBytes 8 r.msgAddr ++ leBytes 4 r.msgData ++ leBytes 4 r.coalNs ++ leBytes 2 r.coalCount ++ zeros 22
/-- A session record of a state image. -/
def sessionRecord (n : Nat) (x : Session) : List Byte :=
  leBytes 2 n ++ leBytes 1 x.alg ++ leBytes 1 x.flags ++ leBytes 4 x.spi ++ leBytes 8 x.seq ++ leBytes 4 x.salt ++
  leBytes 4 x.window ++ fit 8 x.digest
/-- Sessions of a slice. -/
def sliceSessions (s : State) (sl : Nat) : NMap Session :=
  (s.host.sessions.filter (fun x => x.1 / 1024 == sl)).map (fun x => (x.1 % 1024, x.2))
/-- The state image of a slice (R396). -/
def sliceImage (s : State) (sl : Nat) : List Byte :=
  let x := sliceOf s sl
  let mb := mbRing s (0x1000 + sl)
  let rings := sliceRings s sl
  let sess := sliceSessions s sl
  let body := (rings.map (fun r => ringRecord x r.1 r.2)).flatten ++ (sess.map (fun y => sessionRecord y.1 y.2)).flatten
  leBytes 4 0x534C4943 ++ leBytes 2 1 ++ leBytes 2 128 ++ leBytes 4 (128 + body.length) ++ leBytes 2 sl ++ leBytes 1 x.maxQp ++
  leBytes 1 rings.length ++ leBytes 2 sess.length ++ zeros 2 ++ leBytes 4 x.pasid ++ leBytes 8 x.mask ++ leBytes 8 s.time.uptime ++
  leBytes 4 (bootNo s) ++ leBytes 1 mb.log2 ++ zeros 1 ++ leBytes 2 mb.producer ++ leBytes 8 mb.base ++
  (x.rxFirst.map (leBytes 1)).flatten ++ (x.rxSpread.map (leBytes 1)).flatten ++ zeros 24 ++ sha256 body ++ body

/-- SLICE_SAVE, 0x0F07 O: with INDIRECT only. -/
def sliceSaveSpec : CmdSpec :=
  { opcode := 0x0F07, kind := .o, foreign := otherSlice
    layout := fun c => if bit c.flags 0 then .ok { len := 8, rsvd := [rsv 2 6] } else .error (badField 2)
    resLen := fun c s => 128 + 64 * (sliceRings s (c.at 0 2)).length + 32 * (sliceSessions s (c.at 0 2)).length
    fields := fun c _ => firstFail [(decide (c.at 0 2 < 4096), badField 0)]
    run := fun c s =>
      if (sliceOf s (c.at 0 2)).state != 5 then .error (failWith St.wrongState)
      else .ok { s := s, result := sliceImage s (c.at 0 2) }
    objects := fun c _ => [sliceObj (c.at 0 2)]
    object := fun c _ _ => c.at 0 2 }

/-- Offset of ring record `i` in the payload of SLICE_RESTORE. -/
def recAt (i : Nat) : Nat := 136 + 64 * i
/-- The ring of a restored record, in STATE 3. -/
def restoredRing (c : Cmd) (o : Nat) : Ring :=
  { kind := c.at (o + 1) 1, log2 := c.at (o + 2) 1, cq := c.at (o + 3) 1, pipeline := c.at (o + 4) 1, armed := c.at (o + 6) 1 == 1
    producer := c.at (o + 8) 2, consumer := c.at (o + 10) 2, fetched := c.at (o + 10) 2, base := c.at (o + 16) 8
    msgAddr := c.at (o + 24) 8, msgData := c.at (o + 32) 4, coalNs := c.at (o + 36) 4, coalCount := c.at (o + 40) 2, state := 3 }
/-- A ring record is within R374 against a limit of queue pairs and the other records. -/
def ringRecOk (c : Cmd) (o maxQp : Nat) (cqs : List Nat) : Bool :=
  let loc := c.at o 1
  let r := restoredRing c o
  let z := r.msgAddr == 0 && r.msgData == 0 && r.coalNs == 0 && r.coalCount == 0
  (if loc < 64 then decide (loc < maxQp) else decide (loc < 64 + maxQp)) && decide (1 ≤ r.kind) && decide (r.kind ≤ 4) &&
  ((r.kind == 4) == decide (64 ≤ loc)) && decide (4 ≤ r.log2) && decide (r.log2 ≤ 15) && r.base % 4096 == 0 &&
  decide (r.producer < 2 * r.size) && decide (r.consumer < 2 * r.size) &&
  (if r.kind = 4 then r.cq == 0 && r.msgAddr % 4 == 0 && decide (r.coalNs ≤ 1000000) && decide (1 ≤ r.coalCount) && decide (r.coalCount ≤ 4096)
   else z && cqs.contains r.cq) &&
  (if r.kind = 1 then decide (r.pipeline < 12) else r.pipeline == 0)
/-- The session of a restored record: no key, nothing received below SEQ. -/
def restoredSession (c : Cmd) (o : Nat) : Session :=
  { alg := c.at (o + 2) 1, keyLen := 0, flags := c.at (o + 3) 1, spi := c.at (o + 4) 4, seq := c.at (o + 8) 8
    salt := c.at (o + 16) 4, window := c.at (o + 20) 4, key := none, digest := slice c.payload (o + 24) 8, seen := [] }

/-- SLICE_RESTORE, 0x0F08 O. -/
def sliceRestoreSpec : CmdSpec :=
  { opcode := 0x0F08, kind := .o, foreign := otherSlice
    layout := fun c => .ok {
      len := 8 + max 128 (c.at 16 4)
      rsvd := [rsv 2 6, rsv 26 2, rsv 53 1, rsv 80 24] ++
        ((List.range (min (c.at 23 1) 128)).map (fun i => [rsv (recAt i + 7) 1, rsv (recAt i + 12) 4, rsv (recAt i + 42) 22])).flatten }
    fields := fun c s =>
      let n := c.at 23 1
      let m := c.at 24 2
      let sess := fun (i : Nat) => recAt n + 32 * i
      let cqs := ((List.range n).filter (fun i => c.at (recAt i + 1) 1 == 4)).map (fun i => c.at (recAt i) 1)
      firstFail ([
        (decide (c.at 0 2 < 4096), badField 0), (c.at 8 4 == 0x534C4943, badField 8), (c.at 12 2 == 1, badField 0x0C),
        (c.at 14 2 == 128, badField 14), (decide (n ≤ 128), badField 23), (decide (m ≤ 1024), badField 24),
        (c.at 16 4 == 128 + 64 * n + 32 * m, badField 16),
        (decide (sha256 ((c.payload.drop 136).take (64 * n + 32 * m)) = slice c.payload 104 32), badField 0x0C),
        (decide (4 ≤ c.at 52 1) && decide (c.at 52 1 ≤ 12), badField 52)] ++
        (List.range n).map (fun i => (ringRecOk c (recAt i) (sliceOf s (c.at 0 2)).maxQp cqs, badField (recAt i))) ++
        (List.range m).map (fun i =>
          (decide (c.at (sess i) 2 < 1024) && decide (1 ≤ c.at (sess i + 2) 1) && decide (c.at (sess i + 2) 1 ≤ 9), badField (sess i))))
    run := fun c s =>
      let t := c.at 0 2
      let n := c.at 23 1
      let m := c.at 24 2
      if (sliceOf s t).state != 5 || !(sliceRings s t).isEmpty then .error (failWith St.wrongState)
      else if 65536 < s.host.rings.length + n || 65536 < s.host.sessions.length + m then .error (failWith St.noSpace)
      else
        let on := ((List.range n).filter (fun i => c.at (recAt i + 5) 1 == 1)).map (fun i => c.at (recAt i) 1)
        let s := modSlice t (fun x => { x with mask := c.at 32 8, rxFirst := eight c 64, rxSpread := eight c 72, wasEnabled := on }) s
        let s := modRing (0x1000 + t) (fun r => { r with log2 := c.at 52 1, base := c.at 56 8, producer := c.at 54 2, consumer := c.at 54 2 }) s
        let s := (List.range n).foldl (fun s i =>
          { s with host.rings := mset s.host.rings (dataKey t (c.at (recAt i) 1)) (restoredRing c (recAt i)) }) s
        .ok { s := (List.range m).foldl (fun s i =>
          let o := recAt n + 32 * i
          { s with host.sessions := mset s.host.sessions (sessKey t (c.at o 2)) (restoredSession c o) }) s }
    objects := fun c _ => [sliceObj (c.at 0 2)]
    object := fun c _ _ => c.at 0 2 }

/-- SLICE_THAW, 0x0F09 O (R398). -/
def sliceThawSpec : CmdSpec :=
  { opcode := 0x0F09, kind := .o, layout := plain 2 [], foreign := otherSlice
    fields := fun c _ => firstFail [(decide (c.at 0 2 < 4096), badField 0)]
    run := fun c s =>
      let n := c.at 0 2
      let x := sliceOf s n
      if x.state != 3 && x.state != 5 then .error (failWith St.wrongState)
      else
        let s := (sliceRings s n).foldl (fun s r => modData (dataKey n r.1) (fun y => { y with
          state := if y.state != 3 then y.state else if x.wasEnabled.contains r.1 then 1 else 0 }) s) s
        .ok { s := setSliceState n 1 (modRing (0x1000 + n) (fun r => { r with state := 1 }) (modSlice n (fun x => { x with wasEnabled := [] }) s)) }
    objects := fun c _ => [sliceObj (c.at 0 2)]
    object := fun c _ _ => c.at 0 2 }

/-! ### Resets of functions and links (R368, R488) -/

/-- `r` with nothing posted or held, in state `st`. -/
def MbRing.emptied (r : MbRing) (st : Nat) : MbRing :=
  { r with
    state := st, producer := 0, consumer := 0, waits := [], haltCause := 0, tries := 0
    fetched := none }

/-- Effect of a function level reset on PF0 ring `n`. -/
def resetPf0Ring (n : Nat) (s : State) : State :=
  let r := mbRing s n
  if n = 0 then
    if r.executing then writeDoneLate 0 (modRing 0 (fun r => { r with state := 0, resetting := true }) s)
    else modRing 0 (fun r => r.emptied 1) s
  else if r.state = 0 && !r.executing then s
  else modRing n (fun r => { r.emptied 0 with resetting := r.executing && r.done.isNone, executing := r.executing && r.done.isNone, done := none }) s

/-- Function level reset of PF0, which returns to D0 (PRESUMED, log entry 71). -/
def pf0Reset (s : State) : State :=
  let s := (List.range 4).foldl (fun s n => resetPf0Ring n s) { s with host.d3hot := s.host.d3hot.filter (· != 0) }
  { s with host.msix := [], host.obsBase := 0x100000000000 }

/-- Reset of the slices of a link; its PF1 is in D0 (PRESUMED, log entry 71). -/
def linkSlices (link : Nat) (s : State) : State :=
  let s := ((s.host.slices.filter (fun x => x.2.link == link)).map (·.1)).foldl (fun s n => forceReset n s) s
  { s with host.d3hot := s.host.d3hot.filter (· != pf1Key link) }

/-- The record of a reset. -/
def resetRecord (s : State) : State := (journalFw 0x0F00 0 0 s).2

/-- What a function level reset of PF1, a hot reset and a loss of the link all do (R368): reset the slices of the link, and PF0 with link 0. -/
def linkFunctions (link : Nat) (s : State) : State :=
  let s := linkSlices link s
  if link = 0 then pf0Reset s else s

/-- A reset that comes over a link: its functions, which return to D0. -/
def linkReset (link : Nat) (s : State) : State :=
  let s := linkFunctions link s
  resetRecord { s with host.d3hot := s.host.d3hot.filter (fun f => f / 8 != link) }

/-- Link n exists: link 1 in split mode only. -/
def linkExists (s : State) (link : Nat) : Bool := link == 0 || (link == 1 && s.power.hostSplit)
/-- Device identifier and class code of a function; none where the link presents no such function (R365). -/
def functionIds (s : State) (link fn : Nat) : Option (Nat × Nat) :=
  if link = 0 && fn = 0 then some (0x7512, 0x0B4000)
  else if link = 0 && fn = 1 || link = 1 && fn = 0 && s.power.hostSplit then some (0x7513, 0x028000)
  else none
/-- What a configuration read of a function's identifiers answers, as (vendor and device, class code, subsystem vendor and subsystem); retry status, none, until the link is configuration-ready (R364, R365). No row of the table is a configuration read. -/
def configIds (s : State) (link fn : Nat) : Option (Nat × Nat × Nat) :=
  if !running s || !s.boot.cfgReady || !s.host.linkUp.contains link then none
  else (functionIds s link fn).map (fun x => (x.1 * 2 ^ 16 + pciVendor, x.2, x.1 * 2 ^ 16 + pciVendor))

/-- What a function's capabilities hold (R366). -/
structure Capabilities where
  /-- Max_Payload_Size in bytes -/
  maxPayload : Nat := 512
  /-- Max_Read_Request_Size in bytes -/
  maxRead : Nat := 4096
  /-- MSI-X vectors: of PF0 only -/
  vectors : Nat
  /-- Max PASID Width -/
  pasidBits : Nat := 20
  /-- Device Serial Number: the identity serial -/
  serial : Nat
  /-- Enable Relaxed Ordering -/
  relaxed : Bool
deriving DecidableEq, Repr
/-- The capabilities of a function that answers configuration requests (R366). No row of the table is a configuration read. -/
def capabilities (s : State) (link fn : Nat) : Option Capabilities :=
  (configIds s link fn).map (fun _ => {
    vectors := if link = 0 && fn = 0 then 8 else 0, serial := otpWord s 0, relaxed := s.host.relaxed.contains (link * 8 + fn) })

/-- PF0_FLR. -/
def execPf0Flr (s : State) : Host.Outcome State Fault Refusal := answer s (if running s then resetRecord (pf0Reset s) else s)
/-- PF1_FLR: the slices of the link, and PF0 with link 0 (R368; DEDUCED, log entry 71). -/
def execPf1Flr (link : Nat) (s : State) : Host.Outcome State Fault Refusal :=
  answer s (if running s && linkExists s link then resetRecord (linkFunctions link s) else s)
/-- HOT_RESET. -/
def execHotReset (link : Nat) (s : State) : Host.Outcome State Fault Refusal :=
  answer s (if running s && linkExists s link && s.host.linkUp.contains link then linkReset link s else s)
/-- The link is no longer up. -/
def dropLink (link : Nat) (s : State) : State := { s with host.linkUp := s.host.linkUp.filter (· != link) }
/-- LINK_LOSS. -/
def execLinkLoss (link : Nat) (s : State) : Host.Outcome State Fault Refusal :=
  answer s (if running s && s.host.linkUp.contains link then dropLink link (linkReset link s) else s)
/-- PCIE_PERST: PCIE_PERSTn_N goes low (R488). -/
def execPciePerst (link : Nat) (s : State) : Host.Outcome State Fault Refusal :=
  answer s (if !linkExists s link || s.host.perst.contains link then s
    else
      let s := { s with host.perst := s.host.perst ++ [link] }
      if running s then dropLink link (linkReset link s) else s)
/-- PCIE_PERST_RELEASE. -/
def execPciePerstRelease (link : Nat) (s : State) : Host.Outcome State Fault Refusal :=
  answer s { s with host.perst := s.host.perst.filter (· != link) }
/-- PCIE_LINK_UP: the link has trained and is configuration-ready (R364). -/
def execPcieLinkUp (link : Nat) (s : State) : Host.Outcome State Fault Refusal :=
  answer s (if running s && linkExists s link && !s.host.perst.contains link && !s.host.linkUp.contains link then
    { s with host.linkUp := s.host.linkUp ++ [link] } else s)
/-- The completion rings of the slices of a link whose completions wait for DMA. -/
def linkRings (s : State) (link : Nat) : List Nat :=
  (s.host.rings.filter (fun r => (sliceOf s (r.1 / 128)).link == link && sliceWrites s (r.1 / 128) && !r.2.held.isEmpty)).map (·.1)

/-- A function is in D0: the completions that waited are written (R366). -/
def functionWakes (link fn : Nat) (s : State) : State :=
  let s := { s with host.d3hot := s.host.d3hot.filter (· != link * 8 + fn) }
  writeDones ((linkRings s link).foldl (fun s k => settleRing k (produceHeld k s)) s)

/-- PCIE_POWER_STATE: a configuration write takes a function that answers to D3hot, or to D0 (R366). -/
def execPciePowerState (link fn : Nat) (d3 : Bool) (s : State) : Host.Outcome State Fault Refusal :=
  answer s (if (configIds s link fn).isNone then s
    else if d3 then { s with host.d3hot := s.host.d3hot.filter (· != link * 8 + fn) ++ [link * 8 + fn] }
    else functionWakes link fn s)

end Sys2Proof.Machine
end

