-- ==== Sys2Proof/Machine/Threads.lean ====
section
/-! DEFINITION. The threads of the packet cores: registers, issue, traps and the faulted state, events, the memories they reach, physical memory protection, the instruction cache and the slot categories (R331-R342, R353, R359-R361 12_packet_cores). What the RISC-V specifications define is PRESUMED from them (log entry 35). -/

namespace Sys2Proof.Machine

/-! ### Registers -/

/-- Integer register of a thread; x0 reads 0. -/
def xreg (s : State) (t r : Nat) : Nat := if r % 32 = 0 then 0 else mgetD (threadOf s t).regs (r % 32) 0
/-- Write an integer register; x0 discards it. -/
def setX (t r v : Nat) (s : State) : State :=
  if r % 32 = 0 then s else modThread t (fun x => { x with regs := mput x.regs (r % 32) (v % 2 ^ 64) }) s
/-- A CSR as held. -/
def csrOf (s : State) (t n : Nat) : Nat := mgetD (threadOf s t).csrs n 0
/-- Set a CSR. -/
def setCsr (t n v : Nat) (s : State) : State := modThread t (fun x => { x with csrs := mput x.csrs n v }) s
/-- Move the pc of a thread on. -/
def stepPc (t n : Nat) (s : State) : State := modThread t (fun x => { x with pc := (x.pc + n) % 2 ^ 64 }) s
/-- All ones: the failure value of the channel instructions and of TBL.GO. -/
def allOnes : Nat := 2 ^ 64 - 1
/-- Sign-extend the low `w` bits to 64. -/
def sext (w v : Nat) : Nat := unsigned 64 (signed w v)

/-- Fixed cycle counter of a core: CK_TAHR at 2 GHz from its last reset (R337). -/
def cyclesOf (s : State) (c : Nat) : Nat := 2 * (s.time.uptime - (coreOf s c).resetAt) % 2 ^ 64
/-- CYCLES of R359: the sum of the five categories. -/
def fixedCycles (x : Core) : Nat := (x.retired + x.wasted + x.feStarved + x.beStarved + x.idle) % 2 ^ 64

/-! ### Halts (R357) -/

/-- dcsr with its fixed fields: version 4. -/
def dcsrOf (s : State) (t : Nat) : Nat := withBits (csrOf s t 0x7B0) 31 28 4

/-- Journal a halt or a resume of a thread, origin debug. -/
def journalHalt (t : Nat) (s : State) : State :=
  (journalCmd { uptime := s.time.uptime, generation := s.mgt.generation, object := t, resource := resId 0x09 (threadCore t),
                opcode := 0x1702, origin := 0x7000 } s).2

/-- Halt a thread: dpc and dcsr hold its place, mode and the cause. -/
def haltThread (t cause : Nat) (s : State) : State :=
  if (threadOf s t).halted then s
  else
    let x := threadOf s t
    let d := withBits (withBits (dcsrOf s t) 8 6 cause) 1 0 (if x.machine then 3 else 0)
    journalHalt t (modThread t (fun x => { x with halted := true, haltSince := s.time.uptime, csrs := mput (mput x.csrs 0x7B0 d) 0x7B1 x.pc }) s)

/-- Resume a thread at dpc in the mode dcsr names; a result that arrived meanwhile is delivered. -/
def resumeThread (t : Nat) (s : State) : State :=
  if !(threadOf s t).halted then s
  else
    let d := dcsrOf s t
    let s := modThread t (fun x => { x with halted := false, pc := mgetD x.csrs 0x7B1 0, machine := bit d 0, resumeAck := true }) s
    let x := threadOf s t
    let s := match x.blocked, x.arrived with
      | some (_, rd), some v => setX t rd v (modThread t (fun x => { x with blocked := none, arrived := none, runnable := some s.time.uptime }) s)
      | _, _ => s
    journalHalt t s

/-! ### Traps and the faulted state (R353) -/

/-- Enter the faulted state: the reservation is voided and the entry reported as TAHR_TRAP. -/
def faultThread (t : Nat) (s : State) : State :=
  report 15 (resId 0x09 (threadCore t)) (leBytes 2 t) (modThread t (fun x => { x with faulted := true }) (voidReservation t s))

/-- Trap to mtvec (mcause, mepc, mtval, mstatus, machine mode); with mtvec 0 or inside a trap the thread is faulted. -/
def trap (t cause tval : Nat) (s : State) : State :=
  let x := threadOf s t
  let st := mgetD x.csrs 0x300 0
  let st := withBits (withBit (withBit st 7 (bit st 3)) 3 false) 12 11 (if x.machine then 3 else 0)
  let tv := mgetD x.csrs 0x305 0
  let s := corePmc t 13 1 (modCore (threadCore t) (fun c => { c with wasted := (c.wasted + 1) % 2 ^ 64 }) s)
  let s := modThread t (fun x => { x with
    csrs := mput (mput (mput (mput x.csrs 0x300 st) 0x341 x.pc) 0x342 cause) 0x343 tval, machine := true, inTrap := true,
    pc := if tv = 0 then x.pc else tv / 4 * 4 }) s
  if tv = 0 || x.inTrap then faultThread t s else s

/-! ### Triggers of the debug module (PRESUMED, log entry 35: mcontrol of debug 0.13.2, matches equal, NAPOT, at least and below) -/

/-- A trigger matches an address: bit `kind` of tdata1 is 2 execute, 1 store, 0 load. -/
def triggerHits (x : Thread) (i kind a : Nat) : Bool :=
  let d1 := mgetD x.csrs (0x10000 + 2 * i) 0
  let d2 := mgetD x.csrs (0x10001 + 2 * i) 0
  d1 / 2 ^ 60 == 2 && bit d1 kind && bit d1 (if x.machine then 6 else 3) &&
  (match bitsOf d1 10 7 with
   | 0 => a == d2
   | 1 => let k := log2 (d2 ^^^ (d2 + 1)); a / 2 ^ (k + 1) == d2 / 2 ^ (k + 1)
   | 2 => decide (d2 ≤ a)
   | 3 => decide (a < d2)
   | _ => false)

/-- The action of the first of the eight triggers that matches: 0 breakpoint exception, 1 halt. -/
def triggerAction (s : State) (t kind a : Nat) : Option Nat :=
  let x := threadOf s t
  ((List.range 8).find? (fun i => triggerHits x i kind a)).map (fun i => bitsOf (mgetD x.csrs (0x10000 + 2 * i) 0) 15 12)

/-! ### Issue (R339, R359-R361) -/

/-- A thread can issue: its core is released and not fenced; it neither waits, is blocked, halted nor faulted. -/
def canIssue (s : State) (t : Nat) : Bool :=
  let x := threadOf s t
  trafficOn s && decide (t < 512) && (coreOf s (threadCore t)).released && !coreFenced s (threadCore t) &&
  !x.halted && !x.faulted && x.waiting.isNone && x.blocked.isNone

/-- What an instruction answers: the state, and the exception it raised instead of retiring. -/
abbrev Issued := State × Option (Nat × Nat)

/-- An instruction that raises an exception and changes nothing. -/
def raise (cause tval : Nat) (s : State) : Issued := (s, some (cause, tval))
/-- Causes of 0x100 and above stand for entry to debug mode: 0x101 an EBREAK, 0x102 a trigger on an access. -/
def debugEntry : Nat := 0x102
/-- An instruction done: the pc moves on. -/
def done (t len : Nat) (s : State) : Issued := (stepPc t len s, none)

/-! ### The wheel of issue slots (R339, R340) -/

/-- The next CK_TAHR cycle of a core in which nothing has issued: cycles 2 u and 2 u + 1 pass while UPTIME is u. -/
def nextCycle (s : State) (c : Nat) : Nat := max (2 * s.time.uptime) (coreOf s c).nextCycle
/-- The cycle passes in the tick at hand. -/
def passesNow (s : State) (n : Nat) : Bool := decide (n < 2 * s.time.uptime + 2)
/-- The cycle is the thread's own slot, and no DIV or REM holds it. -/
def ownSlot (s : State) (t n : Nat) : Bool := n % 8 == t % 8 && decide ((threadOf s t).busyUntil ≤ n)
/-- Of two open threads the first has the better claim to a spare slot: the higher priority, then the one that has least recently received one; the lower number where both never have (DESIGN CHOICE, log entry 9). -/
def spareBefore (s : State) (a b : Nat) : Bool :=
  let x := threadOf s a
  let y := threadOf s b
  decide (y.priority < x.priority) || (x.priority == y.priority && (decide (x.spareAt < y.spareAt) || (x.spareAt == y.spareAt && decide (a < b))))
/-- Threads of the core with a better claim to a cycle than an open thread, as far as the state tells that they can issue: the owner, and the open threads before it. -/
def rivals (s : State) (t n : Nat) : List Nat :=
  (coreThreads (threadCore t)).filter (fun r => r != t && canIssue s r && decide ((threadOf s r).busyUntil ≤ n) &&
    (r % 8 == n % 8 || (!(threadOf s r).metered && spareBefore s r t)))
/-- The thread issues in a cycle: as its owner, or as the open thread that receives the spare slot. Whether a rival has no fetched instruction, or waits for an operand or an access, is a free value (log entry 1). -/
def takesCycle (t n : Nat) (s : State) : Bool × State :=
  if !passesNow s n then (false, s)
  else if ownSlot s t n then (true, s)
  else if (threadOf s t).metered || (threadOf s t).busyUntil > n then (false, s)
  else
    let rs := rivals s t n
    if rs.isEmpty then (true, s)
    else
      let r := draw 8 s
      (rs.all (fun x => bit r.1 (x % 8)), r.2)
/-- The cycle of the tick at hand in which a thread issues, if one does. -/
def cycleFor (t : Nat) (s : State) : Option Nat × State :=
  let n := nextCycle s (threadCore t)
  match takesCycle t n s with
  | (true, s) => (some n, s)
  | (false, s) =>
    let r := takesCycle t (n + 1) s
    (if r.1 then some (n + 1) else none, r.2)

/-- The issue itself in a cycle: the end of a run-wait (R411 point 11), and events 2 and 3 of a spare slot. -/
def startIssue (t n : Nat) (s : State) : State :=
  let s := match (threadOf s t).runnable with
    | some a => monIssue t n (2 * (s.time.uptime - a)) (modThread t (fun x => { x with runnable := none }) s)
    | none => s
  let s := if n % 8 = t % 8 then s
    else corePmc t 3 1 (corePmc (t / 8 * 8 + n % 8) 2 1 (modThread t (fun x => { x with spareAt := n + 1 }) s))
  modCore (threadCore t) (fun c => { c with issued := c.issued ++ [n], nextCycle := n + 1 }) s

/-- An instruction retires. -/
def retire (t : Nat) (s : State) : State :=
  corePmc t 1 1 (modCore (threadCore t) (fun c => { c with retired := (c.retired + 1) % 2 ^ 64 }) s)

/-- Run one issued instruction: it retires or traps; single step halts after it. -/
def runIssued (t : Nat) (f : State → Issued) (s : State) : State :=
  let r := f s
  let s := match r.2 with
    | none => retire t r.1
    | some (cause, tval) => if 0x100 ≤ cause then haltThread t (cause - 0x100) r.1 else trap t cause tval r.1
  if bit (csrOf s t 0x7B0) 2 then haltThread t 4 s else s

/-- A thread issues an instruction in its cycle of the tick at hand, unless a trigger stops it first; nothing happens where the wheel gives it none. -/
def issue (t : Nat) (f : State → Issued) (s : State) : State :=
  if !canIssue s t then s
  else match cycleFor t s with
    | (none, s) => s
    | (some n, s) => match triggerAction s t 2 (threadOf s t).pc with
      | some 1 => haltThread t 2 s
      | some _ => runIssued t (raise 3 (threadOf s t).pc) (startIssue t n s)
      | none => runIssued t f (startIssue t n s)

/-- The reference thread of a cycle in which nothing issued: the slot's owner if it is eligible, else the eligible open thread that would have received the spare (R359). -/
def referenceThread (s : State) (eligible : List Nat) (n : Nat) : Option Nat :=
  match eligible.find? (fun t => t % 8 == n % 8) with
  | some t => some t
  | none => (eligible.filter (fun t => !(threadOf s t).metered)).foldl (fun a t => match a with
    | some b => if spareBefore s t b then some t else a
    | none => some t) none
/-- The slot category of a cycle of a core (R359): an issued one is counted as it retires or is squashed. Whether a reference thread that waits for no table had a fetched instruction is a free value, and so where no thread could have received the slot (log entry 1). -/
def classifyCycle (c n : Nat) (s : State) : State :=
  let eligible := (coreThreads c).filter (fun t => let y := threadOf s t; y.waiting.isNone && !y.halted && !y.faulted)
  if (coreOf s c).issued.contains n then s
  else if eligible.isEmpty then modCore c (fun x => { x with idle := (x.idle + 1) % 2 ^ 64 }) s
  else
    let backend := match referenceThread s eligible n with
      | some t => (threadOf s t).blocked.isSome || decide (n < (threadOf s t).busyUntil)
      | none => false
    let r := if backend then (0, s) else draw 1 s
    if r.1 = 1 then modCore c (fun x => { x with feStarved := (x.feStarved + 1) % 2 ^ 64 }) r.2
    else modCore c (fun x => { x with beStarved := (x.beStarved + 1) % 2 ^ 64 }) r.2
/-- The two CK_TAHR cycles of the tick that has ended, for a core. -/
def coreClock (c : Nat) (s : State) : State :=
  let ts := coreThreads c
  let s := (ts.filter (fun t => (threadOf s t).waiting.isSome)).foldl (fun s t => corePmc t 11 2 s) s
  let s := (ts.filter (fun t => (threadOf s t).halted)).foldl (fun s t => corePmc t 15 2 s) s
  let n := 2 * s.time.uptime
  let s := classifyCycle c (n - 1) (classifyCycle c (n - 2) s)
  if (coreOf s c).issued.isEmpty then s else modCore c (fun x => { x with issued := x.issued.filter (fun k => decide (n ≤ k)) }) s
/-- The two CK_TAHR cycles of a tick count for the stall of a cluster, up to the 65,536 that make one (R355). -/
def stallClock (cl : Nat) (s : State) : State :=
  let q := if quietNow s cl then min 65536 ((clusterOf s cl).quiet + 2) else 0
  if q = (clusterOf s cl).quiet then s else modCluster cl (fun x => { x with quiet := q }) s

/-- Acknowledgements of the peer arrive for what it has received of the reliable classes; how many is the peer's: free values (R307; log entry 80). -/
def pairAcks (s : State) : State :=
  if s.pair.link = 0 then s
  else [3, 4, 5].foldl (fun s cls =>
    let n := (s.pair.unacked.filter (fun m => m.1 == cls)).length
    if n = 0 then s else let r := drawBelow (n + 1) s; pairAcked cls r.1 r.2) s

/-- Control messages cross the bridge in CC0 (both ways), CC1 (both ways) and CC3 as the work of a tick asks; how many is not given: free values (R16; log entry 81). -/
def controlTraffic (s : State) : State :=
  let r := draw 40 s
  (List.range 5).foldl (fun s i => bridgeCross ([2, 3, 4, 5, 8].getD i 0) (bitsOf r.1 (8 * i + 7) (8 * i)) s) r.2

/-- One tick of the device: CK_TIME, the control classes of the bridge, what the peer has acknowledged, lane markers, and the CK_TAHR cycles of the released cores, a fenced one among them, whose domain is powered (R359). -/
def clockTick (s : State) : State :=
  let s' := tick s
  let s' := if s'.time.uptime = s.time.uptime then s' else refreshSchedulers (if s.time.nextStep.isSome then startGates s' else s')
  let s' := if s'.time.uptime = s.time.uptime then s' else sendMarkers (pairAcks (controlTraffic (dc1Markers s')))
  if s'.time.uptime = s.time.uptime || !trafficOn s' then s'
  else
    let s' := ((s'.tahr.cores.filter (fun c => c.2.released && !(domainOf s' (10 + c.1 / 32)).heldOff)).map (·.1)).foldl (fun s c => coreClock c s) s'
    stallClock 1 (stallClock 0 s')

/-! ### Memory of a thread (R332, R333) -/

/-- What a core address names: a byte of the device, or an offset in a register set. -/
inductive Place where
  | mem (device : Nat) (hbm : Bool)
  | set (n off : Nat)
deriving DecidableEq, Repr

/-- The core address map. -/
def place (t a : Nat) : Option Place :=
  let cl := threadCluster t
  if a < 0x10000 then some (.mem (0x30000000 + threadCore t * 0x10000 + a) false)
  else if 0x10000000 ≤ a && a < 0x11000000 then some (.mem (clusterBase cl + (a - 0x10000000)) false)
  else if 0x41000000 ≤ a && a < 0x41001000 then
    some (.set (8 + 8 * cl + (a - 0x41000000) / 0x200) ((a - 0x41000000) % 0x200))
  else if 0x100000000 ≤ a && a < 0x200000000 then some (.mem ((tahrHbm cl).1 + (a - 0x100000000)) true)
  else none

/-- PMP entry of a thread: configuration byte. -/
def pmpCfg (x : Thread) (i : Nat) : Nat := mgetD x.csrs 0x3A0 0 / 256 ^ i % 256
/-- PMP address register. -/
def pmpAddr (x : Thread) (i : Nat) : Nat := mgetD x.csrs (0x3B0 + i) 0
/-- First and last-plus-one byte address of an entry, none where it is off. -/
def pmpRange (x : Thread) (i : Nat) : Option (Nat × Nat) :=
  let a := pmpAddr x i
  match bitsOf (pmpCfg x i) 4 3 with
  | 0 => none
  | 1 => some (if i = 0 then 0 else pmpAddr x (i - 1) * 4, a * 4)
  | 2 => some (a * 4, a * 4 + 4)
  | _ =>
    let k := log2 (a ^^^ (a + 1)) + 1
    some (a / 2 ^ k * 2 ^ k * 4, (a / 2 ^ k + 1) * 2 ^ k * 4)

/-- PMP allows an access of `n` bytes: bit 0 read, 1 write, 2 execute. Machine mode passes entries that are not locked. -/
def pmpAllows (x : Thread) (machine : Bool) (bitNo a n : Nat) : Bool :=
  let hit := (List.range 8).findSome? (fun i => match pmpRange x i with
    | some (lo, hi) => if decide (lo < a + n) && decide (a < hi) then some (i, lo, hi) else none
    | none => none)
  match hit with
  | none => machine
  | some (i, lo, hi) =>
    decide (lo ≤ a) && decide (a + n ≤ hi) && ((machine && !bit (pmpCfg x i) 7) || bit (pmpCfg x i) bitNo)

/-- The mode that loads and stores use: MPRV selects MPP. -/
def dataMachine (x : Thread) : Bool :=
  let st := mgetD x.csrs 0x300 0
  if x.machine && bit st 17 then bitsOf st 12 11 == 3 else x.machine

/-- An access of `n` bytes is allowed and lies in one region: its place. An HBM access reaches no lost byte (R430). -/
def reach (s : State) (t a n bitNo : Nat) : Option Place :=
  let x := threadOf s t
  if !pmpAllows x (dataMachine x) bitNo a n then none
  else match place t a, place t (a + n - 1) with
    | some (.mem d h), some (.mem e g) =>
      if e = d + n - 1 && g == h && !(h && (byteLost s d || byteLost s e)) then some (.mem d h) else none
    | some (.set m o), some (.set k p) => if m = k && o / 8 = p / 8 then some (.set m o) else none
    | _, _ => none

/-- Count an access for the programmable counters; a load of the HBM region records its latency, a free value of at most 1 µs (R334, R411 point 7). -/
def countAccess (t : Nat) (p : Place) (load : Bool) (s : State) : State :=
  match p with
  | .mem d true =>
    let s := corePmc t 6 1 s
    if load then hbmRead ((pcOf s d).getD 0) 1001 s else s
  | .mem d false => if d < 0x30000000 then corePmc t 5 1 s else s
  | .set _ _ => s

/-- A register of a table command set (TBL_CMD and after). -/
def setRegRead (c : CmdSet) (off : Nat) : Nat :=
  if off = 0 then c.cmd else if off = 8 then setStatusWord c else if off = 0x10 then c.handle
  else if 0x40 ≤ off && off < 0x90 then u64 c.key (off - 0x40)
  else if 0xC0 ≤ off && off < 0x100 then u64 c.data (off - 0xC0) else 0

/-- Write bytes into HANDLE, KEY or DATA of a set; a busy set counts the write (R170). -/
def setRegWrite (n off : Nat) (bs : List Byte) (s : State) : State :=
  let c := setOf s n
  if c.busy then modSet n (fun c => { c with busyWrites := (c.busyWrites + 1) % 256 }) s
  else if 0x10 ≤ off && off < 0x18 then modSet n (fun c => { c with handle := leNat (poke (leBytes 8 c.handle) (off - 0x10) bs) }) s
  else if 0x40 ≤ off && off < 0x90 then modSet n (fun c => { c with key := poke (fit 80 c.key) (off - 0x40) bs }) s
  else if 0xC0 ≤ off && off < 0x100 then modSet n (fun c => { c with data := poke (fit 64 c.data) (off - 0xC0) bs }) s
  else s

/-- `n` bytes at a place. -/
def placeRead (s : State) (p : Place) (n : Nat) : List Byte :=
  match p with
  | .mem d _ => Memory.reads s.mem d n
  | .set k o => slice (leBytes 8 (setRegRead (setOf s k) (o / 8 * 8))) (o % 8) n

/-- A store ends every other thread's LR reservation of the 8 bytes it meets; a store of another agent bears a number `t` of no thread. -/
def dropReservations (t d n : Nat) (s : State) : State :=
  { s with tahr.threads := mmap s.tahr.threads (fun k x =>
      if k != t && (match x.reservation with | some g => decide (d / 8 ≤ g) && decide (g ≤ (d + n - 1) / 8) | none => false)
      then { x with reservation := none } else x) }

/-- Store bytes at a place. A thread's write of TBL_CMD is ignored (R333). -/
def placeWrite (t : Nat) (p : Place) (bs : List Byte) (s : State) : State :=
  match p with
  | .mem d _ => dropReservations t d bs.length { s with mem := Memory.writes s.mem d bs }
  | .set k o => setRegWrite k o bs s

/-- A load meets an uncorrectable burst or not, where one stands in the pseudo-channel (R429). -/
def burstMet (p : Place) (s : State) : Bool × State :=
  match p with | .mem d true => meetsAt d s | _ => (false, s)

/-- Load `n` bytes for a thread: the value, or the exception. -/
def loadBytes (t a n : Nat) (s : State) : Except (Nat × Nat) Nat × State :=
  match triggerAction s t 0 a with
  | some k => (.error (if k = 1 then debugEntry else 3, a), s)
  | none => match reach s t a n 0 with
    | none => (.error (5, a), s)
    | some p =>
      let m := burstMet p s
      if m.1 then (.error (5, a), m.2) else (.ok (leNat (placeRead s p n)), countAccess t p true m.2)

/-- Store `n` bytes for a thread. -/
def storeBytes (t a n v : Nat) (s : State) : Option (Nat × Nat) × State :=
  match triggerAction s t 1 a with
  | some k => (some (if k = 1 then debugEntry else 3, a), s)
  | none => match reach s t a n 1 with
    | none => (some (7, a), s)
    | some p => (none, placeWrite t p (leBytes n v) (countAccess t p false s))

/-! ### Instruction fetch (R333, R335) -/

/-- Lines of a core's instruction cache: 64 KiB of 64 bytes (R335; log entry 27). -/
def cacheLines : Nat := 1024
/-- A full cache gives up a line that is not locked; which one is a free value (log entry 27). -/
def evictLine (c : Nat) (s : State) : State :=
  let x := coreOf s c
  let may := (x.icache.filter (fun l => !lockedLine x l.1)).map (·.1)
  if x.icache.length < cacheLines || may.isEmpty then s
  else
    let r := drawBelow may.length s
    modCore c (fun x => { x with icache := mdel x.icache (may.getD r.1 0) }) r.2

/-- A line through the core's cache. Whether a line that is not locked has been evicted is a free value (log entry 27); a miss fills the line and counts (event 4). -/
def fetchLine (t n : Nat) (s : State) : List Byte × State :=
  let c := threadCore t
  let now := clusterLine s (threadCluster t) n
  let fill := fun (s : State) => (now, corePmc t 4 1 (modCore c (fun x => { x with icache := mset x.icache n now }) s))
  match mget (coreOf s c).icache n with
  | none => fill (evictLine c s)
  | some old =>
    if lockedLine (coreOf s c) n then (old, s)
    else
      let r := draw 1 s
      if r.1 = 0 then (old, r.2) else fill r.2

/-- Two bytes of an instruction at a core address, or an instruction access fault. -/
def fetchHalf (t a : Nat) (s : State) : Option Nat × State :=
  let x := threadOf s t
  if 0x10000000 ≤ a && a + 2 ≤ 0x11000000 && pmpAllows x x.machine 2 a 2 then
    let off := a - 0x10000000
    let r := fetchLine t (off / 64) s
    (some (u16 r.1 (off % 64)), r.2)
  else (none, s)

/-! ### Table command completion -/

/-- The threads that TBL.GO left waiting on a set receive TBL_CMD_STATUS (R352); a halted one at its resume (R357). -/
def deliverSet (n : Nat) (s : State) : State :=
  if (setOf s n).busy then s
  else
    let v := setStatusWord (setOf s n)
    (((s.tahr.threads.filter (fun x => match x.2.blocked with | some (k, _) => k == n && x.2.arrived.isNone | none => false)).map (·.1))).foldl
      (fun s t =>
        let x := threadOf s t
        if x.halted then modThread t (fun x => { x with arrived := some v }) s
        else match x.blocked with
          | some (_, rd) => setX t rd v (modThread t (fun x => { x with blocked := none, runnable := some s.time.uptime }) s)
          | none => s) s

/-- TBL_CMD_BUSY_CLEAR. -/
def execTblCmdBusyClear (n : Nat) (s : State) : Host.Outcome State Fault Refusal := answer s (deliverSet n (setFinish n s))

end Sys2Proof.Machine
end

