-- ==== Sys2Proof/Machine/Packets.lean ====
section
/-! DEFINITION. The packet extension: waiting, channels, packets and TBL.GO, with its CSRs and the TIMER event (R336-R352 12_packet_cores). -/

namespace Sys2Proof.Machine

/-- An illegal-instruction exception. -/
def illegal (s : State) : Issued := raise 2 0 s
/-- An instruction that writes rd and moves on by four bytes. -/
def doneX (t rd v : Nat) (s : State) : Issued := done t 4 (setX t rd v s)
/-- PSTAT of a thread is set, and the failure counted for its core. -/
def setPstat (t code : Nat) (s : State) : State :=
  count 0x14 (threadCore t) (code - 1) 1 (modThread t (fun x => { x with pstat := code }) s)

/-! ### Waiting (R341) -/

/-- WFE: pending events in the mask are taken at once, mask 0 answers 0, else the thread waits. -/
def opWfe (t rd rs1 : Nat) (s : State) : Issued :=
  let mask := xreg s t rs1 % 16
  let p := (threadOf s t).evpend &&& mask
  if mask = 0 || p != 0 then doneX t rd p (modThread t (fun x => { x with evpend := x.evpend - p }) s)
  else done t 4 (corePmc t 10 1 (modThread t (fun x => { x with waiting := some (mask, rd) }) s))

/-- A waiting thread whose mask meets a pending event returns from WFE. -/
def wfeReturn (t : Nat) (s : State) : State :=
  let x := threadOf s t
  match x.waiting with
  | none => s
  | some (mask, rd) =>
    let p := x.evpend &&& mask
    if p = 0 || x.halted || x.faulted || coreFenced s (threadCore t) || !trafficOn s then s
    else setX t rd p (modThread t (fun x => { x with waiting := none, evpend := x.evpend - p, runnable := some s.time.uptime }) s)

/-- The TIMER event (R342). -/
def timerEvent (t : Nat) (s : State) : State :=
  let x := threadOf s t
  if x.tcmp != 0 && decide (x.tcmp ≤ cyclesOf s (threadCore t)) then raiseEvent t evTimer (modThread t (fun x => { x with tcmp := 0 }) s)
  else s

/-! ### Channels (R344, R345) -/

/-- Slot handle of a reservation or taken slot (R337). -/
def slotHandle (k i : Nat) : Nat := channelField k + i * 2 ^ 16 + 2 ^ 20
/-- A channel operand names a channel. -/
def channelOperand (v : Nat) : Option Nat := if v < 2 ^ 16 && bitsOf v 14 10 = 0 then some (channelKey v) else none
/-- The channel admits reservations of a thread: PRODUCERS bit 1 its own cluster, bit 2 the other. -/
def admitsThread (c : Channel) (k t : Nat) : Bool := bit c.producers (if k / 1024 = threadCluster t then 1 else 2)
/-- The thread holds a reservation that has not been voided. -/
def reserving (x : Thread) : Bool := match x.resv with | some (_, _, v) => !v | none => false

/-- CH.RSV. -/
def opChRsv (t rd rs1 : Nat) (s : State) : Issued :=
  let x := threadOf s t
  let slot := match channelOperand (xreg s t rs1) with
    | some k =>
      let c := channelOf s k
      if !c.enable || !admitsThread c k t || reserving x then none else (freeChSlot c).map (fun i => (k, i))
    | none => none
  match slot with
  | none => doneX t rd allOnes (corePmc t 8 1 s)
  | some (k, i) =>
    let s := modChannel k (fun c => { c with slots := mset c.slots i ⟨1, zeros 64, t, false⟩, order := c.order ++ [i] }) s
    doneX t rd (slotHandle k i) (modThread t (fun x => { x with resv := some (k, i, false) }) s)

/-- The slot offset of CH.WR and CH.RD is allowed. -/
def slotOffset (imm : Nat) : Bool := imm % 8 == 0 && decide (imm ≤ 56)

/-- CH.WR. -/
def opChWr (t rs1 rs2 imm : Nat) (s : State) : Issued :=
  if !slotOffset imm then illegal s
  else match (threadOf s t).resv with
    | some (k, i, false) =>
      if xreg s t rs1 = slotHandle k i then
        done t 4 (modSlot k i (fun x => { x with data := poke (fit 64 x.data) imm (leBytes 8 (xreg s t rs2)) }) s)
      else done t 4 (setPstat t 1 s)
    | _ => done t 4 (setPstat t 1 s)

/-- CH.CMT. -/
def opChCmt (t rd rs1 : Nat) (s : State) : Issued :=
  match (threadOf s t).resv with
  | some (k, i, voided) =>
    if xreg s t rs1 != slotHandle k i then doneX t rd 2 s
    else
      let s := modThread t (fun x => { x with resv := none }) s
      if voided then doneX t rd 1 s
      else doneX t rd 0 (corePmc t 9 1 (notifyChannel k (modSlot k i (fun x => { x with state := 2 }) s)))
  | none => doneX t rd 2 s

/-- Void slots at the front of the order queue return to FREE and are counted as VOID_SKIP. -/
def skipVoids (k : Nat) : Nat → State → State
  | 0, s => s
  | n + 1, s =>
    match (channelOf s k).order with
    | i :: _ => if (match mget (channelOf s k).slots i with | some x => x.void | none => false) then
        skipVoids k n (count 0x12 k 1 1 (clearSlot k i s)) else s
    | [] => s

/-- CH.GET. -/
def opChGet (t rd rs1 : Nat) (s : State) : Issued :=
  match channelOperand (xreg s t rs1) with
  | none => doneX t rd allOnes s
  | some k =>
    if k / 1024 != threadCluster t then doneX t rd allOnes s
    else
      let s := skipVoids k 16 s
      match (channelOf s k).order with
      | i :: _ =>
        if (match mget (channelOf s k).slots i with | some x => x.state == 2 | none => false) then
          let s := modChannel k (fun c => { c with order := c.order.drop 1 }) (modSlot k i (fun x => { x with state := 3, thread := t }) s)
          doneX t rd (slotHandle k i) (modThread t (fun x => { x with taken := x.taken ++ [(k, i)] }) s)
        else doneX t rd allOnes s
      | [] => doneX t rd allOnes s

/-- The slot of a handle that the thread has taken. -/
def takenSlot (x : Thread) (h : Nat) : Option (Nat × Nat) := x.taken.find? (fun p => slotHandle p.1 p.2 == h)

/-- CH.RD. -/
def opChRd (t rd rs1 imm : Nat) (s : State) : Issued :=
  if !slotOffset imm then illegal s
  else match takenSlot (threadOf s t) (xreg s t rs1) with
    | some (k, i) => doneX t rd (match mget (channelOf s k).slots i with | some x => u64 x.data imm | none => 0) s
    | none => doneX t rd 0 (setPstat t 1 s)

/-- CH.REL. -/
def opChRel (t rd rs1 : Nat) (s : State) : Issued :=
  match takenSlot (threadOf s t) (xreg s t rs1) with
  | some (k, i) => doneX t rd 0 (modThread t (fun x => { x with taken := x.taken.filter (· != (k, i)) }) (clearSlot k i s))
  | none => doneX t rd 2 s

/-! ### Packets (R349-R351) -/

/-- The check of R233 on a handle for a cluster: none where it passes, else the counter position (2 DOUBLE_FREE, 3 FOREIGN_FREE). -/
def handleFails (s : State) (cl h : Nat) : Option Nat :=
  match mget s.buf.heads (h % 2 ^ 20) with
  | some x => if h / 2 ^ 20 != x.seq then some 2 else if x.owner != 0x10 + cl then some 3 else none
  | none => some 2

/-- Octet of the packet space. -/
def packetByte (h : Head) (o : Nat) : Byte :=
  if o < 128 then h.meta_.getD o 0 else if o - 128 < h.recLen then h.frame.getD (o - 128) 0 else 0


/-- PLD. -/
def opPld (t rd rs1 rs2 : Nat) (s : State) : Issued :=
  let h := xreg s t rs1
  let o := xreg s t rs2
  let s := corePmc t 7 1 s
  if (handleFails s (threadCluster t) h).isSome then doneX t rd 0 (setPstat t 1 s)
  else if 16128 ≤ o then doneX t rd 0 (setPstat t 7 s)
  else if inFencedBank s (h % 2 ^ 20) then doneX t rd 0 (setPstat t 2 (bankDrop (h % 2 ^ 20) s))
  else
    let x := mgetD s.buf.heads (h % 2 ^ 20) {}
    doneX t rd (leNat ((List.range 8).map (fun i => packetByte x (o + i)))) s

/-- A metadata byte that PST may write. -/
def metaWritable (o : Nat) : Bool :=
  (decide (5 ≤ o) && decide (o < 8)) || (decide (72 ≤ o) && decide (o < 76)) || (decide (84 ≤ o) && decide (o < 128))

/-- Write a byte of the packet space. -/
def packetPoke (h : Head) (o : Nat) (b : Byte) : Head :=
  if o < 128 then { h with meta_ := poke (fit 128 h.meta_) o [b] } else { h with frame := poke h.frame (o - 128) [b] }

/-- Why a PST of 8 bytes at an offset is refused. -/
def pstFails (s : State) (h : Head) (o : Nat) : Option Nat :=
  let os := (List.range 8).map (· + o)
  if os.any (fun i => 128 ≤ i && h.recLen ≤ i - 128) then some 7
  else if os.any (fun i => i < 128 && !metaWritable i) then some 5
  else if os.any (fun i => 256 ≤ i) && (match h.body with | some f => 1 < (mgetD s.buf.bodies f {}).count | none => false) then some 6
  else none

/-- PST. -/
def opPst (t rd rs1 rs2 rs3 : Nat) (s : State) : Issued :=
  let h := xreg s t rs1
  let o := xreg s t rs2
  let seg := h % 2 ^ 20
  let s := corePmc t 7 1 s
  if (handleFails s (threadCluster t) h).isSome then doneX t rd 1 s
  else if inFencedBank s seg then doneX t rd 2 (bankDrop seg s)
  else match pstFails s (mgetD s.buf.heads seg {}) o with
    | some code => doneX t rd code s
    | none =>
      let bs := leBytes 8 (xreg s t rs3)
      doneX t rd 0 (modHead seg (fun x => (List.range 8).foldl (fun x i => packetPoke x (o + i) (bs.getD i 0)) { x with thread := some t }) s)

/-- The fields of an action word that PDISP refuses before it looks at the packet (R350). -/
def actionRefused (w : Nat) : Bool :=
  let op := bitsOf w 3 0
  4 < op || bitsOf w 7 4 != 0 || bitsOf w 63 46 != 0 || (op != 1 && op != 2 && bitsOf w 27 8 != 0) ||
  (op == 1 && 131072 ≤ bitsOf w 27 8) || (op == 3 && 11 < bitsOf w 31 28)

/-- Truncate a held packet to NEW_LEN octets. -/
def truncatePkt (seg n : Nat) (s : State) : State :=
  if n = 0 then s
  else modHead seg (fun h => { h with frame := h.frame.take n, recLen := n, meta_ := poke (fit 128 h.meta_) 2 (leBytes 2 n) }) s

/-- A forward that is dropped as TAHR_FWD_DROP. -/
def fwdDrop (cl seg : Nat) (s : State) : Nat × State := (3, dropPkt seg 0x13 cl 1 s)

/-- EGRESS and VOQ: the packet joins an egress queue or a VOQ; an unbound VOQ group drops it with reason 0x82 of the pipeline of its SOURCE (R251, log entry 90); else the target's state, its curve or its pool's STOP may drop it. -/
def forward (cl seg n : Nat) (q : QId) (s : State) : Nat × State :=
  let s := truncatePkt seg n s
  let g := q.num / 8
  if !q.egress && !groupUsable s g then (3, dropPkt seg 0x05 (u16 (mgetD s.buf.heads seg {}).meta_ 0 / 16 % 12) 0x82 s)
  else if !q.egress && isFenced s (resId 0x12 (q.num / 131072)) then (3, dropPkt seg 0x0C q.num 6 s)
  else if !q.egress && !destLive s g then (3, dropPkt seg 0x02 (voqBindOf s g).target 3 s)
  else if let some pos := (if q.egress && (eqBindOf s g).kind = 2 then sliceDrop s (eqBindOf s g).target (frameLen s seg) else none) then
    (3, dropPkt seg 0x15 (eqBindOf s g).target pos s)
  else match offerCurve q (u8 (mgetD s.buf.heads seg {}).meta_ 6) s with
    | (true, s) => (3, freePkt seg s)
    | (false, s) =>
      let pool := (qcfgOf s q).pool
      if (poolOf s pool).stopOn then fwdDrop cl seg s else (0, enqueue q seg (recharge seg pool s))

/-- The injection queue of a pipeline takes a reinjected packet (R351, R439). -/
def injectRoom (s : State) (pl : Nat) : Bool :=
  ingressPipeOk s pl && decide ((mgetD s.host.inject (injectKey pl 192) []).length < 64)

/-- REINJECT. -/
def reinject (seg n pl : Nat) (s : State) : Nat × State :=
  if inFencedBank s seg then (2, bankDrop seg s)
  else if !injectRoom s pl then (4, s)
  else
    let h := mgetD s.buf.heads seg {}
    let a : Arrival := { bytes := h.frame.take (if n = 0 then h.recLen else n), carried := slice h.meta_ 84 44 }
    (0, freePkt seg (injectHeader pl 192 a s))

/-- Dispose of a packet by an action word: the status and the state. -/
def dispose (t h w : Nat) (s : State) : Nat × State :=
  let cl := threadCluster t
  let seg := h % 2 ^ 20
  if actionRefused w then (5, s)
  else match handleFails s cl h with
    | some pos => (1, freeRefused (0x10 + cl) pos (h % 2 ^ 32) (mgetD s.buf.heads seg {}).owner t 0 s)
    | none =>
      let n := bitsOf w 45 32
      let op := bitsOf w 3 0
      if 1 ≤ op && op ≤ 3 && decide ((mgetD s.buf.heads seg {}).recLen < n) then (5, s)
      else match op with
        | 0 => (0, freePkt seg s)
        | 1 => forward cl seg n ⟨true, bitsOf w 27 8⟩ s
        | 2 => forward cl seg n ⟨false, bitsOf w 27 8⟩ s
        | 3 => reinject seg n (bitsOf w 31 28) s
        | _ => (0, modHead seg (fun x => { x with owner := 0x11 - cl }) s)

/-- PDISP. -/
def opPdisp (t rd rs1 rs2 : Nat) (s : State) : Issued :=
  let r := dispose t (xreg s t rs1) (xreg s t rs2) (corePmc t 7 1 s)
  doneX t rd r.1 r.2

/-! ### TBL.GO (R352) -/

/-- TBL.GO: a local set above 7 answers BAD_FIELD, a busy set all ones; else the thread is blocked until BUSY clears. -/
def opTblGo (t rd rs1 rs2 : Nat) (s : State) : Issued :=
  let n := xreg s t rs1
  let s := corePmc t 14 1 s
  if 7 < n then doneX t rd (St.badField * 2 ^ 16) s
  else
    let k := 8 + 8 * threadCluster t + n
    if (setOf s k).busy then doneX t rd allOnes (modSet k (fun c => { c with busyWrites := (c.busyWrites + 1) % 256 }) s)
    else done t 4 (modThread t (fun x => { x with blocked := some (k, rd) }) (setCommand k (xreg s t rs2 % 2 ^ 29 + 2 ^ 63) s))

/-! ### The extension's CSRs, CYC and FENCE.I (R335, R337) -/

/-- A write of TCMP: non-zero arms the timer. -/
def setTcmp (t v : Nat) (s : State) : State := modThread t (fun x => { x with tcmp := v % 2 ^ 64 }) s
/-- A write of TSIG raises SIGNAL on a thread of the cluster. -/
def setTsig (t v : Nat) (s : State) : State := raiseEvent (threadCluster t * 256 + v % 256) evSignal s
/-- A read of PSTAT clears it. -/
def readPstat (t : Nat) (s : State) : Nat × State := ((threadOf s t).pstat, modThread t (fun x => { x with pstat := 0 }) s)
/-- FENCE.I: the unlocked lines of the core are invalidated. -/
def fenceI (t : Nat) (s : State) : State :=
  modCore (threadCore t) (fun c => { c with icache := c.icache.filter (fun l => lockedLine c l.1) }) s

/-! ### The commands -/

/-- WFE. -/
def execWfe (t rd rs1 : Nat) (s : State) : Host.Outcome State Fault Refusal := answer s (settleResets (issue t (opWfe t rd rs1) s))
/-- WFE_RETURN. -/
def execWfeReturn (t : Nat) (s : State) : Host.Outcome State Fault Refusal := answer s (wfeReturn t s)
/-- CYC. -/
def execCyc (t rd : Nat) (s : State) : Host.Outcome State Fault Refusal :=
  answer s (issue t (fun s => doneX t rd (cyclesOf s (threadCore t)) s) s)
/-- CH.RSV. -/
def execChRsv (t rd rs1 : Nat) (s : State) : Host.Outcome State Fault Refusal := answer s (issue t (opChRsv t rd rs1) s)
/-- CH.WR. -/
def execChWr (t rs1 rs2 imm : Nat) (s : State) : Host.Outcome State Fault Refusal := answer s (issue t (opChWr t rs1 rs2 imm) s)
/-- CH.CMT. -/
def execChCmt (t rd rs1 : Nat) (s : State) : Host.Outcome State Fault Refusal := answer s (issue t (opChCmt t rd rs1) s)
/-- CH.GET. -/
def execChGet (t rd rs1 : Nat) (s : State) : Host.Outcome State Fault Refusal := answer s (issue t (opChGet t rd rs1) s)
/-- CH.RD. -/
def execChRd (t rd rs1 imm : Nat) (s : State) : Host.Outcome State Fault Refusal := answer s (issue t (opChRd t rd rs1 imm) s)
/-- CH.REL. -/
def execChRel (t rd rs1 : Nat) (s : State) : Host.Outcome State Fault Refusal := answer s (issue t (opChRel t rd rs1) s)
/-- PLD. -/
def execPld (t rd rs1 rs2 : Nat) (s : State) : Host.Outcome State Fault Refusal := answer s (issue t (opPld t rd rs1 rs2) s)
/-- PST. -/
def execPst (t rd rs1 rs2 rs3 : Nat) (s : State) : Host.Outcome State Fault Refusal := answer s (issue t (opPst t rd rs1 rs2 rs3) s)

/-- PDISP as the row of one operation: the thread issues it where the action word in rs2 holds that operation. -/
def pdispOf (op t rd rs1 rs2 : Nat) (s : State) : Host.Outcome State Fault Refusal :=
  answer s (if xreg s t rs2 % 16 = op then issue t (opPdisp t rd rs1 rs2) s else s)
/-- PDISP RELEASE. -/
def execPdispRelease (t rd rs1 rs2 : Nat) (s : State) : Host.Outcome State Fault Refusal := pdispOf 0 t rd rs1 rs2 s
/-- PDISP EGRESS. -/
def execPdispEgress (t rd rs1 rs2 : Nat) (s : State) : Host.Outcome State Fault Refusal := pdispOf 1 t rd rs1 rs2 s
/-- PDISP VOQ. -/
def execPdispVoq (t rd rs1 rs2 : Nat) (s : State) : Host.Outcome State Fault Refusal := pdispOf 2 t rd rs1 rs2 s
/-- PDISP REINJECT. -/
def execPdispReinject (t rd rs1 rs2 : Nat) (s : State) : Host.Outcome State Fault Refusal := pdispOf 3 t rd rs1 rs2 s
/-- PDISP GIVE. -/
def execPdispGive (t rd rs1 rs2 : Nat) (s : State) : Host.Outcome State Fault Refusal := pdispOf 4 t rd rs1 rs2 s
/-- TBL.GO. -/
def execTblGo (t rd rs1 rs2 : Nat) (s : State) : Host.Outcome State Fault Refusal := answer s (issue t (opTblGo t rd rs1 rs2) s)
/-- FENCE.I. -/
def execFenceI (t : Nat) (s : State) : Host.Outcome State Fault Refusal := answer s (issue t (fun s => done t 4 (fenceI t s)) s)
/-- TCMP: an instruction that writes it. -/
def execTcmp (t value : Nat) (s : State) : Host.Outcome State Fault Refusal := answer s (issue t (fun s => done t 4 (setTcmp t value s)) s)
/-- TSIG: an instruction that writes it. -/
def execTsig (t value : Nat) (s : State) : Host.Outcome State Fault Refusal := answer s (issue t (fun s => done t 4 (setTsig t value s)) s)
/-- PSTAT_READ: an instruction that reads it. -/
def execPstatRead (t rd : Nat) (s : State) : Host.Outcome State Fault Refusal :=
  answer s (issue t (fun s => let r := readPstat t s; doneX t rd r.1 r.2) s)
/-- TIMER. -/
def execTimer (t : Nat) (s : State) : Host.Outcome State Fault Refusal := answer s (if trafficOn s then timerEvent t s else s)

end Sys2Proof.Machine
end

