-- ==== Sys2Proof/Machine/Riscv.lean ====
section
/-! DEFINITION. RV64IMAC with machine and user modes, as a thread issues it, the packet extension's encodings among the words it fetches (R331-R337, R361 12_packet_cores). The RISC-V unprivileged and privileged specifications that R331 names are PRESUMED (log entry 35). -/

namespace Sys2Proof.Machine

/-! ### Words -/

/-- R-type word. -/
def rWord (op f3 f7 rd rs1 rs2 : Nat) : Nat := op + rd * 2 ^ 7 + f3 * 2 ^ 12 + rs1 * 2 ^ 15 + rs2 * 2 ^ 20 + f7 * 2 ^ 25
/-- I-type word. -/
def iWord (op f3 rd rs1 imm : Nat) : Nat := op + rd * 2 ^ 7 + f3 * 2 ^ 12 + rs1 * 2 ^ 15 + imm % 2 ^ 12 * 2 ^ 20
/-- S-type word. -/
def sWord (op f3 rs1 rs2 imm : Nat) : Nat :=
  op + imm % 32 * 2 ^ 7 + f3 * 2 ^ 12 + rs1 * 2 ^ 15 + rs2 * 2 ^ 20 + imm / 32 % 128 * 2 ^ 25
/-- B-type word. -/
def bWord (f3 rs1 rs2 imm : Nat) : Nat :=
  0x63 + bitsOf imm 11 11 * 2 ^ 7 + bitsOf imm 4 1 * 2 ^ 8 + f3 * 2 ^ 12 + rs1 * 2 ^ 15 + rs2 * 2 ^ 20 +
  bitsOf imm 10 5 * 2 ^ 25 + bitsOf imm 12 12 * 2 ^ 31
/-- J-type word. -/
def jWord (rd imm : Nat) : Nat :=
  0x6F + rd * 2 ^ 7 + bitsOf imm 19 12 * 2 ^ 12 + bitsOf imm 11 11 * 2 ^ 20 + bitsOf imm 10 1 * 2 ^ 21 + bitsOf imm 20 20 * 2 ^ 31

/-- I immediate. -/
def immI (w : Nat) : Nat := sext 12 (bitsOf w 31 20)
/-- S immediate. -/
def immS (w : Nat) : Nat := sext 12 (bitsOf w 11 7 + bitsOf w 31 25 * 32)
/-- B immediate. -/
def immB (w : Nat) : Nat := sext 13 (bitsOf w 11 8 * 2 + bitsOf w 30 25 * 32 + bitsOf w 7 7 * 2048 + bitsOf w 31 31 * 4096)
/-- U immediate. -/
def immU (w : Nat) : Nat := sext 32 (bitsOf w 31 12 * 4096)
/-- J immediate. -/
def immJ (w : Nat) : Nat := sext 21 (bitsOf w 30 21 * 2 + bitsOf w 20 20 * 2048 + bitsOf w 19 12 * 4096 + bitsOf w 31 31 * 2 ^ 20)

/-! ### Compressed instructions: the 32-bit word each stands for -/

/-- Quadrant 0. -/
def expandQ0 (h : Nat) : Option Nat :=
  let rd := 8 + bitsOf h 4 2
  let rs1 := 8 + bitsOf h 9 7
  let wImm := bitsOf h 12 10 * 8 + bitsOf h 6 6 * 4 + bitsOf h 5 5 * 64
  let dImm := bitsOf h 12 10 * 8 + bitsOf h 6 5 * 64
  match bitsOf h 15 13 with
  | 0 =>
    let imm := bitsOf h 12 11 * 16 + bitsOf h 10 7 * 64 + bitsOf h 6 6 * 4 + bitsOf h 5 5 * 8
    if imm = 0 then none else some (iWord 0x13 0 rd 2 imm)
  | 2 => some (iWord 0x03 2 rd rs1 wImm)
  | 3 => some (iWord 0x03 3 rd rs1 dImm)
  | 6 => some (sWord 0x23 2 rs1 rd wImm)
  | 7 => some (sWord 0x23 3 rs1 rd dImm)
  | _ => none

/-- Quadrant 1. -/
def expandQ1 (h : Nat) : Option Nat :=
  let rd := bitsOf h 11 7
  let imm6 := sext 6 (bitsOf h 6 2 + bitsOf h 12 12 * 32)
  let rc := 8 + bitsOf h 9 7
  let r2 := 8 + bitsOf h 4 2
  match bitsOf h 15 13 with
  | 0 => some (iWord 0x13 0 rd rd imm6)
  | 1 => if rd = 0 then none else some (iWord 0x1B 0 rd rd imm6)
  | 2 => some (iWord 0x13 0 rd 0 imm6)
  | 3 =>
    if rd = 2 then
      let imm := bitsOf h 6 6 * 16 + bitsOf h 2 2 * 32 + bitsOf h 5 5 * 64 + bitsOf h 4 3 * 128 + bitsOf h 12 12 * 512
      if imm = 0 then none else some (iWord 0x13 0 2 2 (sext 10 imm))
    else if imm6 = 0 then none else some (0x37 + rd * 2 ^ 7 + imm6 % 2 ^ 20 * 2 ^ 12)
  | 4 =>
    match bitsOf h 11 10 with
    | 0 => some (iWord 0x13 5 rc rc (imm6 % 64))
    | 1 => some (iWord 0x13 5 rc rc (imm6 % 64 + 0x400))
    | 2 => some (iWord 0x13 7 rc rc imm6)
    | _ =>
      match bitsOf h 12 12, bitsOf h 6 5 with
      | 0, 0 => some (rWord 0x33 0 0x20 rc rc r2)
      | 0, 1 => some (rWord 0x33 4 0 rc rc r2)
      | 0, 2 => some (rWord 0x33 6 0 rc rc r2)
      | 0, _ => some (rWord 0x33 7 0 rc rc r2)
      | _, 0 => some (rWord 0x3B 0 0x20 rc rc r2)
      | _, 1 => some (rWord 0x3B 0 0 rc rc r2)
      | _, _ => none
  | 5 =>
    let imm := bitsOf h 5 3 * 2 + bitsOf h 11 11 * 16 + bitsOf h 2 2 * 32 + bitsOf h 7 7 * 64 + bitsOf h 6 6 * 128 +
      bitsOf h 10 9 * 256 + bitsOf h 8 8 * 1024 + bitsOf h 12 12 * 2048
    some (jWord 0 (sext 12 imm))
  | k =>
    let imm := bitsOf h 4 3 * 2 + bitsOf h 11 10 * 8 + bitsOf h 2 2 * 32 + bitsOf h 6 5 * 64 + bitsOf h 12 12 * 256
    some (bWord (if k = 6 then 0 else 1) rc 0 (sext 9 imm))

/-- Quadrant 2. -/
def expandQ2 (h : Nat) : Option Nat :=
  let rd := bitsOf h 11 7
  let rs2 := bitsOf h 6 2
  match bitsOf h 15 13 with
  | 0 => some (iWord 0x13 1 rd rd (rs2 + bitsOf h 12 12 * 32))
  | 2 => if rd = 0 then none else some (iWord 0x03 2 rd 2 (bitsOf h 6 4 * 4 + bitsOf h 12 12 * 32 + bitsOf h 3 2 * 64))
  | 3 => if rd = 0 then none else some (iWord 0x03 3 rd 2 (bitsOf h 6 5 * 8 + bitsOf h 12 12 * 32 + bitsOf h 4 2 * 64))
  | 4 =>
    if bitsOf h 12 12 = 0 then
      if rs2 = 0 then (if rd = 0 then none else some (iWord 0x67 0 0 rd 0)) else some (rWord 0x33 0 0 rd 0 rs2)
    else if rs2 = 0 then (if rd = 0 then some 0x00100073 else some (iWord 0x67 0 1 rd 0)) else some (rWord 0x33 0 0 rd rd rs2)
  | 6 => some (sWord 0x23 2 2 rs2 (bitsOf h 12 9 * 4 + bitsOf h 8 7 * 64))
  | 7 => some (sWord 0x23 3 2 rs2 (bitsOf h 12 10 * 8 + bitsOf h 9 7 * 64))
  | _ => none

/-- The word a 16-bit instruction stands for; none where it is illegal. -/
def expandC (h : Nat) : Option Nat :=
  match h % 4 with | 0 => expandQ0 h | 1 => expandQ1 h | 2 => expandQ2 h | _ => none

/-! ### Arithmetic -/

/-- Integer operation of funct3, with the alternate form (SUB, SRA), on `w`-bit values; the result has `w` bits. -/
def alu (w f3 : Nat) (alt : Bool) (a b : Nat) : Nat :=
  let sh := b % w
  match f3 with
  | 0 => (if alt then a + 2 ^ w - b else a + b) % 2 ^ w
  | 1 => a * 2 ^ sh % 2 ^ w
  | 2 => b2n (decide (signed w a < signed w b))
  | 3 => b2n (decide (a < b))
  | 4 => a ^^^ b
  | 5 => if alt then unsigned w (signed w a / (2 ^ sh : Nat)) else a / 2 ^ sh
  | 6 => a ||| b
  | _ => a &&& b

/-- Multiply and divide of funct3 on `w`-bit values; division by 0 gives all ones, and the dividend as remainder. -/
def mulDiv (w f3 : Nat) (a b : Nat) : Nat :=
  let x := signed w a
  let y := signed w b
  match f3 with
  | 0 => a * b % 2 ^ w
  | 1 => unsigned w (x * y / (2 ^ w : Nat))
  | 2 => unsigned w (x * b / (2 ^ w : Nat))
  | 3 => a * b / 2 ^ w
  | 4 => if b = 0 then 2 ^ w - 1 else unsigned w (x.tdiv y)
  | 5 => if b = 0 then 2 ^ w - 1 else a / b
  | 6 => if b = 0 then a else unsigned w (x.tmod y)
  | _ => if b = 0 then a else a % b

/-- A branch condition of funct3. -/
def branchTaken (f3 a b : Nat) : Option Bool :=
  match f3 with
  | 0 => some (a == b)
  | 1 => some (a != b)
  | 4 => some (decide (signed 64 a < signed 64 b))
  | 5 => some (!decide (signed 64 a < signed 64 b))
  | 6 => some (decide (a < b))
  | 7 => some (!decide (a < b))
  | _ => none

/-- An atomic operation of funct5 on `w`-bit values: memory and operand. -/
def amoValue (w f5 m b : Nat) : Option Nat :=
  match f5 with
  | 0x00 => some ((m + b) % 2 ^ w)
  | 0x01 => some b
  | 0x04 => some (m ^^^ b)
  | 0x08 => some (m ||| b)
  | 0x0C => some (m &&& b)
  | 0x10 => some (if signed w m ≤ signed w b then m else b)
  | 0x14 => some (if signed w b ≤ signed w m then m else b)
  | 0x18 => some (min m b)
  | 0x1C => some (max m b)
  | _ => none

/-! ### CSRs (R337, R361) -/

/-- Performance counter `i` of a core: 0 the fixed cycle counter, 2 RETIRED, 3 to 10 the programmable ones, others 0. -/
def perfCounter (s : State) (c i : Nat) : Nat :=
  let x := coreOf s c
  if i = 0 then cyclesOf s c else if i = 2 then x.retired else if 3 ≤ i && i ≤ 10 then mgetD x.pmc (i - 3) 0 else 0

/-- Read a CSR; none where it does not exist or the mode may not read it. `machine` is the mode that counts. -/
def csrRead (t n : Nat) (machine : Bool) (s : State) : Option (Nat × State) :=
  let x := threadOf s t
  let c := threadCore t
  let held := some (csrOf s t n, s)
  if bitsOf n 9 8 != 0 && !machine then none
  else match n with
    | 0x800 => some (x.tcmp, s)
    | 0x801 => some (x.evpend, s)
    | 0x802 => some (readPstat t s)
    | 0x803 => some (0, s)
    | 0xC01 => none
    | 0x300 => some (csrOf s t n + 2 * 2 ^ 32, s)
    | 0x301 => some (2 * 2 ^ 62 + 0x901105, s)
    | 0x304 => held | 0x305 => held | 0x306 => held | 0x340 => held | 0x341 => held | 0x342 => held | 0x343 => held
    | 0x344 => some (0, s)
    | 0x320 => some (0, s)
    | 0x3A0 => held
    | 0x3A2 => some (0, s)
    | 0x7A0 => held
    | 0x7A1 => some (mgetD x.csrs (0x10000 + 2 * csrOf s t 0x7A0) (2 * 2 ^ 60), s)
    | 0x7A2 => some (mgetD x.csrs (0x10001 + 2 * csrOf s t 0x7A0) 0, s)
    | 0x7A3 => some (0, s)
    | 0x7A4 => some (4, s)
    | 0xF11 => some (0, s) | 0xF12 => some (0, s) | 0xF13 => some (0, s)
    | 0xF14 => some (t, s)
    | n =>
      if 0xC00 ≤ n && n < 0xC20 then
        if machine || ((coreOf s c).userRead && bit (csrOf s t 0x306) (n - 0xC00)) then some (perfCounter s c (n - 0xC00), s) else none
      else if 0xB00 ≤ n && n < 0xB20 && n != 0xB01 then some (perfCounter s c (n - 0xB00), s)
      else if 0x323 ≤ n && n < 0x340 then some (0, s)
      else if 0x3B0 ≤ n && n < 0x3B8 then held
      else if 0x3B8 ≤ n && n < 0x3C0 then some (0, s)
      else none

/-- The PMP entry of an address register is locked, by itself or by a locked top-of-range entry above it. -/
def pmpLocked (x : Thread) (i : Nat) : Bool :=
  bit (pmpCfg x i) 7 || (decide (i < 7) && bit (pmpCfg x (i + 1)) 7 && bitsOf (pmpCfg x (i + 1)) 4 3 == 1)

/-- New pmpcfg0: locked bytes keep their value; write without read is not taken. -/
def pmpCfgNext (x : Thread) (v : Nat) : Nat :=
  (List.range 8).foldl (fun a i =>
    let old := pmpCfg x i
    let b := v / 256 ^ i % 256 &&& 0x9F
    let b := if b % 4 = 2 then b - 2 else b
    a + (if bit old 7 then old else b) * 256 ^ i) 0

/-- Write a CSR; none where it is read-only or does not exist. Counters and fixed registers ignore a write. -/
def csrWrite (t n v : Nat) (s : State) : Option State :=
  let x := threadOf s t
  if bitsOf n 11 10 = 3 then none
  else match n with
    | 0x800 => some (setTcmp t v s)
    | 0x801 => none
    | 0x802 => none
    | 0x803 => some (setTsig t v s)
    | 0x300 =>
      let mpp := if bitsOf v 12 11 = 0 || bitsOf v 12 11 = 3 then bitsOf v 12 11 else bitsOf (csrOf s t n) 12 11
      some (setCsr t n ((v &&& 0x220088) + mpp * 2 ^ 11) s)
    | 0x305 => some (setCsr t n (v / 4 * 4 + v % 2) s)
    | 0x341 => some (setCsr t n (v / 2 * 2) s)
    | 0x304 => some (setCsr t n (v &&& 0x999) s)
    | 0x306 => some (setCsr t n (v % 2 ^ 32) s)
    | 0x340 => some (setCsr t n v s) | 0x342 => some (setCsr t n v s) | 0x343 => some (setCsr t n v s)
    | 0x3A0 => some (setCsr t n (pmpCfgNext x v) s)
    | 0x7A0 => some (if v < 8 then setCsr t n v s else s)
    | 0x7A1 => some (setCsr t (0x10000 + 2 * csrOf s t 0x7A0) (v % 2 ^ 59 + 2 * 2 ^ 60) s)
    | 0x7A2 => some (setCsr t (0x10001 + 2 * csrOf s t 0x7A0) v s)
    | n =>
      if 0x3B0 ≤ n && n < 0x3B8 then some (if pmpLocked x (n - 0x3B0) then s else setCsr t n (v % 2 ^ 54) s)
      else (csrRead t n true s).map (fun _ => s)

/-- A CSR instruction: funct3 1 write, 2 set, 3 clear, and 5 to 7 with the immediate in rs1. -/
def opCsr (t rd f3 rs1 n : Nat) (s : State) : Issued :=
  let src := if 4 ≤ f3 then rs1 else xreg s t rs1
  match csrRead t n (threadOf s t).machine s with
  | none => illegal s
  | some (old, s1) =>
    let v := match f3 % 4 with | 1 => src | 2 => old ||| src | _ => old &&& (allOnes - src)
    if f3 % 4 != 1 && rs1 = 0 then doneX t rd old s1
    else match csrWrite t n v s1 with
      | none => illegal s
      | some s2 => doneX t rd old s2

/-! ### Instructions -/

/-- A jump: the link register, then the target. -/
def jumpTo (t rd len target : Nat) (s : State) : Issued :=
  let link := ((threadOf s t).pc + len) % 2 ^ 64
  (modThread t (fun x => { x with pc := target % 2 ^ 64 }) (setX t rd link s), none)

/-- DIV and REM take five own slots of a metered thread, the one of their issue among them (R340). -/
def holdDivide (t f3 : Nat) (x : Issued) : Issued :=
  if 4 ≤ f3 && (threadOf x.1 t).metered then
    (modThread t (fun y => { y with busyUntil := (coreOf x.1 (threadCore t)).nextCycle + 39 }) x.1, x.2)
  else x

/-- A branch of an open thread may be mispredicted, which is a free value: event 12 and squashed instructions (log entry 1; R340 rules it out for metered threads). -/
def predict (t : Nat) (s : State) : State :=
  if (threadOf s t).metered then s
  else
    let r := drawBelow 8 s
    if r.1 = 0 then r.2
    else corePmc t 12 1 (modCore (threadCore t) (fun c => { c with
      wasted := (c.wasted + r.1) % 2 ^ 64, issued := c.issued ++ (List.range r.1).map (· + c.nextCycle), nextCycle := c.nextCycle + r.1 }) r.2)

/-- A load of funct3. -/
def opLoad (t rd f3 a len : Nat) (s : State) : Issued :=
  let n := 2 ^ (f3 % 4)
  if f3 = 7 then illegal s
  else match loadBytes t a n s with
    | (.error (c, v), s) => raise c v s
    | (.ok v, s) => done t len (setX t rd (if f3 < 4 then sext (8 * n) v else v) s)

/-- A store of funct3. -/
def opStore (t f3 a v len : Nat) (s : State) : Issued :=
  if 3 < f3 then illegal s
  else match storeBytes t a (2 ^ f3) v s with
    | (some (c, x), s) => raise c x s
    | (none, s) => done t len s

/-- LR, SC and the AMOs: scratch and cluster memory only; elsewhere a store/AMO access fault (R333). -/
def opAmo (t rd f3 f5 a rs2 len : Nat) (s : State) : Issued :=
  let n := 2 ^ f3
  let lr := f5 == 2
  if (f3 != 2 && f3 != 3) || (lr && rs2 % 32 != 0) || (!lr && f5 != 3 && (amoValue 8 f5 0 0).isNone) then illegal s
  else if a % n != 0 then raise (if lr then 4 else 6) a s
  else match triggerAction s t (if lr then 0 else 1) a with
    | some k => raise (if k = 1 then debugEntry else 3) a s
    | none =>
      match place t a, reach s t a n (if lr then 0 else 1) with
      | some (.mem _ true), _ => raise 7 a s
      | some (.set _ _), _ => raise 7 a s
      | _, some (.mem d _) =>
        let s := countAccess t (.mem d false) lr s
        let old := leNat (Memory.reads s.mem d n)
        let keep := modThread t (fun x => { x with reservation := none }) s
        if lr then done t len (setX t rd (sext (8 * n) old) (modThread t (fun x => { x with reservation := some (d / 8) }) s))
        else if f5 = 3 then
          if (threadOf s t).reservation = some (d / 8) then
            done t len (setX t rd 0 (placeWrite t (.mem d false) (leBytes n (xreg s t rs2)) keep))
          else done t len (setX t rd 1 keep)
        else if !pmpAllows (threadOf s t) (dataMachine (threadOf s t)) 0 a n then raise 7 a s
        else
          let v := (amoValue (8 * n) f5 old (xreg s t rs2 % 2 ^ (8 * n))).getD 0
          done t len (setX t rd (sext (8 * n) old) (placeWrite t (.mem d false) (leBytes n v) s))
      | _, _ => raise (if lr then 5 else 7) a s

/-- MRET: the trap ends; mode, interrupt enable and pc return. -/
def opMret (t : Nat) (s : State) : Issued :=
  if !(threadOf s t).machine then illegal s
  else
    let st := csrOf s t 0x300
    let mpp := bitsOf st 12 11
    let st := withBit (withBit (withBits st 12 11 0) 3 (bit st 7)) 7 true
    let st := if mpp = 3 then st else withBit st 17 false
    (modThread t (fun x => { x with machine := mpp == 3, inTrap := false, pc := mgetD x.csrs 0x341 0, csrs := mput x.csrs 0x300 st }) s, none)

/-- ECALL, EBREAK, MRET, WFI and the CSR instructions. -/
def opSystem (t w : Nat) (s : State) : Issued :=
  let x := threadOf s t
  let f3 := bitsOf w 14 12
  if f3 = 4 then illegal s
  else if f3 != 0 then opCsr t (bitsOf w 11 7) f3 (bitsOf w 19 15) (bitsOf w 31 20) s
  else if w = 0x00000073 then raise (if x.machine then 11 else 8) 0 s
  else if w = 0x00100073 then
    if bit (dcsrOf s t) (if x.machine then 15 else 12) then raise 0x101 0 s else raise 3 x.pc s
  else if w = 0x30200073 then opMret t s
  else if w = 0x10500073 then (if !x.machine && bit (csrOf s t 0x300) 21 then illegal s else done t 4 s)
  else illegal s

/-- The packet extension's encodings (R336). -/
def opExtension (t w : Nat) (s : State) : Issued :=
  let rd := bitsOf w 11 7
  let r1 := bitsOf w 19 15
  let r2 := bitsOf w 24 20
  let f3 := bitsOf w 14 12
  let f7 := bitsOf w 31 25
  match w % 128 with
  | 0x0B =>
    match f3, f7 with
    | 0, 0 => if r2 = 0 then opWfe t rd r1 s else illegal s
    | 0, 1 => if r1 = 0 && r2 = 0 then doneX t rd (cyclesOf s (threadCore t)) s else illegal s
    | 1, 0 => if r2 = 0 then opChRsv t rd r1 s else illegal s
    | 1, 1 => if r2 = 0 then opChCmt t rd r1 s else illegal s
    | 2, 0 => if r2 = 0 then opChGet t rd r1 s else illegal s
    | 2, 1 => if r2 = 0 then opChRel t rd r1 s else illegal s
    | 3, 0 => opPld t rd r1 r2 s
    | 3, 1 => opPdisp t rd r1 r2 s
    | 4, 0 => opTblGo t rd r1 r2 s
    | _, _ => illegal s
  | 0x2B =>
    match f3 with
    | 0 => opChWr t r1 r2 (bitsOf w 11 7 + f7 * 32) s
    | 1 => opChRd t rd r1 (bitsOf w 31 20) s
    | _ => illegal s
  | _ => if f3 = 0 && bitsOf w 26 25 = 0 then opPst t rd r1 r2 (bitsOf w 31 27) s else illegal s

/-- One instruction word of `len` bytes. -/
def rvExec (t w len : Nat) (s : State) : Issued :=
  let rd := bitsOf w 11 7
  let r1 := bitsOf w 19 15
  let r2 := bitsOf w 24 20
  let f3 := bitsOf w 14 12
  let f7 := bitsOf w 31 25
  let a := xreg s t r1
  let b := xreg s t r2
  let pc := (threadOf s t).pc
  let put := fun (v : Nat) => done t len (setX t rd v s)
  match w % 128 with
  | 0x37 => put (immU w)
  | 0x17 => put (pc + immU w)
  | 0x6F => jumpTo t rd len (pc + immJ w) s
  | 0x67 => if f3 = 0 then jumpTo t rd len ((a + immI w) % 2 ^ 64 / 2 * 2) s else illegal s
  | 0x63 => match branchTaken f3 a b with
    | none => illegal s
    | some true => (modThread t (fun x => { x with pc := (pc + immB w) % 2 ^ 64 }) (predict t s), none)
    | some false => done t len (predict t s)
  | 0x03 => opLoad t rd f3 ((a + immI w) % 2 ^ 64) len s
  | 0x23 => opStore t f3 ((a + immS w) % 2 ^ 64) b len s
  | 0x13 =>
    let k := bitsOf w 31 26
    if f3 = 1 then (if k = 0 then put (alu 64 1 false a (bitsOf w 25 20)) else illegal s)
    else if f3 = 5 then (if k = 0 || k = 0x10 then put (alu 64 5 (k == 0x10) a (bitsOf w 25 20)) else illegal s)
    else put (alu 64 f3 false a (immI w))
  | 0x1B =>
    let x := a % 2 ^ 32
    if f3 = 0 then put (sext 32 (a + immI w))
    else if f3 = 1 && f7 = 0 then put (sext 32 (alu 32 1 false x r2))
    else if f3 = 5 && (f7 = 0 || f7 = 0x20) then put (sext 32 (alu 32 5 (f7 == 0x20) x r2))
    else illegal s
  | 0x33 =>
    if f7 = 1 then holdDivide t f3 (put (mulDiv 64 f3 a b))
    else if f7 = 0 || (f7 = 0x20 && (f3 = 0 || f3 = 5)) then put (alu 64 f3 (f7 == 0x20) a b)
    else illegal s
  | 0x3B =>
    let x := a % 2 ^ 32
    let y := b % 2 ^ 32
    if f7 = 1 && (f3 = 0 || 4 ≤ f3) then holdDivide t f3 (put (sext 32 (mulDiv 32 f3 x y)))
    else if (f7 = 0 || f7 = 0x20) && (f3 = 0 || f3 = 5) || (f7 = 0 && f3 = 1) then put (sext 32 (alu 32 f3 (f7 == 0x20) x y))
    else illegal s
  | 0x0F => if f3 = 0 then done t len s else if f3 = 1 then done t len (fenceI t s) else illegal s
  | 0x2F => opAmo t rd f3 (bitsOf w 31 27) a r2 len s
  | 0x73 => opSystem t w s
  | 0x0B => opExtension t w s
  | 0x2B => opExtension t w s
  | 0x5B => opExtension t w s
  | _ => illegal s

/-- Fetch the instruction at the pc and run it. -/
def rvIssue (t : Nat) (s : State) : Issued :=
  let pc := (threadOf s t).pc
  match fetchHalf t pc s with
  | (none, s) => raise 1 pc s
  | (some lo, s) =>
    if lo % 4 = 3 then
      match fetchHalf t (pc + 2) s with
      | (none, s) => raise 1 (pc + 2) s
      | (some hi, s) => rvExec t (lo + hi * 2 ^ 16) 4 s
    else match expandC lo with
      | none => illegal s
      | some w => rvExec t w 2 s

/-- RV64IMAC_INSTRUCTION: the thread issues the instruction at its pc. -/
def execRv64imac (t : Nat) (s : State) : Host.Outcome State Fault Refusal := answer s (settleResets (issue t (rvIssue t) s))

end Sys2Proof.Machine
end

