-- ==== Sys2Proof/Machine/Tahr.lean ====
section
/-! DEFINITION. The debug module of the clusters, hold timeouts, counter dumps, the TAHR and DEBUG commands and the TAHR_ registers (R357-R362 12_packet_cores). What the RISC-V External Debug Support specification 0.13.2 defines is PRESUMED from it (log entry 35). -/

namespace Sys2Proof.Machine

/-! ### The debug module -/

/-- A debug module register as held. -/
def dmReg (s : State) (cl a : Nat) : Nat := mgetD (clusterOf s cl).dmi a 0
/-- Set a debug module register. -/
def setDm (cl a v : Nat) (s : State) : State := modCluster cl (fun x => { x with dmi := mput x.dmi a v }) s
/-- hartsel: hartsello with hartselhi above it. -/
def hartsel (s : State) (cl : Nat) : Nat := bitsOf (dmReg s cl 0x10) 25 16 + bitsOf (dmReg s cl 0x10) 15 6 * 1024
/-- The selected thread, where it exists. -/
def selected (s : State) (cl : Nat) : Option Nat := if hartsel s cl < 256 then some (cl * 256 + hartsel s cl) else none
/-- A thread that the debug module cannot reach: its core is not released or is fenced. -/
def unavailable (s : State) (t : Nat) : Bool := !(coreOf s (threadCore t)).released || coreFenced s (threadCore t)

/-- dmstatus: version 2, authenticated, and the state of the selected thread in its any and all bits. -/
def dmstatus (s : State) (cl : Nat) : Nat :=
  let both := fun (b : Bool) (lo : Nat) => b2n b * 3 * 2 ^ lo
  2 + 2 ^ 7 + (match selected s cl with
    | none => both true 14
    | some t =>
      let x := threadOf s t
      let u := unavailable s t
      both u 12 + both (!u && x.halted) 8 + both (!u && !x.halted) 10 + both x.resumeAck 16 + both x.haveReset 18)

/-- Halted threads of group `g` of 32. -/
def haltBits (s : State) (cl g : Nat) : Nat :=
  (List.range 32).foldl (fun a i => a + b2n (threadOf s (cl * 256 + g * 32 + i)).halted * 2 ^ i) 0

/-- Set cmderr. -/
def cmdErr (cl e : Nat) (s : State) : State := setDm cl 0x16 e s

/-- Read a register through an abstract command: dcsr, dpc, another CSR, or a general register. -/
def abstractRead (t r : Nat) (s : State) : Option (Nat × State) :=
  if r = 0x7B0 then some (dcsrOf s t, s)
  else if r = 0x7B1 then some (csrOf s t r, s)
  else if r < 0x1000 then csrRead t r true s
  else if r < 0x1020 then some (xreg s t r, s)
  else none
/-- Write a register through an abstract command. -/
def abstractWrite (t r v : Nat) (s : State) : Option State :=
  if r = 0x7B0 then some (setCsr t r (v &&& 0x9007 ||| (csrOf s t r &&& 0x1C0)) s)
  else if r = 0x7B1 then some (setCsr t r v s)
  else if r < 0x1000 then csrWrite t r v s
  else if r < 0x1020 then some (setX t r v s)
  else none

/-- Run the access-register command word (no program buffer, so postexec is not supported). -/
def abstractRun (cl w : Nat) (s : State) : State :=
  let size := bitsOf w 22 20
  if bitsOf w 31 24 != 0 || bit w 18 || (bit w 17 && size != 3 && !(size == 2 && !bit w 16)) then cmdErr cl 2 s
  else match selected s cl with
    | none => cmdErr cl 4 s
    | some t =>
      if !(threadOf s t).halted then cmdErr cl 4 s
      else
        let r := w % 2 ^ 16
        let next := fun (s : State) => if bit w 19 then setDm cl 0x17 (withBits w 15 0 (r + 1)) s else s
        if !bit w 17 then next s
        else if bit w 16 then
          match abstractWrite t r (dmReg s cl 0x04 + dmReg s cl 0x05 * 2 ^ 32) s with
          | some s => next s
          | none => cmdErr cl 3 s
        else match abstractRead t r s with
          | some (v, s) =>
            let s := setDm cl 0x04 (v % 2 ^ 32) s
            next (if size = 3 then setDm cl 0x05 (v / 2 ^ 32) s else s)
          | none => cmdErr cl 3 s

/-- An access of a data register runs the last command again where abstractauto says so. -/
def autoExec (cl i : Nat) (s : State) : State :=
  if bit (dmReg s cl 0x18) i && dmReg s cl 0x16 = 0 then abstractRun cl (dmReg s cl 0x17) s else s

/-- Read a debug module register. -/
def dmiRead (cl a : Nat) (s : State) : Nat × State :=
  match a with
  | 0x04 => (dmReg s cl 4, autoExec cl 0 s)
  | 0x05 => (dmReg s cl 5, autoExec cl 1 s)
  | 0x10 => (dmReg s cl 0x10, s)
  | 0x11 => (dmstatus s cl, s)
  | 0x13 => ((List.range 8).foldl (fun v g => v + b2n (haltBits s cl g != 0) * 2 ^ g) 0, s)
  | 0x16 => (2 + dmReg s cl 0x16 * 2 ^ 8, s)
  | 0x18 => (dmReg s cl 0x18, s)
  | 0x40 => (if hartsel s cl < 256 then haltBits s cl (hartsel s cl / 32) else 0, s)
  | _ => (0, s)

/-- A write of dmcontrol: dmactive 0 resets the module; else hartsel, then halt or resume of the selected thread. -/
def dmcontrolWrite (cl v : Nat) (s : State) : State :=
  if !bit v 0 then modCluster cl (fun x => { x with dmi := [] }) s
  else
    let s := setDm cl 0x10 (v &&& 0x03FFFFC1) s
    match selected s cl with
    | none => s
    | some t =>
      if unavailable s t then s
      else
        let s := if bit v 28 then modThread t (fun x => { x with haveReset := false }) s else s
        if bit v 31 then haltThread t 3 s
        else if bit v 30 then resumeThread t (modThread t (fun x => { x with resumeAck := x.resumeAck && !x.halted }) s)
        else s

/-- Write a debug module register. -/
def dmiWrite (cl a v : Nat) (s : State) : State :=
  if a = 0x10 then dmcontrolWrite cl v s
  else if !bit (dmReg s cl 0x10) 0 then s
  else match a with
    | 0x04 => autoExec cl 0 (setDm cl 4 v s)
    | 0x05 => autoExec cl 1 (setDm cl 5 v s)
    | 0x16 => setDm cl 0x16 (dmReg s cl 0x16 &&& (7 - bitsOf v 10 8)) s
    | 0x17 => if dmReg s cl 0x16 != 0 then s else abstractRun cl v (setDm cl 0x17 v s)
    | 0x18 => setDm cl 0x18 (v % 4) s
    | _ => s

/-- DMI_ACCESS: through JTAG. -/
def execDmiAccess (cl : Nat) (write : Bool) (addr data : Nat) (s : State) : Host.Outcome State Fault Refusal :=
  answer s (if !running s || 2 ≤ cl || 128 ≤ addr then s
    else if write then settleResets (dmiWrite cl addr (data % 2 ^ 32) s)
    else let r := dmiRead cl addr s; emit (.data r.1) r.2)

/-- HOLD_TIMEOUT (R358): the reservation of a thread halted that long is voided and journalled. -/
def execHoldTimeout (t : Nat) (s : State) : Host.Outcome State Fault Refusal :=
  answer s (
    let x := threadOf s t
    let h := (clusterOf s (threadCluster t)).holdTimeout
    if mailboxReady s && h != 0 && x.halted && reserving x && decide (x.haltSince + h * 1000 ≤ s.time.uptime) then
      (journalFw 0x1702 t (resId 0x09 (threadCore t)) (voidReservation t s)).2
    else s)

/-- Checks of a debug payload: `write` is DEBUG_CONTROL. -/
def debugFields (write : Bool) (c : Cmd) : Option Fail :=
  firstFail [
    (c.at 0 1 == 0 || (write && c.at 0 1 == 1), badField 0), (decide (c.at 1 1 ≤ 1), badField 1),
    (c.at 0 1 == 0 || decide (c.at 4 4 ≤ 10000000), badField 4), (c.at 0 1 != 0 || decide (c.at 8 1 < 128), badField 8)]

/-- DEBUG_READ (0x1701). -/
def debugReadSpec : CmdSpec :=
  { opcode := 0x1701, kind := .r, layout := plain 16 [rsv 2 2, rsv 9 7], resLen := fun _ _ => 4
    fields := fun c _ => debugFields false c
    run := fun c s =>
      let r := dmiRead (c.at 1 1) (c.at 8 1) s
      .ok { s := r.2, result := leBytes 4 r.1, log := .silent } }

/-- DEBUG_CONTROL (0x1702). -/
def debugControlSpec : CmdSpec :=
  { opcode := 0x1702, kind := .o, layout := plain 16 [rsv 2 2, rsv 9 7]
    fields := fun c _ => debugFields true c
    run := fun c s => .ok { s := if c.at 0 1 = 0 then settleResets (dmiWrite (c.at 1 1) (c.at 8 1) (c.at 4 4) s)
                                 else modCluster (c.at 1 1) (fun x => { x with holdTimeout := c.at 4 4 }) s }
    object := fun c _ _ => c.at 1 1 }

/-! ### Counters and dumps (R360, R362) -/

/-- Cores that the CORE byte of a core section names. -/
def coresAt (v : Nat) : List Nat := if v = 255 then List.range 64 else [v]

/-- Set USER_READ and the selections of a core; a counter whose selection changes restarts at 0. -/
def setSelects (ws : List Nat) (userRead : Bool) (c : Nat) (s : State) : State :=
  modCore c (fun x => { x with
    userRead := userRead, selects := ws
    pmc := (List.range 8).foldl (fun m i => if x.selects.getD i 0 = ws.getD i 0 then m else mdel m i) x.pmc }) s

/-- TAHR_COUNTER_SET (0x0E03). -/
def tahrCounterSetSpec : CmdSpec :=
  { opcode := 0x0E03, kind := .c, replicated := fun _ => true
    layout := fun c => match c.at 0 1 with
      | 0 => .ok { len := 40, rsvd := rsv 3 5 :: (List.range 8).map (fun i => rsv (10 + 4 * i) 2) }
      | 1 => .ok { len := 24, rsvd := [rsv 3 1, rsv 16 8] }
      | _ => .error (badField 0)
    fields := fun c _ =>
      if c.at 0 1 = 0 then firstFail ([
        (decide (c.at 1 1 < 64) || c.at 1 1 == 255, badField 1), (decide (c.at 2 1 ≤ 1), badField 2)] ++
        (List.range 8).map (fun i => (decide (c.at (8 + 4 * i) 1 < 16), badField (8 + 4 * i))))
      else firstFail [
        (decide (c.at 1 1 ≤ 1), badField 1), (decide (c.at 2 1 ≤ 2), badField 2),
        (decide (100 ≤ c.at 4 4) && decide (c.at 4 4 ≤ 10000000), badField 4), (c.at 8 4 % 4096 == 0, badField 8),
        (decide (1 ≤ c.at 12 4) && decide (c.at 12 4 ≤ 65536), badField 12),
        (c.at 2 1 == 0 || decide (c.at 8 4 + c.at 12 4 * 4096 ≤ (if c.at 2 1 = 1 then 2 ^ 24 else 2 ^ 32)), badField 8)]
    objects := fun c _ => if c.at 0 1 = 0 then (coresAt (c.at 1 1)).map (fun i => objKey 32 i 0) else [objKey 33 (c.at 1 1) 0]
    object := fun c _ _ => c.at 1 1
    apply := fun c s =>
      if c.at 0 1 = 0 then
        .ok ((coresAt (c.at 1 1)).foldl (fun s i =>
          setSelects ((List.range 8).map (fun j => c.at (8 + 4 * j) 4)) (c.at 2 1 == 1) i s) s, [])
      else .ok (modCluster (c.at 1 1) (fun x => { x with
        dumpDest := c.at 2 1, dumpPeriod := c.at 4 4, dumpBase := c.at 8 4, dumpDepth := c.at 12 4,
        dumpAt := s.time.uptime, dumpNext := 0 }) s, []) }

/-- Device address of a cluster's dump range: cluster memory or its HBM region. -/
def dumpRange (cl : Nat) (x : Cluster) : Nat := (if x.dumpDest = 1 then clusterBase cl else (tahrHbm cl).1) + x.dumpBase

/-- The record of a core for a period: 128 bytes. -/
def coreRecord (s : State) (p c : Nat) : List Byte :=
  let x := coreOf s c
  leBytes 8 s.time.uptime ++ leBytes 4 (bootNo s) ++ leBytes 2 (p % 2 ^ 16) ++ leBytes 1 c ++
  leBytes 1 (b2n x.resetSince + b2n (coreFenced s c) * 2) ++
  ([fixedCycles x, x.retired, x.wasted, x.feStarved, x.beStarved, x.idle].map (leBytes 8)).flatten ++
  ((List.range 8).map (fun i => leBytes 8 (mgetD x.pmc i 0))).flatten

/-- TAHR_DUMP: the period that falls due is written for the 32 cores of the cluster, or counted in MISSED. -/
def execTahrDump (cl : Nat) (s : State) : Host.Outcome State Fault Refusal :=
  answer s (
    let x := clusterOf s cl
    if !trafficOn s || 2 ≤ cl || x.dumpDest = 0 || s.time.uptime < x.dumpAt + (x.dumpNext + 1) * x.dumpPeriod * 1000 then s
    else
      let p := x.dumpNext
      let base := dumpRange cl x + p % x.dumpDepth * 4096
      if (if x.dumpDest = 1 then isFenced s (resId 0x11 cl) else someLost s base 4096) then
        modCluster cl (fun x => { x with dumpNext := p + 1, missed := (x.missed + 1) % 2 ^ 16 }) s
      else
        let cores := (List.range 32).map (· + cl * 32)
        let s := dropReservations 512 base 4096 { s with mem := Memory.writes s.mem base (cores.map (coreRecord s p)).flatten }
        let s := cores.foldl (fun s c => if (coreOf s c).resetSince then modCore c (fun x => { x with resetSince := false }) s else s) s
        modCluster cl (fun x => { x with dumpNext := p + 1, lastSeq := p % 2 ^ 32 }) s)

/-! ### Registers and TAHR_GET -/

/-- Bits of the eight threads of a core that satisfy a test. -/
def threadBits (s : State) (c : Nat) (f : Thread → Bool) : Nat :=
  (List.range 8).foldl (fun a i => a + b2n (f (threadOf s (c * 8 + i))) * 2 ^ i) 0

/-- TAHR_CORE_STATUS. -/
def coreStatusWord (s : State) (c : Nat) : Nat :=
  let x := coreOf s c
  threadBits s c (fun x => x.waiting.isSome) + threadBits s c (·.halted) * 2 ^ 8 + threadBits s c (·.faulted) * 2 ^ 16 +
  b2n (coreFenced s c) * 2 ^ 24 + b2n x.userRead * 2 ^ 25 + x.cause * 2 ^ 26 + x.resets * 2 ^ 32

/-- TAHR_THREAD_STATUS. -/
def threadStatusWord (s : State) (t : Nat) : Nat :=
  let x := threadOf s t
  (if x.faulted then 3 else if x.halted then 2 else if x.waiting.isSome then 1 else 0) + b2n x.metered * 4 + x.priority * 8 +
  b2n (reserving x) * 2 ^ 5 + x.evpend * 2 ^ 6

/-- TAHR_CLUSTER_STATUS. -/
def clusterStatusWord (s : State) (cl : Nat) : Nat :=
  let x := clusterOf s cl
  x.lastSeq + x.missed * 2 ^ 32 + x.stalls * 2 ^ 48

/-- The core section as last committed. -/
def coreSection (s : State) (c : Nat) : List Byte :=
  let x := coreOf s c
  leBytes 1 0 ++ leBytes 1 c ++ leBytes 1 (b2n x.userRead) ++ zeros 5 ++
  ((List.range 8).map (fun i => leBytes 4 (x.selects.getD i 0))).flatten

/-- The dump section as last committed. -/
def dumpSection (s : State) (cl : Nat) : List Byte :=
  let x := clusterOf s cl
  leBytes 1 1 ++ leBytes 1 cl ++ leBytes 1 x.dumpDest ++ zeros 1 ++ leBytes 4 x.dumpPeriod ++ leBytes 4 x.dumpBase ++
  leBytes 4 x.dumpDepth ++ zeros 8

/-- TAHR_GET (0x0E01). -/
def tahrGetSpec : CmdSpec :=
  { opcode := 0x0E01, kind := .r, layout := plain 8 [rsv 1 3]
    resLen := fun c _ => match c.at 0 1 with | 0 => 16 | 1 => 40 | 2 => 24 | _ => 72
    fields := fun c _ => firstFail [
      (decide (c.at 0 1 ≤ 3), badField 0),
      (match c.at 0 1 with
       | 0 => (channelOperand (c.at 4 4)).isSome
       | 2 => decide (c.at 4 4 < 2)
       | _ => decide (c.at 4 4 < 64), badField 4)]
    run := fun c s =>
      let i := c.at 4 4
      .ok { s := s, log := .silent
            result := match c.at 0 1 with
              | 0 => channelBytes s (channelKey i)
              | 1 => coreSection s i
              | 2 => dumpSection s i
              | _ => leBytes 8 (coreStatusWord s i) ++ ((List.range 8).map (fun j => leBytes 8 (threadStatusWord s (i * 8 + j)))).flatten } }

end Sys2Proof.Machine
end

