-- ==== Sys2Proof/Machine/Trust.lean ====
section
/-! DEFINITION. Device trust: verified artefacts, the fused keys, and the commands FIRMWARE_GET, FIRMWARE_WRITE, FIRMWARE_ACTIVATE and FIRMWARE_ATTEST (R450-R453, R456, R458-R462, R465-R471 17_firmware_and_trust). -/

namespace Sys2Proof.Machine

/-! ### Activation checks (R462) -/

/-- The checks of R462 on the slots, apart from the role rule; a slot below the fused security version cannot be returned to (R465). -/
def activationOk (s : State) (kinds : Nat) (expect : List Byte) : Bool :=
  let chosen := fun (k : Nat) => bit kinds (k - 1)
  let header := fun (k : Nat) => if chosen k then artefactHeader (slotOf s k (otherSlot s k)).data else mgetD s.boot.running k []
  let digest := fun (k : Nat) => if chosen k then headerDigest (header k) else runningDigest s k
  [1, 2, 3].all (fun k => !chosen k ||
    ((slotOf s k (otherSlot s k)).state == 2 && digest k == slice expect (32 * (k - 1)) 32 && decide (fusedSv s k ≤ headerSv (header k)))) &&
  [1, 2, 3].all (fun k => requiresOk (header k) digest)

/-! ### FIRMWARE_GET (R468, BOOT_SLOT_STATUS) -/

/-- FIRMWARE_GET, 0x1501 R. -/
def firmwareGetSpec : CmdSpec :=
  { opcode := 0x1501, kind := .r, layout := plain 8 [rsv 2 6]
    resLen := fun c s => if c.at 0 1 = 0 then 7924 + s.boot.chain.length else 264
    fields := fun c _ => firstFail [(decide (c.at 0 1 ≤ 3), badField 0), (decide (c.at 1 1 ≤ 1), badField 1)]
    run := fun c s =>
      let k := c.at 0 1
      let slot := slotOf s k (c.at 1 1)
      .ok { s := s, log := .silent, result :=
        if k = 0 then identityPublic s ++ attestPublic s ++ fit 7856 (s.boot.endorsement.drop 40) ++ leBytes 4 s.boot.chain.length ++ s.boot.chain
        else (if slot.state = 2 then artefactHeader slot.data else zeros 256) ++ leBytes 8 (slotStatusWord s k) } }

/-! ### FIRMWARE_WRITE (R458-R461, R471) -/

/-- The slot is active, or an armed activation names it. -/
def slotBusy (s : State) (kind slot : Nat) : Bool :=
  kind != 4 && (slot == mgetD s.boot.active kind 0 ||
    (match s.boot.armed with | some a => bit a.kinds (kind - 1) && slot == otherSlot s kind | none => false))

/-- Bytes written so far and whether a write is under way. -/
def writePoint (s : State) (kind slot : Nat) : Option Nat :=
  if kind = 4 then some s.boot.keyData.length
  else if (slotOf s kind slot).state = 1 then some (slotOf s kind slot).point else none

/-- Blow bits of an OTP word, in both copies (R470). -/
def blow (word bits : Nat) (s : State) : State :=
  { s with boot.otp := mput s.boot.otp word (mgetD s.boot.otp word 0 ||| bits), boot.otpCopy := mput s.boot.otpCopy word (mgetD s.boot.otpCopy word 0 ||| bits) }

/-- The words of a digest. -/
def digestWords (d : List Byte) : List Nat := numbers 8 4 d

/-- Apply a verified key record (R461, R471). -/
def applyKeyRecord (body : List Byte) (s : State) : Except Fail State :=
  let i := u8 body 1
  let digest := slice body 32 32
  match u8 body 0 with
  | 1 =>
    let base := 23 + 4 * i
    let words := digestWords digest
    if bit (keyWord s) (8 + i) then .error (failWith St.exists_)
    else if (List.range 4).any (fun k => otpWord s (base + k) ||| words.getD k 0 != words.getD k 0) then .error (badField 0)
    else .ok (blow 22 (2 ^ (8 + i)) ((List.range 4).foldl (fun s k => blow (base + k) (words.getD k 0) s) s))
  | 2 => if [0, 1, 2, 3].all (fun k => k == i || !keyLive s 1 k) then .error (badField 0) else .ok (blow 22 (2 ^ (16 + i)) s)
  | _ => if [0, 1, 2, 3].all (fun k => k == i || !keyLive s 0 k) then .error (badField 0) else .ok (blow 22 (2 ^ i) s)

/-- FIRMWARE_WRITE, 0x1502 O. -/
def firmwareWriteSpec : CmdSpec :=
  { opcode := 0x1502, kind := .o
    layout := fun c => match c.at 2 1 with
      | 0 => .ok { len := max 17 c.payloadLen, rsvd := [rsv 3 1, rsv 8 8] }
      | 1 => .ok { len := 16, rsvd := [rsv 3 1, rsv 8 8] }
      | _ => .error (badField 2)
    resLen := fun c _ => if c.at 2 1 = 1 then 8 else 0
    deny := fun c _ => c.at 2 1 == 1 && c.at 0 1 == 4 && (match c.path with | .pf0 _ => false | _ => true)
    fields := fun c s =>
      let k := c.at 0 1
      let off := c.at 4 4
      firstFail [
        (bit c.flags 0, badField 2), (decide (1 ≤ k) && decide (k ≤ 4), badField 0),
        (decide (c.at 1 1 ≤ 1) && (k != 4 || c.at 1 1 == 0), badField 1),
        (if c.at 2 1 = 1 then off == 0 else off == 0 || (off % 4096 == 0 && (slotBusy s k (c.at 1 1) || writePoint s k (c.at 1 1) == some off)), badField 4)]
    run := fun c s =>
      let k := c.at 0 1
      let i := c.at 1 1
      let off := c.at 4 4
      let key := 2 * k + i
      if slotBusy s k i then .error (failWith St.wrongState)
      else if c.at 2 1 = 0 then
        let data := c.payload.drop 16
        if slotRoom k < off + data.length then .error (failWith St.noSpace)
        else if k = 4 then .ok { s := { s with boot.keyData := if off = 0 then data else s.boot.keyData ++ data } }
        else .ok { s := { s with boot.slots := mmod s.boot.slots key {} (BootSlot.write off data) } }
      else if k = 4 then
        let v := verdict s 4 s.boot.keyData
        if v != 0 then .ok { s := s, result := leBytes 8 v }
        else match applyKeyRecord (artefactBody s.boot.keyData) s with
          | .error f => .error f
          | .ok s => .ok { s := s, result := leBytes 8 0 }
      else
        let v := if (slotOf s k i).point != artefactLen (slotOf s k i).data then 1 else slotVerdict s k i
        .ok { s := { s with boot.slots := mmod s.boot.slots key {} (fun x => { x with state := if v = 0 then 2 else 3 }) },
              result := leBytes 8 v }
    object := fun c _ _ => 2 * c.at 0 1 + c.at 1 1 }

/-! ### The directory (R448) -/

/-- The directory copy in force. -/
def directory (s : State) : Directory :=
  { seq := s.boot.dirSeq, active := s.boot.active, previous := s.boot.previous, trial := s.boot.trial, crc := s.boot.dirCrc }
/-- CRC-32C of a directory copy: over SEQ and, for each kind, its active slot, its previous slot and TRIAL (DESIGN CHOICE, log entry 36: the layout is not stated). -/
def Directory.check (d : Directory) : Nat :=
  crc32c 0 (leBytes 8 d.seq ++ [1, 2, 3].flatMap (fun k =>
    leBytes 1 (mgetD d.active k 0) ++ leBytes 1 (mgetD d.previous k 0) ++ leBytes 1 (b2n (bit d.trial (k - 1)))))
/-- A directory copy comes into force. -/
def takeDirectory (d : Directory) (s : State) : State :=
  { s with boot.dirSeq := d.seq, boot.active := d.active, boot.previous := d.previous, boot.trial := d.trial, boot.dirCrc := d.crc }
/-- A change of the directory rewrites the older copy with SEQ one higher than that of the copy in force (R448). -/
def writeDirectory (f : Directory → Directory) (s : State) : State :=
  let d := directory s
  let new := { f d with seq := d.seq + 1 }
  takeDirectory { new with crc := new.check } { s with boot.older := d }
/-- A kind's TRIAL bit. -/
def Directory.setTrial (k : Nat) (b : Bool) (d : Directory) : Directory := { d with trial := withBit d.trial (k - 1) b }
/-- A kind's other slot becomes active. -/
def Directory.swap (k : Nat) (d : Directory) : Directory :=
  let a := mgetD d.active k 0
  { d with active := mset d.active k (1 - a), previous := mset d.previous k a }

/-! ### FIRMWARE_ACTIVATE (R462, R465, R466) -/

/-- ACTION 2: clear TRIAL and blow each kind's security-version word up to the running version, lowest bit first. -/
def commitKind (k : Nat) (s : State) : State :=
  writeDirectory (Directory.setTrial k false) (blow (38 + k) (2 ^ headerSv (mgetD s.boot.running k []) - 1) s)

/-- Kinds that a KINDS field selects. -/
def kindsOf (kinds : Nat) : List Nat := (setBits 3 kinds).map (· + 1)

/-- ACTION 0. -/
def activateSchedule (c : Cmd) (s : State) : Except Fail Ran :=
  let kinds := c.at 1 1
  let peer := c.at 2 1 == 1
  let expect := slice c.payload 16 96
  let act : Activation := { kinds := kinds, at_ := if !peer && c.at 8 8 ≤ s.time.ntime then 0 else c.at 8 8, expect := expect, withPeer := peer }
  if peer && !(s.pair.role == 4 && s.pair.peerRole == 3) then .error (failWith St.wrongState)
  else if peer && c.at 8 8 < s.time.ntime + 10000000 then .error (badField 8)
  else if !activationOk s kinds expect || (bit kinds 2 && [2, 3, 5, 6].contains s.pair.role) then .error (failWith St.wrongState)
  else if peer then
    let s := pairSend 3 ([7, kinds, c.at 8 8] ++ numbers 8 12 expect) s
    let r := draw 1 s
    if r.1 = 1 then .ok { s := { r.2 with boot.armed := some act } }
    else .ok { s := refuse c 0x1503 (failWith St.wrongState) r.2, log := .later }
  else .ok { s := { s with boot.armed := some act } }

/-- FIRMWARE_ACTIVATE, 0x1503 O. The peer's answer to ARM is a free value (log entry 1). -/
def firmwareActivateSpec : CmdSpec :=
  { opcode := 0x1503, kind := .o, layout := plain 112 [rsv 3 5]
    fields := fun c _ => firstFail [
      (decide (c.at 0 1 ≤ 2), badField 0), (decide (c.at 1 1 < 8) && (c.at 0 1 == 1 || c.at 1 1 != 0), badField 1),
      (decide (c.at 2 1 ≤ 1) && (c.at 0 1 != 2 || c.at 2 1 == 0), badField 2),
      (bit (c.at 1 1) 0 || c.at 16 32 == 0, badField 16), (bit (c.at 1 1) 1 || c.at 48 32 == 0, badField 48),
      (bit (c.at 1 1) 2 || c.at 80 32 == 0, badField 80)]
    run := fun c s => match c.at 0 1 with
      | 0 => activateSchedule c s
      | 1 =>
        if s.boot.armed.isNone then .error (failWith St.wrongState)
        else
          let s := { s with boot.armed := none }
          .ok { s := if c.at 2 1 = 1 && s.pair.link != 0 then pairSend 3 [8] s else s }
      | _ =>
        if (kindsOf (c.at 1 1)).all (fun k => bit s.boot.trial (k - 1)) then
          .ok { s := (kindsOf (c.at 1 1)).foldl (fun s k => commitKind k s) s }
        else .error (failWith St.wrongState)
    object := fun c _ _ => c.at 1 1 }

/-- ACTIVATION_ARM (R466): the standby checks its own slots and arms or refuses; KINDS 0 stands for the active's cancellation. Its answer is a CONTROL message. -/
def execActivationArm (kinds atNtime : Nat) (expect : List Byte) (s : State) : Host.Outcome State Fault Refusal :=
  answer s (if !mailboxReady s || s.pair.link = 0 || s.faults.safe then s
    else if kinds = 0 then { s with boot.armed := none }
    else if s.pair.role = 3 && activationOk s kinds expect then
      pairSend 3 [9, 1] { s with boot.armed := some { kinds := kinds, at_ := atNtime, expect := expect, withPeer := true } }
    else pairSend 3 [9, 0] s)

/-! ### FIRMWARE_ATTEST (R469) -/

/-- FLAGS of a quote. -/
def quoteFlags (s : State) : Nat :=
  b2n s.boot.recovery + b2n (ownerUnfused s) * 2 + s.boot.trial * 4 + b2n s.faults.safe * 32 +
  b2n (runningDigest s 2 != runningDigest s 4) * 64

/-- Bytes 0 to 319 of a quote. -/
def quoteBody (nonce : List Byte) (s : State) : List Byte :=
  let sv := fun (k : Nat) => headerSv (mgetD s.boot.running k [])
  leBytes 4 0x51544F51 ++ leBytes 2 1 ++ leBytes 2 (quoteFlags s) ++ fit 32 nonce ++ identityDigest s ++ otpBytes s 0 1 ++
  leBytes 4 (bootNo s) ++ zeros 4 ++ leBytes 8 s.time.uptime ++
  fit 32 (runningDigest s 1) ++ fit 32 (runningDigest s 2) ++ fit 32 (runningDigest s 4) ++ fit 32 s.boot.programHash ++
  leBytes 8 (s.journal.head - 1) ++ leBytes 16 s.journal.chain ++ leBytes 8 s.mgt.generation ++
  leBytes 1 (sv 1) ++ leBytes 1 (sv 2) ++ leBytes 1 (sv 3) ++
  leBytes 1 (fusedSv s 1) ++ leBytes 1 (fusedSv s 2) ++ leBytes 1 (fusedSv s 3) ++
  leBytes 1 (bitsOf (keyWord s) 11 8 + bitsOf (keyWord s) 19 16 * 16) ++ zeros 57

/-- FIRMWARE_ATTEST, 0x1504 R. -/
def firmwareAttestSpec : CmdSpec :=
  { opcode := 0x1504, kind := .r, layout := plain 32 [], resLen := fun _ _ => 17408
    run := fun c s =>
      let q := quoteBody c.payload s
      .ok { s := s, log := .silent, result := q ++ attestSign s q } }

end Sys2Proof.Machine
end

