-- ==== Sys2Proof/Machine/Specs.lean ====
section
/-! DEFINITION. The operations of R53 (02_command_mailbox): each opcode with what its command is. -/

namespace Sys2Proof.Machine

/-- TXN_COMMIT, 0x0402 O: its checks and result length (R82); Commit.lean runs it. -/
def txnCommitSpec : CmdSpec :=
  { opcode := 0x0402, kind := .o, layout := plain 0 [], resLen := fun _ _ => 16, namesTxn := true, foreign := fun _ _ _ => false }

/-- The operation of an opcode; none for an unused code, which is refused with BAD_OPCODE. -/
def specOf (opcode : Nat) : Option CmdSpec :=
  match opcode with
  | 0x0101 => some deviceInfoSpec
  | 0x0102 => some deviceSetModeSpec
  | 0x0103 => some deviceResetSpec
  | 0x0201 => some mboxNopSpec
  | 0x0202 => some mboxRingSetSpec
  | 0x0203 => some mboxRingDisableSpec
  | 0x0204 => some mboxRingStatusSpec
  | 0x0301 => some rightsGetSpec
  | 0x0302 => some rightsSetSpec
  | 0x0401 => some txnOpenSpec
  | 0x0402 => some txnCommitSpec
  | 0x0403 => some txnAbortSpec
  | 0x0404 => some txnStatusSpec
  | 0x0501 => some journalReadSpec
  | 0x0502 => some journalReleaseSpec
  | 0x0503 => some journalCheckpointSpec
  | 0x0504 => some journalSetRegionSpec
  | 0x0601 => some portGetSpec
  | 0x0602 => some portConfigSpec
  | 0x0603 => some portEnableSpec
  | 0x0604 => some portDisableSpec
  | 0x0605 => some portProtectSetSpec
  | 0x0701 => some parserGetSpec
  | 0x0702 => some parserLoadSpec
  | 0x0703 => some parserRuleGroupSetSpec
  | 0x0801 => some tableReadSpec
  | 0x0802 => some tableSearchSpec
  | 0x0803 => some tableInsertSpec
  | 0x0804 => some tableUpdateSpec
  | 0x0805 => some tableDeleteSpec
  | 0x0806 => some tableBulkSpec
  | 0x0807 => some tableCreateSpec
  | 0x0808 => some tableSetPolicySpec
  | 0x0901 => some stageGetSpec
  | 0x0902 => some stageLoadSpec
  | 0x0903 => some stagePolicerSetSpec
  | 0x0904 => some stageMirrorSetSpec
  | 0x0905 => some stageSampleSetSpec
  | 0x0A01 => some bufferGetSpec
  | 0x0A02 => some bufferPoolSetSpec
  | 0x0B01 => some schedGetSpec
  | 0x0B02 => some schedNodeSetSpec
  | 0x0B03 => some schedQueueSetSpec
  | 0x0B04 => some schedGateSetSpec
  | 0x0C01 => some fabricGetSpec
  | 0x0C02 => some fabricLinkSetSpec
  | 0x0C03 => some fabricDeviceSetSpec
  | 0x0D01 => some pairGetSpec
  | 0x0D02 => some pairSetSpec
  | 0x0D03 => some pairSwitchoverSpec
  | 0x0E01 => some tahrGetSpec
  | 0x0E02 => some tahrChannelSetSpec
  | 0x0E03 => some tahrCounterSetSpec
  | 0x0E04 => some tahrCoreResetSpec
  | 0x0F01 => some sliceGetSpec
  | 0x0F02 => some sliceCreateSpec
  | 0x0F03 => some sliceQuiesceSpec
  | 0x0F04 => some sliceResetSpec
  | 0x0F05 => some sliceRemoveSpec
  | 0x0F06 => some sliceFreezeSpec
  | 0x0F07 => some sliceSaveSpec
  | 0x0F08 => some sliceRestoreSpec
  | 0x0F09 => some sliceThawSpec
  | 0x1001 => some ringGetSpec
  | 0x1002 => some ringSetSpec
  | 0x1003 => some ringEnableSpec
  | 0x1004 => some ringDisableSpec
  | 0x1005 => some ringInvalidateSpec
  | 0x1101 => some timeGetSpec
  | 0x1102 => some timeSetOffsetSpec
  | 0x1103 => some timeSetRateSpec
  | 0x1104 => some timePpsSetSpec
  | 0x1201 => some monitorGetSpec
  | 0x1202 => some monitorSetSpec
  | 0x1203 => some monitorDumpSetSpec
  | 0x1301 => some observeSetWindowSpec
  | 0x1401 => some faultGetSpec
  | 0x1402 => some faultClearSpec
  | 0x1403 => some faultSetWindowSpec
  | 0x1501 => some firmwareGetSpec
  | 0x1502 => some firmwareWriteSpec
  | 0x1503 => some firmwareActivateSpec
  | 0x1504 => some firmwareAttestSpec
  | 0x1601 => some hbmGetSpec
  | 0x1602 => some hbmSetSpec
  | 0x1701 => some debugReadSpec
  | 0x1702 => some debugControlSpec
  | _ => none

end Sys2Proof.Machine
end

