-- ==== Sys2Proof/Machine/Commit.lean ====
section
/-! DEFINITION. Staging and the commit of R80: conflicts and limits (R75-R77), the placement pass, the commit point, phase B and the release of objects (R64-R70, R80-R84, R89 03_transactions_and_journal). -/

namespace Sys2Proof.Machine

/-! ### Staged operations -/

/-- The transaction of operations that the firmware makes of itself, the sections of a pipeline program or what the pair's active has sent (R148, R223, R314): beyond the TXN_ID of any command. -/
def programTxn : Nat := 2 ^ 32

/-- The R76 names of what one staged operation changes. -/
def opObjects (st : Staged) (s : State) : List Nat :=
  match specOf st.opcode with | some sp => sp.objects st.cmd s | none => []
/-- The operation changes double-banked configuration (R65). -/
def opBanked (st : Staged) : Bool :=
  match specOf st.opcode with | some sp => (sp.banked st.cmd).1 || (sp.banked st.cmd).2 | none => false
/-- Entry writes of an operation (R77). -/
def opWrites (st : Staged) : Nat := match specOf st.opcode with | some sp => sp.writes st.cmd | none => 0
/-- Entry writes that an operation makes in phase A: deletes and destroyed tables wait for phase B (R80, the worked example of R82). -/
def phaseAWrites (st : Staged) : Nat :=
  if st.opcode = 0x0805 || (st.opcode = 0x0806 && st.cmd.at 4 1 == 5) || (st.opcode = 0x0807 && st.cmd.at 0 1 == 1) then 0 else opWrites st
/-- Tables that an operation writes. -/
def opTables (st : Staged) : List Nat := match specOf st.opcode with | some sp => sp.tables st.cmd | none => []
/-- The operation's phase A writes entries into a table in HBM. -/
def writesHbm (st : Staged) (s : State) : Bool :=
  phaseAWrites st != 0 && 0x0803 ≤ st.opcode && st.opcode ≤ 0x0806 &&
  (opTables st).any (fun t => match mget s.tables t with | some x => x.memory == 1 | none => false)
/-- Two lists of names meet. -/
def meets (a b : List Nat) : Bool := a.any b.contains

/-- The commit advances the epoch (R65). -/
def advances (ops : List Staged) : Bool := ops.any opBanked
/-- The tag that the next epoch takes. -/
def nextTag (s : State) : Nat := (s.mgt.curTag + 1) % 8
/-- A commit has passed its commit point and its phase B is open: the second half of its bank switches is still to come (R80, R146). -/
def phaseBOpen (s : State) : Bool := s.mgt.commits.any (fun k => !k.waiting && !k.writing && k.ackSeq.isNone)
/-- Step 1 of R80: the tag is live, or the inactive banks are still in use (R67, R70). -/
def epochWait (ops : List Staged) (s : State) : Bool :=
  advances ops && (s.mgt.live.contains (nextTag s) || !s.mgt.ingressRetired || !s.mgt.egressRetired || phaseBOpen s)
/-- A commit is in phase A: what step 3 found holds until its commit point, so no other commit comes between (R80; DESIGN CHOICE, log entry 83). -/
def phaseAOpen (s : State) : Bool := s.mgt.commits.any (·.writing)
/-- A commit cannot be placed yet. -/
def mustWait (ops : List Staged) (s : State) : Bool := phaseAOpen s || epochWait ops s

/-- A new epoch: the banks and the tag switch, packets under way keep the bank they entered with (R65, R69). -/
def newEpoch (s : State) : State :=
  { s with
    bankOld := s.bank
    pkts := mmap s.pkts (fun _ p => { p with bank := p.bank + 1 })
    mgt := { s.mgt with curTag := nextTag s, live := s.mgt.live ++ [nextTag s],
                              liveRefs := mset s.mgt.liveRefs s.mgt.curTag (programRefs s), ingressRetired := false, egressRetired := false } }
/-- The state in which operations are placed: nothing deferred yet, and the new epoch's banks if they change one. -/
def placeStart (ops : List Staged) (s : State) : State :=
  let s := { s with mgt := { s.mgt with deferring := [], evicting := [], moves := 0 } }
  if advances ops then newEpoch s else s

/-! ### The placement pass (R80 step 3) -/


/-- What placing one operation leaves: the state, its records (evictions first, R188) and its result. -/
structure PlacedOp where
  s : State
  recs : List PlanRec
  result : List Byte

/-- The payload has the layout of its operation: a section of a pipeline program has not passed R47 (R223). -/
def payloadFail (sp : CmdSpec) (c : Cmd) (s : State) : Option Fail :=
  match sp.layout c with
  | .error f => some f
  | .ok l => match rsvdFail c.payload l.rsvd with
    | some f => some f
    | none => if c.payloadLen = (sp.lenState c s).getD l.len then none else some (failAt St.badLength 4)

/-- What the placement pass checks again of the device, beside an operation's own conditions (R80 step 3). -/
abbrev Recheck := CmdSpec → Cmd → State → Option Fail
/-- The checks of a commit that was in progress, waiting, as a switchover came due: it finishes (R325). -/
def resumedFail : Recheck := fun sp c s => stateFail sp c { s with pair.armed := none, pair.switching := 0 }
/-- The checks of a commit: those that staging made where a command asks for it, and none for a program or what the active sends. -/
def checkOf (k : Commit) : Recheck :=
  if k.goal != .command then fun _ _ _ => none else if k.waiting then resumedFail else stateFail

/-- Place one operation. -/
def placeOp (check : Recheck) (st : Staged) (s : State) : Except Fail PlacedOp :=
  match specOf st.opcode with
  | none => .error (failWith St.badOpcode)
  | some sp =>
    match firstFail [((payloadFail sp st.cmd s).isNone, (payloadFail sp st.cmd s).getD (failWith 0)),
                     ((sp.fields st.cmd s).isNone, (sp.fields st.cmd s).getD (failWith 0)),
                     ((check sp st.cmd s).isNone, (check sp st.cmd s).getD (failWith 0))] with
    | some f => .error f
    | none =>
      match sp.apply st.cmd { s with mgt.evicting := [] } with
      | .error f => .error f
      | .ok (t, r) => match sp.room st.cmd t with
      | some f => .error f
      | none =>
        let own : PlanRec := {
          opcode := st.opcode, object := sp.object st.cmd r t, resource := st.cmd.resource
          payload := recordPayload st.opcode st.cmd, replicated := sp.replicated st.cmd }
        .ok { s := { t with mgt.evicting := [] }, recs := t.mgt.evicting ++ [own], result := r }

/-- Place operations in staging order; the first that fails is named by its index. -/
def placeOps (check : Recheck) : Nat → List Staged → PlacedOp → Except (Nat × Fail) PlacedOp
  | _, [], p => .ok p
  | n, st :: rest, p =>
    match placeOp check st p.s with
    | .error f => .error (n, f)
    | .ok q => placeOps check (n + 1) rest { s := q.s, recs := p.recs ++ q.recs, result := q.result }

/-- The checks that wait until every operation is placed (R256). -/
def settledFail : Nat → List Staged → State → Option (Nat × Fail)
  | _, [], _ => none
  | n, st :: rest, s =>
    match (match specOf st.opcode with | some sp => sp.settled st.cmd s | none => none) with
    | some f => some (n, f)
    | none => settledFail (n + 1) rest s

/-- The whole placement pass. -/
def placeAllWith (check : Recheck) (ops : List Staged) (s : State) : Except (Nat × Fail) PlacedOp :=
  match placeOps check 0 ops { s := placeStart ops s, recs := [], result := [] } with
  | .error e => .error e
  | .ok p => match settledFail 0 ops p.s with
    | some e => .error e
    | none => .ok p
/-- The placement pass with the conditions that staging checked (`host`), or without them. -/
def placeAll (host : Bool) : List Staged → State → Except (Nat × Fail) PlacedOp := placeAllWith (if host then stateFail else fun _ _ _ => none)

/-! ### Conflicts, holding and limits (R43, R76, R77) -/

/-- Objects staged in open transactions other than `own`. -/
def stagedElsewhere (own : Nat) (s : State) : List Nat :=
  ((s.mgt.txns.filter (fun t => t.1 != own)).map (fun t => (t.2.staged.map (fun st => opObjects st s)).flatten)).flatten
/-- Objects of commits under way: a command on one of them is executed after them (R43). -/
def busyObjects (s : State) : List Nat :=
  (s.mgt.commits.map (fun k => (k.ops.map (fun st => opObjects st s)).flatten)).flatten

/-- Stacks H0 and H1 are both unavailable (R77). -/
def hbmGone (s : State) : Bool := [0, 1].all (fun n => !(mgetD s.hbm n {}).ready || isFenced s (resId 0x13 n))
/-- Staging limits: entry writes, bytes of one transaction, bytes of all. -/
def limitsOf (s : State) : Nat × Nat × Nat := if hbmGone s then (4096, 2 ^ 19, 2 ^ 20) else (1048576, 2 ^ 26, 2 ^ 28)
/-- A transaction takes one more operation within the limits. -/
def limitOk (x : Txn) (st : Staged) (s : State) : Bool :=
  let l := limitsOf s
  let n := st.cmd.payloadLen
  decide (x.writes + opWrites st ≤ l.1) && decide (x.bytes + n ≤ l.2.1) &&
  decide ((s.mgt.txns.foldl (fun a t => a + t.2.bytes) 0) + n ≤ l.2.2)

/-! ### Phase B (R80 step 6, R83) -/

/-- One deferred change. -/
def applyDeferred (d : Deferred) (s : State) : State :=
  match d with
  | .entry t i key => applyDelete t i key s
  | .table t => applyDestroy t s
  | .group g => applyGroup g s
  | .mirror n => applyMirrorOff n s

/-- Headers that are in the ingress blocks. -/
def ingressPkts (s : State) : List Nat := (s.pkts.filter (fun p => !p.2.egress && !p.2.ready)).map (·.1)

/-! ### Completion (R80 step 7, R89) -/

/-- Records that the planned records of a commit need, without its commit record. -/
def recordsOf (rs : List PlanRec) : Nat := (rs.map (fun r => 1 + contCount r.payload.length)).foldl (· + ·) 0

/-- Write the planned records of a commit. -/
def writeRecs (k : Commit) (s : State) : Nat × State :=
  k.recs.foldl (fun a r => journalCmd { uptime := k.at_, generation := k.generation, object := r.object, resource := r.resource,
                                        opcode := r.opcode, origin := k.origin, payload := r.payload, replicated := r.replicated } a.2) (0, s)
/-- The TXN_COMMIT record that follows them. -/
def commitRec (k : Commit) (status object : Nat) (s : State) : Nat × State :=
  journalCmd { uptime := k.at_, generation := k.generation, object := object, opcode := 0x0402, status := status, origin := k.origin,
               replicated := k.recs.any (·.replicated) } s

/-- TXN_COMMIT's result (R82). -/
def commitResult (failed writes epoch : Nat) (waited : Bool) : List Byte :=
  leBytes 4 failed ++ leBytes 4 writes ++ leBytes 1 epoch ++ leBytes 1 (b2n waited) ++ zeros 6

/-- An activation's record: KINDS in [2:0] and the kinds that failed in [10:8] of OBJECT (R463; DESIGN CHOICE, log entry 39). -/
def activationRec (outcome : Nat) (s : State) : State := (journalFw 0x1503 outcome 0 s).2

/-- The pipeline program was committed: its header and PROGRAM_HASH are what quotes report (R223, R469). -/
def programDone (hash header : List Byte) (act : Option (Nat × Nat)) (s : State) : State :=
  let s := { s with boot.programHash := hash, boot.running := mset s.boot.running 3 header
                    boot.phase := max s.boot.phase 3, boot.loadFailed := withBit s.boot.loadFailed 2 false }
  match act with | some (outcome, _) => activationRec outcome s | none => s
/-- The pipeline program was refused: LOAD_FAILED sets; after an activation the directory returns to the slot that still runs (R454, R463). -/
def programFailed (act : Option (Nat × Nat)) (s : State) : State :=
  let s := { s with boot.loadFailed := withBit s.boot.loadFailed 2 true, boot.phase := max s.boot.phase 3 }
  match act with
  | none => s
  | some (outcome, slot) => activationRec (withBit outcome 10 true)
      (writeDirectory (fun d => Directory.setTrial 3 false { d with active := mset d.active 3 slot }) s)

/-- A replicated record could not be applied: DIVERGED, and the failing SEQ is journalled (R317). -/
def diverge (seq : Nat) (s : State) : State :=
  changeRole 6 seq { s with pair.received := [], pair.takingOver := false }

/-- Complete the command of a commit whose records are written; with SYNC_COMMIT it waits for the standby's receipt (R318). Until it completes its transaction is committing (R74). -/
def answerCommit (k : Commit) (seq : Nat) (s : State) : State :=
  match k.cmd with
  | none => s
  | some c =>
    if k.opcode = 0x0402 then
      if s.pair.cfg.syncCommit && s.pair.peerRole == 3 && replicating s && k.recs.any (·.replicated) then
        { s with mgt.commits := s.mgt.commits ++ [{ k with ackSeq := some seq, ops := [], deferred := [], behind := [], held := [] }] }
      else complete c k.opcode St.success 0 (commitResult 0xFFFFFFFF k.writes k.newEpoch k.waited) seq k.generation
        { s with mgt.txns := mdel s.mgt.txns k.txn }
    else complete c k.opcode St.success 0 k.result seq k.generation s

/-- Step 7 of R80: records, learning, completion. The head advances past all records of the commit or, where the journal has no room for them, past none (R89, R97). -/
def finishCommit (k : Commit) (s : State) : State :=
  let s := { s with mgt.commits := s.mgt.commits.filter (fun x => x.id != k.id)
                    mgt.txns := mmap s.mgt.txns (fun t x => if t = k.txn then { x with staged := [] } else x) }
  let group := recordsOf k.recs + (if k.opcode = 0x0402 then 1 else 0)
  let q := if journalFree s.journal < group then (0, fatal 30 (resId 0x18 0) [] s)
    else
      let r := writeRecs k s
      if k.opcode = 0x0402 then commitRec k St.success k.txn r.2 else r
  let s := settleHeld q.2
  match k.goal with
  | .command => answerCommit k q.1 s
  | .program hash header act => programDone hash header act s
  | .replay seq gen => { s with pair.appliedSeq := seq, pair.appliedGen := gen }
  | .snapshot => { s with pair.snapped := true }

/-- Steps 3 to 5 succeeded: the generation advances, and phase B follows at once where nothing waits for it. -/
def commitPoint (k : Commit) (p : PlacedOp) (behind : List Nat) (s : State) : State :=
  let gen := s.mgt.generation + 1
  let adv := advances k.ops
  let one := match k.ops with
    | [st] => match specOf st.opcode with | some sp => p.result.take (sp.resLen st.cmd s) | none => []
    | _ => []
  let entryWrites := k.ops.foldl (fun a st => a + phaseAWrites st) 0
  let k := { k with
    recs := p.recs, waiting := false, newEpoch := if adv then p.s.mgt.curTag else 255, deferred := p.s.mgt.deferring, behind := behind
    result := one, writes := entryWrites + p.s.mgt.moves, generation := gen, at_ := s.time.uptime
    held := (k.ops.map opTables).flatten }
  let s := if adv && bridgeOn p.s then bridgeSend (.marker p.s.mgt.curTag) p.s else p.s
  let s := { s with mgt := { s.mgt with
    generation := gen, deferring := [], moves := 0, commits := s.mgt.commits.filter (fun x => x.id != k.id) } }
  if k.deferred.isEmpty || behind.isEmpty then finishCommit k (k.deferred.foldl (fun s d => applyDeferred d s) s)
  else settleHeld { s with mgt.commits := s.mgt.commits ++ [k] }

/-- A placement pass that failed: nothing is changed; a transaction's abort is journalled with the failing status (R80 step 3). -/
def commitFailed (k : Commit) (index : Nat) (f : Fail) (s : State) : State :=
  let s := { s with mgt.commits := s.mgt.commits.filter (fun x => x.id != k.id), mgt.txns := mdel s.mgt.txns k.txn }
  let k := { k with at_ := s.time.uptime, generation := s.mgt.generation }
  let counted := match k.ops[index]? with
    | some st => (match specOf st.opcode with | some sp => sp.failed st.cmd f s | none => s)
    | none => s
  match k.goal with
  | .command =>
    match k.cmd with
    | none => counted
    | some c =>
      if k.opcode = 0x0402 then
        let q := commitRec { k with recs := [] } f.status k.txn counted
        complete c 0x0402 f.status f.detail (commitResult index 0 255 k.waited) q.1 k.generation q.2
      else refuse c k.opcode f counted
  | .program _ _ act => programFailed act (commitRec { k with recs := [] } f.status index counted).2
  | .replay seq _ => diverge seq counted
  | .snapshot => diverge s.pair.appliedSeq counted

/-- A unit that an operation writes to has been fenced: a table in HBM has lost a byte (R81, R430). -/
def unitLost (st : Staged) (s : State) : Bool :=
  writesHbm st s && (opTables st).any (fun t => match mget s.tables t with | some x => x.lost | none => false)
/-- The first operation whose write cannot be completed. -/
def fencedIndex (ops : List Staged) (s : State) : Option Nat := ops.findIdx? (fun st => unitLost st s)

/-- The placement pass of a commit and its commit point. -/
def placeCommit (k : Commit) (s : State) : State :=
  match placeAllWith (checkOf k) k.ops s with
  | .error (i, f) => commitFailed k i f s
  | .ok p => commitPoint k p (ingressPkts s) s

/-- Phase A of the commit takes time: it writes entries into HBM tables and is a TXN_COMMIT, a TABLE_BULK or the program of an activation (R80, R81; log entry 83). A single entry is written at once. -/
def phased (k : Commit) (s : State) : Bool :=
  k.ops.any (fun st => writesHbm st s) &&
  (match k.goal with
    | .command => k.opcode == 0x0402 || k.opcode == 0x0806
    | .program _ _ act => act.isSome
    | _ => false)

/-- Phase A begins: the entries of the operations are written, where packets may meet them, and the tables as they were are kept for a restoration (R80 step 4, R81). -/
def beginPhaseA (k : Commit) (p : PlacedOp) (s : State) : State :=
  let names := ((k.ops.map opTables).flatten).eraseDups.filter (fun t => match mget s.tables t with | some x => decide (x.kind < 4) | none => false)
  settleHeld { s with
    tables := names.foldl (fun m t => withInsts m t (mgetD p.s.tables t {})) s.tables
    mgt.commits := s.mgt.commits.filter (fun x => x.id != k.id) ++
      [{ k with waiting := false, writing := true, held := (k.ops.map opTables).flatten
                before := names.map (fun t => (t, mgetD s.tables t {})) }] }

/-- The operation is on a table in one of whose stacks an uncorrectable burst stands. -/
def opBurst (st : Staged) (s : State) : Bool :=
  (opTables st).any (fun t => match tableOf s t with | some x => tableBurst s x | none => false)
/-- The first operation, counted from `i`, that meets an uncorrectable burst (R429). -/
def burstIndex (i : Nat) : List Staged → State → Option Nat × State
  | [], s => (none, s)
  | st :: rest, s =>
    if opBurst st s then
      let r := draw 1 s
      if r.1 = 1 then (some i, r.2) else burstIndex (i + 1) rest r.2
    else burstIndex (i + 1) rest s
/-- A commit one of whose operations met an uncorrectable burst changes nothing and fails with INTERNAL_ERROR, which a command reports (R429, R435). -/
def commitBroken (k : Commit) (i : Nat) (s : State) : State :=
  let s := commitFailed k i (failWith St.internalError) s
  match k.goal with
  | .command => report 29 (resId 0x18 0) [] s
  | _ => s

/-- Run a commit from its placement pass: to its commit point, or into a phase A that lasts until COMMIT_RESUME. -/
def runCommit (k : Commit) (s : State) : State :=
  let r := burstIndex 0 k.ops s
  let s := r.2
  match r.1 with
  | some i => commitBroken k i s
  | none =>
  if phased k s then
    match placeAllWith (checkOf k) k.ops s with
    | .error (i, f) => commitFailed k i f s
    | .ok p => beginPhaseA k p s
  else placeCommit k s

/-- Phase A ends: where a unit was fenced, every entry written is restored and the commit fails with FENCED (R81); else the commit point, with what the placement pass of step 3 found. -/
def endPhaseA (k : Commit) (s : State) : State :=
  let u := restoreEntries k s
  let k := { k with writing := false, before := [] }
  match fencedIndex k.ops u with
  | some i => settleHeld (commitFailed k i (failWith St.fenced) u)
  | none =>
    match placeAll false k.ops u with
    | .error (i, f) => settleHeld (commitFailed k i f u)
    | .ok p => commitPoint k p (ingressPkts u) u

/-- Start a commit: it waits under R67 or R70, or runs. -/
def startCommit (k : Commit) (s : State) : State :=
  let k := { k with id := s.mgt.nextCommit }
  let s := { s with mgt.nextCommit := s.mgt.nextCommit + 1 }
  let s := match k.cmd with | some c => occupy c s | none => s
  if mustWait k.ops s then
    { s with mgt.commits := s.mgt.commits ++ [{ k with waiting := true, waited := epochWait k.ops s }]
             mgt.txns := if (mget s.mgt.txns k.txn).isSome then mmod s.mgt.txns k.txn {} (fun t => { t with state := 2 }) else s.mgt.txns }
  else
    let s := if (mget s.mgt.txns k.txn).isSome then
      { s with mgt.txns := mmod s.mgt.txns k.txn {} (fun t => { t with state := 2 }) } else s
    runCommit k s

/-! ### Events of commits, epochs and tombstones -/

/-- EPOCH_RETIRE: no packet that entered before the commit point is left in the ingress, or the egress, stages (R68). -/
def execEpochRetire (egress : Bool) (s : State) : Host.Outcome State Fault Refusal :=
  answer s (if !running s then s
    else if egress then
      if s.pkts.any (fun p => p.2.egress && !p.2.ready && p.2.bank != 0 && !s.dc1.contains (.packet p.1)) then s else { s with mgt.egressRetired := true }
    else if s.pkts.any (fun p => !p.2.egress && !p.2.ready && p.2.bank != 0) then s else { s with mgt.ingressRetired := true })

/-- Epoch tag of a metadata block (byte 4). -/
def metaTag (m : List Byte) : Nat := u8 m 4 % 8
/-- A packet bearing a tag is held between parser entry and the end of its buffers or transmission; packets of clusters and slices have left epoch accounting (R66). -/
def tagHeld (tag : Nat) (s : State) : Bool :=
  s.pkts.any (fun p => p.2.tag == tag) ||
  s.buf.heads.any (fun h => !([0x10, 0x11, 0x12].contains h.2.owner) && metaTag h.2.meta_ == tag) ||
  s.buf.blocks.any (fun b => b.2.records.any (fun r => metaTag r.meta_ == tag))

/-- EPOCH_DRAIN (R66). -/
def execEpochDrain (tag : Nat) (s : State) : Host.Outcome State Fault Refusal :=
  answer s (if running s && tag != s.mgt.curTag && s.mgt.live.contains tag && !tagHeld tag s then
    { s with mgt.live := s.mgt.live.filter (· != tag), mgt.liveRefs := mdel s.mgt.liveRefs tag } else s)

/-- TOMBSTONE_EXPIRY (R84): the index is free again, and the number of a destroyed table with its last tombstone. -/
def execTombstoneExpiry (kind table index : Nat) (s : State) : Host.Outcome State Fault Refusal :=
  answer s (
    let due := fun (b : Tomb) => b.kind == kind && b.table == table && b.index == index && decide (b.at_ + b.limit ≤ s.time.uptime)
    if !running s || !s.mgt.tombs.any due then s
    else
      let s := { s with mgt.tombs := s.mgt.tombs.filter (fun b => !due b) }
      let gone := kind == 0 && !(s.mgt.tombs.any (fun b => b.kind == 0 && b.table == table)) &&
        (match mget s.tables table with | some x => x.destroyed && x.insts.isEmpty | none => false)
      if gone then { s with tables := mdel s.tables table } else s)

/-- COMMIT_ACK (R318): the standby has acknowledged receipt up to this SEQ; completions that waited for it are written. -/
def execCommitAck (seq : Nat) (s : State) : Host.Outcome State Fault Refusal :=
  answer s (let s := pairTaken 3 s
    if !running s || s.pair.link = 0 || s.pair.role != 4 then s
    else
      let s := { s with pair.ackedSeq := max s.pair.ackedSeq seq }
      let done := s.mgt.commits.filter (fun k => match k.ackSeq with | some q => decide (q ≤ seq) | none => false)
      done.foldl (fun s k =>
        let s := { s with mgt.commits := s.mgt.commits.filter (fun x => x.id != k.id) }
        answerCommit { k with recs := [] } (k.ackSeq.getD 0) s) s)

end Sys2Proof.Machine
end

