-- ==== Sys2Proof/Machine/Firmware.lean ====
section
/-! DEFINITION. The management firmware: dispatch of fetched commands, staging, single commands as implicit transactions, arbitration of rings, the serial path (R34, R39, R42-R62, R74-R78, R82 02_command_mailbox and 03_transactions_and_journal). -/

namespace Sys2Proof.Machine

/-- The command only asks what would happen (DRY_RUN of R39). -/
def dryRun (c : Cmd) : Bool := bit c.flags 2
/-- The answer of a DRY_RUN that would succeed. -/
def dryOk (c : Cmd) (opcode : Nat) (s : State) : State := complete c opcode St.dryRunOk 0 [] 0 s.mgt.generation s

/-! ### Reads and operational changes -/

/-- The execution reads an HBM stack in which an uncorrectable burst stands (R429). -/
def burstNear (sp : CmdSpec) (c : Cmd) (s : State) : Bool :=
  !dryRun c && (sp.hbmStacks c s).any (fun n => s.pchans.any (fun p => p.1 / 32 == n && p.2.bad))

/-- A command that meets an uncorrectable burst changes nothing and fails with INTERNAL_ERROR, which is reported as FW_INTERNAL (R429, R435). -/
def failInternal (sp : CmdSpec) (c : Cmd) (s : State) : State :=
  report 29 (resId 0x18 0) [] (refuse c sp.opcode (failWith St.internalError) s)

/-- Execute an R or O command that passed its checks. A read is not journalled; a change is, with its payload (R48). -/
def runPlain (sp : CmdSpec) (c : Cmd) (s : State) : State :=
  if dryRun c then
    match sp.run c s with
    | .error f => refuse c sp.opcode f s
    | .ok _ => dryOk c sp.opcode s
  else
    match sp.run c (occupy c s) with
    | .error f => refuse c sp.opcode f (sp.failed c f (occupy c s))
    | .ok r =>
      match sp.kind, r.log with
      | _, .later => r.s
      | _, .own seq => complete c sp.opcode St.success 0 r.result seq r.s.mgt.generation r.s
      | .o, .auto =>
        let j := journalCmd { uptime := s.time.uptime, generation := r.s.mgt.generation, object := sp.object c r.result r.s,
                              resource := c.resource, opcode := sp.opcode, origin := originOf c.path,
                              payload := recordPayload sp.opcode c } r.s
        complete c sp.opcode St.success 0 r.result j.1 j.2.mgt.generation j.2
      | _, _ => complete c sp.opcode St.success 0 r.result 0 r.s.mgt.generation r.s

/-! ### C commands (R52, R75-R77) -/

/-- Execute an R or O command; whether one that reads HBM where an uncorrectable burst stands meets it, no command says: a free value decides (R429, log entry 64). -/
def runNow (sp : CmdSpec) (c : Cmd) (s : State) : State :=
  if burstNear sp c s then
    let r := drawBelow 2 s
    if r.1 = 1 then failInternal sp c r.2 else runPlain sp c r.2
  else runPlain sp c s

/-- Committed state as the operations already staged would change it, for the next one; a physical or framed section looks at no staged PORT_DISABLE (R102). -/
def stagedView (ops : List Staged) (next : Staged) (s : State) : State :=
  let off := fun (st : Staged) => st.opcode == 0x0604 && next.opcode == 0x0602 && (next.cmd.at 2 1 == 0 || next.cmd.at 2 1 == 3)
  (ops.filter (fun st => !off st)).foldl (fun s st => match specOf st.opcode with
    | some sp => (match sp.apply st.cmd s with | .ok (t, _) => t | .error _ => s)
    | none => s) (placeStart (ops ++ [next]) s)

/-- What staging checks of the state: everything but the presence, placement and room of table entries and the room of a new table, which the placement pass evaluates (R75, R80 step 3, R160). -/
def stagingFail (sp : CmdSpec) (c : Cmd) (view : State) : Option Fail :=
  let entry := 0x0803 ≤ sp.opcode && sp.opcode ≤ 0x0806
  let create := sp.opcode == 0x0807 && c.at 0 1 == 0
  let gone := match liveTable view (c.at 0 4) with | .error f => some f | .ok _ => none
  match (if entry then gone else none) with
  | some f => some f
  | none => match sp.apply c view with
    | .ok _ => none
    | .error f => if (entry && [St.exists_, St.notFound, St.noSpace].contains f.status) || (create && f.status == St.noSpace) then none else some f

/-- Stage a C command in a transaction. -/
def stageCmd (sp : CmdSpec) (c : Cmd) (x : Txn) (s : State) : State :=
  let st : Staged := ⟨sp.opcode, c⟩
  let view := stagedView x.staged st s
  if meets (opObjects st view) (stagedElsewhere c.txnId s) then refuse c sp.opcode (failWith St.txnConflict) s
  else match stagingFail sp c view with
    | some f => refuse c sp.opcode f s
    | none =>
      if !limitOk x st s then refuse c sp.opcode (failWith St.txnLimit) s
      else if dryRun c then dryOk c sp.opcode s
      else
        let x := { x with staged := x.staged ++ [st], writes := x.writes + opWrites st, bytes := x.bytes + c.payloadLen }
        complete c sp.opcode St.success 0 [] 0 0 { s with mgt.txns := mset s.mgt.txns c.txnId x }

/-- A C command with TXN_ID 0: a transaction that contains only itself. -/
def runSingle (sp : CmdSpec) (c : Cmd) (s : State) : State :=
  let st : Staged := ⟨sp.opcode, c⟩
  if meets (opObjects st s) (stagedElsewhere 0 s) then refuse c sp.opcode (failWith St.txnConflict) s
  else if dryRun c then
    match placeAll true [st] s with
    | .error (_, f) => refuse c sp.opcode f s
    | .ok _ => dryOk c sp.opcode s
  else startCommit { cmd := some c, opcode := sp.opcode, origin := originOf c.path, ops := [st] } s

/-- The records of all staged operations have room, their payloads together in the payload area (R51, R88); they and the commit record stay outside the reserve (log entry 13). -/
def commitRoom (ops : List Staged) (s : State) : Bool :=
  let j := s.journal
  let recs := (ops.map (fun st => 1 + contCount st.cmd.payload.length)).foldl (· + ·) 1
  let area := ((ops.map (fun st => st.cmd.payload.length)).filter (9690 < ·)).foldl (· + ·) 0
  decide (journalCap j / 1024 + recs ≤ journalFree j) && (area == 0 || payloadFits j area)

/-- TXN_COMMIT (R80, R82). -/
def runTxnCommit (c : Cmd) (s : State) : State :=
  match txnCheck c s with
  | some f => refuse c 0x0402 f s
  | none =>
    let ops := (mgetD s.mgt.txns c.txnId {}).staged
    if !commitRoom ops s then refuse c 0x0402 (failWith St.journalFull) s
    else if dryRun c then
      match placeAll true ops s with
      | .error (i, f) => refuse c 0x0402 { f with result := commitResult i 0 255 false } s
      | .ok _ => dryOk c 0x0402 s
    else startCommit { cmd := some c, opcode := 0x0402, txn := c.txnId, origin := originOf c.path, ops := ops } s

/-! ### Dispatch -/

/-- The state against which a command's fields are checked: for a staged command, with what is staged before it. -/
def checkView (sp : CmdSpec) (c : Cmd) (s : State) : State :=
  if sp.kind = .c && c.txnId != 0 && (txnCheck c s).isNone then stagedView (mgetD s.mgt.txns c.txnId {}).staged ⟨sp.opcode, c⟩ s else s

/-- The last command of a transaction was now (R78). -/
def touchTxn (c : Cmd) (s : State) : State :=
  match mget s.mgt.txns c.txnId with
  | some x => if x.origin = originOf c.path then { s with mgt.txns := mset s.mgt.txns c.txnId { x with last := s.time.uptime } } else s
  | none => s

/-- Execute a dispatched command: the checks of R47 in their order, then what its kind asks. -/
def dispatch (opcode : Nat) (c : Cmd) (s : State) : State :=
  let s := touchTxn c s
  match specOf opcode with
  | none => refuse c opcode (failWith (if c.version != 1 then St.badVersion else St.badOpcode)) s
  | some sp =>
    match checkCmd sp c (checkView sp c s) with
    | some f => if dryRun c then refuse c opcode f s else refuseChecked c opcode f s
    | none =>
      if opcode = 0x0402 then runTxnCommit c s
      else if sp.kind != .c then runNow sp c s
      else if c.txnId = 0 then runSingle sp c s
      else match txnCheck c s with
        | some f => refuse c opcode f s
        | none => stageCmd sp c (mgetD s.mgt.txns c.txnId {}) s

/-- Objects of the long commands under way outside commits: rings being disabled, slices being quiesced, cores in reset, units in self-test (R43, R45). -/
def longObjects (s : State) : List Nat :=
  (s.mgt.rings.filter (fun r => r.2.disabling.isSome)).map (fun r => ringObj r.1) ++
  (s.host.rings.filter (fun r => r.2.disabling.isSome)).map (fun r => dataObj r.1) ++
  (s.host.slices.filter (fun x => x.2.quiesce.isSome)).map (fun x => sliceObj x.1) ++
  (s.tahr.resets.map (fun r => r.cores.map coreObj)).flatten ++ (s.faults.tests.map (fun t => unitObjs t.unit)).flatten

/-- Objects that a command would change at once. -/
def touches (opcode : Nat) (c : Cmd) (s : State) : List Nat :=
  if opcode = 0x0402 then ((mgetD s.mgt.txns c.txnId {}).staged.map (fun st => opObjects st s)).flatten
  else match specOf opcode with
    | some sp => if sp.kind == .r || (sp.kind == .c && c.txnId != 0) then [] else sp.objects c s
    | none => []
/-- The command cannot be dispatched yet: a FENCE (R39), or a command under way on one of its objects (R43). -/
def mustHold (opcode : Nat) (c : Cmd) (s : State) : Bool :=
  fenceHeld c s || meets (touches opcode c s) (busyObjects s ++ longObjects s)

/-- Note a dispatch for the arbitration of R44. -/
def noteDispatch (p : Path) (s : State) : State :=
  match ringKey p with
  | none => s
  | some k =>
    if k < 0x1000 then { s with mgt.highRun := s.mgt.highRun + 1, mgt.lastRing := (k, s.mgt.lastRing.2) }
    else { s with mgt.highRun := 0, mgt.lastRing := (s.mgt.lastRing.1, k) }

/-- Halt a ring. -/
def haltMbRing (k cause : Nat) (s : State) : State :=
  modRing k (fun r => { r with state := 2, haltCause := cause, tries := 0, fetched := none }) s

/-- The indirect buffer of a slice's command cannot be read through its translation: the ring halts (R34). -/
def unreadable (c : Cmd) : Option Nat := match c.path with | .slice n => if c.readable then none else some (0x1000 + n) | _ => none

/-- A command entry of a ring or path is dispatched: nothing happens while the firmware or the ring cannot, or where POST_PHASE does not match the index (R33; log entry 2). -/
def runCmd (opcode : Nat) (c : Cmd) (s : State) : State :=
  if !mailboxReady s || !pathReady c.path s || !phaseReady c s || mustHold opcode c s then s
  else match unreadable c with
    | some k => haltMbRing k 2 s
    | none => dispatch opcode c (noteDispatch c.path s)

/-! ### Fetching (R33, R34, R44) -/

/-- The function that a ring's entries are read through is in D3hot; ring 0 stands in the mailbox page (R366). -/
def ringAsleep (s : State) (k : Nat) : Bool :=
  if k < 4 then k != 0 && asleep s 0 else decide (0x1000 ≤ k) && pathAsleep (.slice (k - 0x1000)) s
/-- A ring has an entry that may be fetched. -/
def hasWork (s : State) (k : Nat) : Bool :=
  if k = 4 then s.mgt.serialReq.isSome
  else if k = 6 then s.mgt.dbgPost && !(mbRing s 6).executing
  else
    let r := mbRing s k
    r.state == 1 && !r.executing && (r.disabling.isNone || r.fetched.isSome) && r.posted != 0 && !ringAsleep s k
/-- The ring takes part in the arbitration: it has work, no entry of it is held by a fence or by R43, and none is being fetched again. -/
def contends (s : State) (k : Nat) : Bool := hasWork s k && (mbRing s k).fetched.isNone && (mbRing s k).tries == 0
/-- Rings of a band with work, in ascending order. -/
def bandWork (s : State) (low : Bool) : List Nat :=
  if low then (s.mgt.rings.map (·.1)).filter (fun k => decide (0x1000 ≤ k) && contends s k)
  else [0, 1, 2, 3, 4, 6].filter (contends s)
/-- The ring that round-robin serves next in a list. -/
def nextRing (last : Nat) (ks : List Nat) : Option Nat := (ks.find? (fun k => last < k)).orElse (fun _ => ks.head?)
/-- The arbitration lets this ring go: it is the next of its band, and the low band gets at least one command in four (R44). -/
def ringTurn (k : Nat) (s : State) : Bool :=
  if k < 0x1000 then
    nextRing s.mgt.lastRing.1 (bandWork s false) == some k && (decide (s.mgt.highRun < 3) || (bandWork s true).isEmpty)
  else nextRing s.mgt.lastRing.2 (bandWork s true) == some k

/-- The bytes of the debug ring's entry (R62). -/
def dbgEntry (s : State) : List Byte := ((List.range 136).map (fun w => leBytes 8 (mgetD s.mgt.dbgWords w 0))).flatten
/-- The next entry of ring 0 as it stands in the mailbox page (R31). -/
def pageEntry (s : State) : List Byte :=
  let r := mbRing s 0
  Memory.reads s.mgt.page (r.consumer % r.size * 512) 512

/-- A fetched entry is dispatched, or held where it cannot be yet; its ring then leaves the arbitration to the others (R39, R43, R45). -/
def dispatchOrHold (p : Path) (k : Nat) (q : Nat × Cmd) (s : State) : State :=
  if mustHold q.1 q.2 s then modRing k (fun r => { r with tries := 0, fetched := some q }) s
  else
    let s := modRing k (fun r => { r with tries := 0, fetched := none }) (noteDispatch p s)
    dispatch q.1 q.2 (if k = 4 then { s with mgt.serialBusy := true, mgt.serialReq := none } else s)

/-- An entry is fetched and, if it matches its index, dispatched. The entries of ring 0 stand in the mailbox page; those of the other rings are what the read of host memory brought. -/
def fetchEntry (p : Path) (k : Nat) (f : Fetched) (s : State) : State :=
  let r := mbRing s k
  match (if r.resident then some (pageEntry s) else f.entry) with
  | none => haltMbRing k 2 s
  | some e =>
    if !phaseMatches r (u8 e 47) then
      if 16 ≤ r.tries + 1 then haltMbRing k 1 s else modRing k (fun r => { r with tries := r.tries + 1 }) s
    else
      let q := parseEntry p e f.buffer f.writable
      match unreadable q.2 with
      | some k => haltMbRing k 2 s
      | none => dispatchOrHold p k q s

/-- The next entry of a ring: the one that is held, once nothing holds it; else the ring's turn decides. -/
def fetchRing (retry : Bool) (p : Path) (f : Fetched) (s : State) : State :=
  match ringKey p with
  | none => s
  | some k =>
    if !mailboxReady s || !hasWork s k then s
    else match (mbRing s k).fetched with
      | some q => if retry then s else dispatchOrHold p k q s
      | none =>
        if retry then (match p with
          | .serial => s
          | .debug => s
          | _ => if (mbRing s k).tries = 0 then s else fetchEntry p k f s)
        else if !ringTurn k s then s
        else match p with
          | .serial => (match s.mgt.serialReq with | some b => dispatchOrHold p 4 (parseEntry .serial b none true) s | none => s)
          | .debug => dispatchOrHold p 6 (parseEntry .debug (dbgEntry s) none true) s
          | _ => fetchEntry p k f s

/-- MAILBOX_FETCH. -/
def execMailboxFetch (p : Path) (f : Fetched) (s : State) : Host.Outcome State Fault Refusal := answer s (fetchRing false p f s)
/-- MB_FETCH_RETRY (R34): the entry is fetched again after a POST_PHASE that did not match. -/
def execMbFetchRetry (p : Path) (f : Fetched) (s : State) : Host.Outcome State Fault Refusal := answer s (fetchRing true p f s)

/-! ### The serial path (R60, R61) -/

/-- The header that answers a serial request while another is executed: completed with BUSY (R42, R60, R61). -/
def busyHeader (request : List Byte) (s : State) : List Byte :=
  poke (request.take 64) 36 (outFields St.busy 0 0 (originOf .serial) (u8 request 47) 0 s.mgt.generation)

/-- MCTP_REQUEST: the request is posted on the serial ring, and executed at once where it is that ring's turn (R44), else by a later MAILBOX_FETCH. The vendor identifier stands in network order, as MCTP has it (PRESUMED, log entry 37). -/
def execMctpRequest (body : List Byte) (s : State) : Host.Outcome State Fault Refusal :=
  answer s (if !running s then s
    else if body.length < 66 || beNat (body.take 2) != pciVendor then { s with mgt.serialDrops := s.mgt.serialDrops + 1 }
    else if s.mgt.serialBusy then emit (.serialBusy (busyHeader (body.drop 2) s)) s
    else
      let s := { s with mgt.serialBusy := true, mgt.serialReq := some (body.drop 2) }
      let s := modRing 4 (fun r => { r with waits := [s.time.uptime] }) s
      if mailboxReady s && ringTurn 4 s then dispatchOrHold .serial 4 (parseEntry .serial (body.drop 2) none true) s else s)

end Sys2Proof.Machine
end

