-- ==== Sys2Proof/Machine/Bootseq.lean ====
section
/-! DEFINITION. The boot sequence, recovery boot, firmware restarts and activations (R449, R454-R457, R463, R464 17_firmware_and_trust), and the two device resets (R475, R476, R480-R483 18_power_clocks_reset). -/

namespace Sys2Proof.Machine

/-! ### The pipeline program (R222, R223) -/

/-- Opcode of the command whose payload a section carries; 0 for a type that is refused. -/
def sectionOpcode (t : Nat) : Nat :=
  match t with
  | 1 => 0x0702 | 2 => 0x0902 | 3 => 0x0807 | 4 => 0x0808 | 5 => 0x0806
  | 6 => 0x0703 | 7 => 0x0903 | 8 => 0x0904 | 9 => 0x0905 | _ => 0

/-- A command of the management firmware with a payload. -/
def firmwareCmd (payload : List Byte) : Cmd :=
  { path := .firmware, flags := 0, version := 1, payloadLen := payload.length, tag := 0, bufAddr := 0, bufCap := 0, txnId := 0,
    resource := 0, rsvd := 0, phase := 0, payload := payload, readable := true, writable := true }

/-- The operation of one section of a program; a type, reserved field or extent that is not allowed makes it one that is refused. -/
def sectionOp (body : List Byte) (i : Nat) : Staged :=
  let e := slice body (64 + 16 * i) 16
  let ok := u16 e 2 == 0 && decide (u64 e 8 + u32 e 4 ≤ body.length)
  if ok then ⟨sectionOpcode (u16 e 0), { firmwareCmd (slice body (u64 e 8) (u32 e 4)) with txnId := programTxn }⟩ else ⟨0, firmwareCmd []⟩

/-- The operations of a program in table order. -/
def programOps (body : List Byte) : List Staged :=
  let n := u16 body 6
  if 1 ≤ n && decide (n ≤ 4096) then (List.range n).map (sectionOp body) else [⟨0, firmwareCmd []⟩]

/-- OBJECT of the record of a program that fails before or after its sections: PROGRAM_HASH or the room of the journal (R223 names no value; DESIGN CHOICE, log entry 39). -/
def noSection : Nat := 0xFFFFFFFF

/-- The first section whose command is refused, as staging refuses it (R47, R51, R75-R77, R223): `s` is the committed state, `view` what the sections before it make of it, `x` what they stage. -/
def stageProgram (s : State) : Nat → List Staged → State → Txn → Option (Nat × Fail)
  | _, [], _, _ => none
  | i, st :: rest, view, x =>
    match specOf st.opcode with
    | none => some (i, failWith St.badOpcode)
    | some sp =>
      match firstFail [((payloadFail sp st.cmd view).isNone, (payloadFail sp st.cmd view).getD (failWith 0)),
                       ((sp.fields st.cmd view).isNone, (sp.fields st.cmd view).getD (failWith 0)),
                       (!s.faults.safe, failWith St.safeState), (journalRoom s.journal st.cmd.payload.length, failWith St.journalFull),
                       (!meets (opObjects st view) (stagedElsewhere programTxn s), failWith St.txnConflict),
                       ((stagingFail sp st.cmd view).isNone, (stagingFail sp st.cmd view).getD (failWith 0)),
                       (limitOk x st s, failWith St.txnLimit)] with
      | some f => some (i, f)
      | none =>
        let view := match sp.apply st.cmd view with | .ok (t, _) => t | .error _ => view
        stageProgram s (i + 1) rest view { x with writes := x.writes + opWrites st, bytes := x.bytes + st.cmd.payloadLen }

/-- Apply a pipeline program as one transaction of the management firmware (R223). -/
def applyProgram (art : List Byte) (act : Option (Nat × Nat)) (s : State) : State :=
  let body := artefactBody art
  let ops := programOps body
  let k : Commit := { opcode := 0x0402, origin := 0x5000, ops := ops, goal := .program (slice body 16 32) (artefactHeader art) act }
  if !programOk body then commitFailed k noSection (failWith St.badField) s
  else match stageProgram s 0 ops (placeStart ops s) {} with
    | some (i, f) => commitFailed k i f s
    | none => if commitRoom ops s then startCommit k s else commitFailed k noSection (failWith St.journalFull) s

/-! ### Steps of the boot (R454) -/

/-- Bound of a step of the boot in ns: the later ones of R454 in order, then the end of a firmware restart (R464) and of the verification of a recovery artefact, for which none is stated (DESIGN CHOICE, log entry 4: that of firmware entry). -/
def stageBound (n : Nat) (s : State) : Nat :=
  let ms := match n with
    | 1 => 2 | 2 => 3 | 3 => 20 | 4 => 25 | 5 => 80 | 6 => 100 | 7 => 110 | 8 => 250 | 9 => 300
    | 10 => 300 + 5 * ceilDiv (slotOf s 3 (mgetD s.boot.active 3 0)).data.length (2 ^ 20) | 11 => 250 | _ => 20
  ms * 1000000
/-- The next step of the boot ends at some time within its bound: a free value (log entry 4). -/
def nextStage (n : Nat) (s : State) : State :=
  let r := drawBelow (s.boot.bootAt + stageBound n s - s.time.uptime + 1) s
  { r.2 with boot.stage := n, boot.stageAt := s.time.uptime + r.1 }

/-- The directory as a boot finds it: the valid copy with the higher SEQ, and the other one as the older; with none, slot 0 of every kind and no trial (R448). -/
def loadDirectory (s : State) : State :=
  let d := directory s
  let o := s.boot.older
  let valid := fun (d : Directory) => d.crc == d.check
  if valid o && (!valid d || decide (d.seq < o.seq)) then takeDirectory o { s with boot.older := d }
  else if valid d then s else takeDirectory {} { s with boot.older := {} }

/-- Straps sampled, external writes to the flash and the fuses since the device last ran: words 0 to 21 of the OTP, at manufacture (R448, R449, R471, R489; log entry 12). -/
def takeInputs (warm : Bool) (b : BootInput) (s : State) : State :=
  let s := if warm then s else { s with power := { s.power with
    hostSplit := b.hostSplit, clkMode := b.clkMode, bootMode := b.bootMode, pairId := b.pairId, smbAddr := b.smbAddr } }
  let s := if b.badDirs.contains 0 then { s with boot.dirCrc := (directory s).check + 1 } else s
  let s := if b.badDirs.contains 1 then { s with boot.older := { s.boot.older with crc := s.boot.older.check + 1 } } else s
  let s := if warm then s else (b.otp.filter (fun p => decide (p.1 % 64 < 22))).foldl (fun s p =>
    if p.1 < 64 then { s with boot.otp := mput s.boot.otp p.1 (mgetD s.boot.otp p.1 0 ||| p.2) }
    else { s with boot.otpCopy := mput s.boot.otpCopy (p.1 - 64) (mgetD s.boot.otpCopy (p.1 - 64) 0 ||| p.2) }) s
  let s := b.flashed.foldl (fun s p =>
    let x := BootSlot.write 0 p.2 {}
    { s with boot.slots := mset s.boot.slots p.1 { x with state := if p.2.isEmpty then 0 else if verdict s (p.1 / 2) p.2 = 0 then 2 else 3 } }) s
  match b.chain with | some c => { s with boot.chain := c } | none => s

/-- The domains that power up at the release of a reset, in their order, and the µs from it by which each is on; PD_FAB0, PD_FAB1 and PD_PAIR stay off (R475). -/
def powerOrder : List (Nat × Nat) :=
  [(1, 500), (2, 1000), (13, 3000), (14, 4000), (15, 5000), (9, 8000), (12, 22000), (16, 24000), (3, 30000), (4, 32000), (5, 34000),
   (6, 36000), (7, 38000), (8, 40000), (10, 45000), (11, 50000)]
/-- The next domain of the order begins to ramp in time for its bound: a free value (log entry 4). -/
def nextUp (s : State) : State :=
  match s.power.bringUp with
  | [] => s
  | d :: _ =>
    let r := drawBelow (mgetD powerOrder d 0 * 1000 - 500000 - s.time.uptime + 1) s
    { r.2 with power.bringAt := s.time.uptime + r.1 }
/-- Domains 1 to 16 begin to power up, one at a time, but for those that a warm reset left on (R475, R482). -/
def powerUp (s : State) : State := nextUp { s with power.bringUp := (powerOrder.map (·.1)).filter (fun d => !(domainOf s d).on) }
/-- The power-up goes on as time passes: the first domain ramps, within 500 µs, and when it is on, or held off, the next one follows (R474, R475). -/
def powerTick (s : State) : State :=
  match s.power.bringUp with
  | [] => if running s then nextRamp s else s
  | d :: rest =>
    let x := domainOf s d
    if !running s then s
    else if x.on || x.heldOff then nextUp { s with power.bringUp := rest }
    else if s.time.uptime < s.power.bringAt then s
    else if x.ramping then nextUp (modDomain d (fun x => { x with on := true, ramping := false }) { s with power.bringUp := rest })
    else
      let r := drawBelow 500001 s
      modDomain d (fun x => { x with ramping := true }) { r.2 with power.bringAt := s.time.uptime + r.1 }

/-- The record of a boot number (R449). -/
def bootRec (n : Nat) : BootRec :=
  { boot := n, inverse := 2 ^ 32 - 1 - n, crc := crc32c 0 (leBytes 4 n ++ leBytes 4 (2 ^ 32 - 1 - n) ++ zeros 4) }
/-- The highest BOOT among the valid records of a sector; 0 without one. -/
def sectorBoot (rs : List BootRec) : Nat := ((rs.filter (fun r => r == bootRec r.boot)).map (·.boot)).foldl max 0
/-- Append a record to the boot counter: to the sector that holds the number in use, or, where that is full, to the other one once erased (R449). -/
def appendBoot (r : BootRec) (s : State) : State :=
  let a := s.boot.counter.getD 0 []
  let b := s.boot.counter.getD 1 []
  let one := fun (x y : List BootRec) => if x.length < counterRecords then (x ++ [r], y) else (x, [r])
  let p := if sectorBoot b ≤ sectorBoot a then one a b else (one b a).swap
  { s with boot.counter := [p.1, p.2] }
/-- The boot number is stored (R449). A record whose write the last reset interrupted stands in the sector as one that is not valid. -/
def storeBoot (b : BootInput) (s : State) : State :=
  if b.flash && b.counterOk then
    let n := (max (sectorBoot (s.boot.counter.getD 0 [])) (sectorBoot (s.boot.counter.getD 1 [])) + 1) % 2 ^ 32
    let s := if b.counterTorn then appendBoot { bootRec n with crc := (bootRec n).crc + 1 } s else s
    { appendBoot (bootRec n) s with boot.bootNo := n }
  else { s with boot.bootNo := 0, boot.counterFault := true }

/-- H0 and H1, or H2 to H5, come up: their domain is on, and the device finds H0 and H1 sound (R87, R475). -/
def stacksUp (b : BootInput) (s : State) (n : Nat) : Bool := if n < 2 then b.journalOk && (domainOf s 12).on else (domainOf s 16).on
/-- The stacks that come up are ready (R87, R431). -/
def stacksReady (b : BootInput) (s : State) : State :=
  ((List.range 6).filter (stacksUp b s)).foldl (fun s n => modHbm n (fun x => { x with ready := true }) s) s

/-- The reset was a warm one (LAST_RESET). -/
def afterWarm (s : State) : Bool := s.power.lastReset == 3 || s.power.lastReset == 4

/-- The journal is opened or resumed, and the marker of the reset written first (R87, R91, R92). -/
def openJournal (b : BootInput) (s : State) : State :=
  let warm := afterWarm s
  let s := if warm then s else { s with journal.chain := bootNo s % 2 ^ 32 }
  let lost := !stacksUp b s 0 && !s.journal.sram
  let s := if lost then { s with journal := { s.journal with
    sram := true, recs := [], release := s.journal.head, payloads := [], payloadNext := 0, sigPending := [] } } else s
  let s := journalMarker (if warm then 2 else 1) 0 s
  if lost then journalMarker 4 0 s else s

/-- Slots that cannot be read in a boot. -/
def unreadableSlots (b : BootInput) : List Nat := if b.flash then b.badSlots else [2, 3, 4, 5, 6, 7]

/-- The packet-core image is loaded into both clusters, or every thread is held faulted (R456). -/
def loadImage (b : BootInput) (s : State) : State :=
  let bad := unreadableSlots b
  let image := pickImage bad (digestOf (pickSlot bad s 3 (fun _ => true))) s
  loadPicked true 1 image (loadPicked true 0 image s)

/-- An artefact of a pipeline program fails by its PROGRAM_HASH, or another field of its body, alone (R223, R452). -/
def hashRefused (s : State) : Bool :=
  (slotOrder s 3).any fun i =>
    let x := slotOf s 3 i
    x.readable && verdict s 3 x.artefact == 6 && sha256 (artefactBody x.artefact) == headerDigest (artefactHeader x.artefact)
/-- The pipeline program that passes is applied; without one the configuration in force stays (R154, R454, R456). -/
def loadProgram (bad : List Nat) (act : Option (Nat × Nat)) (s : State) : State :=
  match pickProgram bad s with
  | some a => applyProgram a act s
  | none => programFailed act (if hashRefused s then
      (journalCmd { uptime := s.time.uptime, generation := s.mgt.generation, object := noSection, opcode := 0x0402, status := St.badField, origin := 0x5000 } s).2 else s)

/-- The mailbox is ready: PHASE 2, and the boot watchdog stops (R454, R455). -/
def mailboxOpens (s : State) : State := { s with boot.phase := 2, boot.watch := none }

/-- Enter a firmware whose header is given: the boot watchdog runs, and the next steps follow unless it hangs (R455). -/
def enterFirmware (b : BootInput) (slot : Nat) (header : List Byte) (s : State) : State :=
  let s := { s with boot.running := mset s.boot.running 1 header, boot.phase := 1, boot.entered := slot, boot.watch := some s.time.uptime, boot.stage := 0 }
  if b.hangs.contains slot then s else nextStage 4 s

/-- Recovery boot: the ROM waits for an artefact in the window (R457). -/
def waitRecovery (cause : Nat) (s : State) : State :=
  { s with boot := { s.boot with phase := 0, watch := none, stage := 0, rcvState := 1, rcvCause := cause } }

/-- An active slot of kind 1 on trial that failed is reverted in the directory (R455). -/
def revertTrial (s : State) : State :=
  if bit s.boot.trial 0 then
    writeDirectory (fun d => (d.swap 1).setTrial 1 false) { s with boot.reverted := true }
  else s
/-- A slot of kind 1 runs: it is readable and verified, and has not failed (R455). -/
def slotRuns (bad : List Nat) (s : State) (i : Nat) : Bool := !s.boot.failedSlots.contains i && slotPasses bad s 1 i
/-- The slot of kind 1 that the ROM enters, if one runs. -/
def slotToRun (bad : List Nat) (s : State) : Option Nat := (slotOrder s 1).find? (slotRuns bad s)
/-- An active slot that does not run, and was on trial, is reverted. -/
def revertFailed (bad : List Nat) (s : State) : State := if (slotOrder s 1).head?.all (slotRuns bad s) then s else revertTrial s

/-- The ROM selects a firmware slot and enters it, or starts recovery boot (R455, R457). -/
def selectFirmware (b : BootInput) (s : State) : State :=
  if s.power.bootMode then waitRecovery 1 s
  else if !b.flash then waitRecovery 3 s
  else match slotToRun b.badSlots s with
    | some i => enterFirmware b i (artefactHeader (slotOf s 1 i).data) (revertFailed b.badSlots s)
    | none => waitRecovery 2 (revertFailed b.badSlots s)

/-- The boot of R454 at the release of a reset: the ROM runs, and the steps follow as time passes. -/
def bootDevice (warm : Bool) (b : BootInput) (s : State) : State :=
  let s := powerUp (takeInputs warm b s)
  nextStage 1 { s with boot.input := some b, boot.bootAt := s.time.uptime }

/-! ### Power-on reset (R476, R480, R483) -/

/-- The boot flash over a reset or a restart: a slot left WRITING is INVALID (R459). -/
def settleSlots (m : NMap BootSlot) : NMap BootSlot := mmap m (fun _ x => { x with state := if x.state = 1 then 3 else x.state })

/-- What is left of the boot block by a device reset: flash, fuses and the certificate chain (R483). -/
def flashKept (x : Boot) : Boot :=
  { trial := x.trial, counter := x.counter, active := x.active, previous := x.previous, dirSeq := x.dirSeq, dirCrc := x.dirCrc,
    older := x.older, slots := settleSlots x.slots, otp := x.otp, otpCopy := x.otpCopy, chain := x.chain, endorsement := x.endorsement }

/-- Input levels that the device does not drive: they are where they were after any reset. -/
def pinsKept (old s : State) : State :=
  { s with
    host.perst := old.host.perst
    pair.beatIn := old.pair.beatIn, pair.actIn := old.pair.actIn
    power.gpio := old.power.gpio }

/-- Enter power-on reset: every register at its reset value, flash and fuses unchanged (R480, R483). -/
def porReset (s : State) : State :=
  let p := s.power
  pinsKept s { State.reset with
    pending := s.pending, out := s.out, pins := s.pins, freeCtr := s.freeCtr, boot := flashKept s.boot
    power := { State.reset.power with
      porst := p.porst, brownout := p.brownout, lowUs := p.lowUs, goodUs := p.goodUs, backUs := p.backUs, warn := p.warn } }

/-- PORST_N_ASSERT: a low of less than 1 µs is ignored; a longer one starts a power-on reset at once (R480). -/
def execPorstAssert (durationNs : Nat) (s : State) : Host.Outcome State Fault Refusal :=
  answer s (if durationNs < 1000 then s else porReset { s with power.porst := true })

/-- PORST_N_RELEASE: the domains power up and the device boots, unless a brown-out still holds it (R473, R475). -/
def execPorstRelease (b : BootInput) (s : State) : Host.Outcome State Fault Refusal :=
  answer s (if !s.power.porst then s
    else
      let s := { s with power.porst := false }
      if s.power.brownout then s else bootDevice false b s)

/-- A brown-out: the device enters power-on reset, keeps BROWNOUTS and adds one to it (R473, R480). -/
def brownOut (s : State) : State :=
  let n := (s.power.brownouts + 1) % 2 ^ 16
  let s := porReset { s with power.brownout := true, power.backUs := 0 }
  { s with power.brownouts := n, power.lastReset := 2 }

/-- BROWN_OUT_END: the input has been above 11.0 V for 10 ms; the device leaves power-on reset if PORST_N is released (R473). -/
def execBrownOutEnd (b : BootInput) (s : State) : Host.Outcome State Fault Refusal :=
  answer s (if !s.power.brownout || s.power.backUs < 10000 then s
    else
      let s := { s with power.brownout := false }
      if s.power.porst then s else bootDevice false b s)

/-! ### Warm reset (R481-R483) -/

/-- What the management firmware does as a warm reset starts, where it runs: pending fault records are written, commits past their commit point finished, open batches written and transactions aborted, all journalled (R78, R89, R433, R482). -/
def firmwareFarewell (s : State) : State :=
  if !mailboxReady s then s
  else
    let s := s.faults.pending.foldl (fun s _ => faultRecord s) s
    let s := (s.mgt.commits.filter (fun k => !k.waiting && !k.writing && k.ackSeq.isNone)).foldl (fun s k =>
      finishCommit k (k.deferred.foldl (fun s d => applyDeferred d s) s)) s
    fwAbortAll (s.journal.batches.foldl (fun s b => closeBatch b s) s)

/-- A warm reset starts, unless one is in progress: what R482 does at time 0, and the flood of DEVICE_DOWN (R481, R482). -/
def startWarm (cause : Nat) (s : State) : State :=
  if !running s then s
  else
    let s := firmwareFarewell s
    let s := (s.ports.map (·.1)).foldl (fun s p => settleLine true p s) s
    let s := { s with pair.beatOut := false, pair.actOut := false, pair.armed := none }
    let s := if s.fabric.connected then floodDown s else s
    { s with
      boot.armed := none, boot.activating := none, mgt.resetAt := none
      power := { s.power with
        warm := true, warmAt := s.time.uptime, lastReset := cause, warmCount := (s.power.warmCount + 1) % 2 ^ 16 } }

/-- 1 ms into a warm reset every domain but PD_AON, PD_STAG and PD_FHBM is off, and the PCIe links go down (R482). -/
def warmDown (s : State) : State :=
  let s := s.host.linkUp.foldl (fun s l => dropLink l s) s
  { s with power := { s.power with
      domains := mmap s.power.domains (fun d x => { x with on := x.on && [0, 1, 12].contains d, ramping := false }), waiting := [], bringUp := [] } }

/-- A warm reset goes on as time passes (R482). -/
def warmTick (s : State) : State :=
  if s.power.warm && decide (s.power.warmAt + 1000000 ≤ s.time.uptime) then warmDown s else s

/-- WARM_RST_N: low for 1 µs or more starts a warm reset and holds it (R481). -/
def execWarmRstN (durationNs : Nat) (s : State) : Host.Outcome State Fault Refusal :=
  answer s (if durationNs < 1000 || !running s then s else
    let s := startWarm 4 s
    { s with power.warmLow := true })

/-- WARM_RESET_START: 100 µs after the completion of DEVICE_RESET (R481). -/
def execWarmResetStart (s : State) : Host.Outcome State Fault Refusal :=
  answer s (match s.mgt.resetAt with
    | some t => if t ≤ s.time.uptime then startWarm 3 s else s
    | none => s)

/-- The journal over a warm reset: records, region, CHAIN and SEQ are kept (R483). -/
def journalKept (j : Journal) : Journal :=
  { recs := j.recs, head := j.head, release := j.release, chain := j.chain, base := j.base, sizeMib := j.sizeMib, sram := j.sram,
    payloads := j.payloads, payloadNext := j.payloadNext, ckptRecs := j.ckptRecs }

/-- The byte lies in H0 or H1, which keep their content (R431, R483). -/
def inKept (a : Nat) : Bool := match stackOf a with | some n => decide (n < 2) | none => false

/-- What a warm reset leaves: the reset configuration as the next generation, RWS fields, the fault log, the journal and the content of H0 and H1 (R64, R483). -/
def warmState (s : State) : State :=
  let p := s.power
  let kept := { State.reset with
    pending := s.pending, out := s.out, pins := s.pins, freeCtr := s.freeCtr
    boot := { flashKept s.boot with reverted := s.boot.reverted }
    journal := journalKept s.journal
    mgt := { State.reset.mgt with generation := s.mgt.generation + 1 }
    mem := s.mem.filter (fun c => inKept c.1)
    hbm := mmap s.hbm (fun _ x => { maxTemp := x.maxTemp })
    pchans := (s.pchans.filter (fun (p : Nat × PChan) => decide (p.1 < 64) && p.2.bad)).map (fun (p : Nat × PChan) => (p.1, { bad := true }))
    tahr := { State.reset.tahr with clusters := mmap s.tahr.clusters (fun _ x => { stalls := x.stalls }) }
    faults := { State.reset.faults with
      log := s.faults.log, next := s.faults.next, pending := s.faults.pending
      causeSource := s.faults.causeSource, causeValid := s.faults.causeValid, causeResource := s.faults.causeResource }
    power := { State.reset.power with
      porst := false, domains := mmap p.domains (fun d x => { faults := x.faults, on := x.on && [0, 1, 12].contains d })
      lastReset := p.lastReset, warmCount := p.warmCount, brownouts := p.brownouts, warn := p.warn
      lowUs := p.lowUs, goodUs := p.goodUs, backUs := p.backUs, refclkLost := p.refclkLost
      hostSplit := p.hostSplit, clkMode := p.clkMode, bootMode := p.bootMode, pairId := p.pairId, smbAddr := p.smbAddr } }
  let kept := { kept with pair.takeovers := s.pair.takeovers }
  journalLevels (pinsKept s kept)

/-- WARM_RESET_RELEASE, 2 ms or more after the start: UPTIME restarts at 0, and the sequence of R454 runs from its first step (R482). -/
def execWarmResetRelease (b : BootInput) (s : State) : Host.Outcome State Fault Refusal :=
  answer s (if !s.power.warm || s.power.porst || s.power.brownout || s.time.uptime < s.power.warmAt + 2000000 then s else bootDevice true b (warmState s))

/-! ### Recovery boot (R457) -/

/-- The artefact staged in the recovery window: cluster A memory from window offset 0x1000. -/
def stagedArtefact (s : State) : List Byte := Memory.reads s.mem 0x20001000 s.boot.rcvLength

/-- RECOVERY_GO: GO verifies the staged artefact: STATE 2 until that ends (R457). -/
def execRecoveryGo (b : BootInput) (s : State) : Host.Outcome State Fault Refusal :=
  answer s (if !running s || !(s.boot.rcvState == 1 || s.boot.rcvState == 3) then s
    else nextStage 12 { s with boot.rcvState := 2, boot.rcvFail := 0, boot.input := some b, boot.bootAt := s.time.uptime })

/-- The verification of the staged artefact ends: it is entered with RECOVERY set, or STATE 3 (R457). -/
def recoveryVerified (b : BootInput) (s : State) : State :=
  let v := if 8384512 < s.boot.rcvLength then 1 else verdict s 1 (stagedArtefact s)
  if v != 0 then { s with boot := { s.boot with rcvState := 3, rcvFail := v, stage := 0 } }
  else enterFirmware b 2 (artefactHeader (stagedArtefact s)) { s with boot := { s.boot with rcvState := 4, recovery := true } }

/-! ### Firmware restarts (R464) -/

/-- A restart of the management firmware ends: rings resume, and an activation goes on (R464). -/
def restartEnds (s : State) : State :=
  notePause (dbgResume { s with
    boot.restarting := false, boot.watch := none, boot.stage := 0
    boot.activating := s.boot.activating.map (fun a => { a with step := 4 }) })

/-- The ROM starts the firmware slot that runs, in a restart; where none runs recovery boot begins (R455, R464). -/
def restartFirmware (hangs : Bool) (s : State) : State :=
  match slotToRun [] s with
  | some i =>
    let s := revertFailed [] s
    let s := { s with
      boot.running := mset s.boot.running 1 (artefactHeader (slotOf s 1 i).data)
      boot.entered := i, boot.watch := some s.time.uptime, boot.bootAt := s.time.uptime, boot.stage := 0 }
    if hangs then s else nextStage 11 s
  | none => waitRecovery 2 (notePause { revertFailed [] s with boot.restarting := false, boot.activating := none })

/-- A restart of the management firmware begins: transactions are aborted, learning and aging pause (R464). -/
def beginRestart (hangs : Bool) (s : State) : State :=
  let s := fwAbortAll s
  restartFirmware hangs (notePause { s with boot.slots := settleSlots s.boot.slots, boot.failedSlots := [], boot.restarting := true })

/-- The watchdog expired in a restart: the slot has failed, the previous one is restarted and the directory reverts (R464). -/
def restartReverts (s : State) : State :=
  restartFirmware false { s with
    boot.failedSlots := s.boot.failedSlots ++ [s.boot.entered]
    boot.activating := s.boot.activating.map (fun a => { a with outcome := withBit a.outcome 8 true }) }

/-! ### Activation (R463) -/

/-- No command is executing (R46). -/
def noneExecuting (s : State) : Bool := s.mgt.rings.all (fun r => !r.2.executing && r.2.fetched.isNone) && (!s.mgt.serialBusy || s.mgt.serialReq.isSome)

/-- The directory names each selected kind's other slot, with TRIAL set (R463 step 1). -/
def switchDirectory (kinds : Nat) (s : State) : State :=
  writeDirectory (fun d => (kindsOf kinds).foldl (fun d k => (d.swap k).setTrial k true) d) s

/-- A cluster is still drained by TAHR_CORE_RESET or by its part of an activation. -/
def clusterDrains (cl : Nat) (s : State) : Bool := s.tahr.resets.any (fun r => r.cores.any (fun c => c / 32 == cl))

/-- Kind 2 for one cluster: it is drained with GRACE_US 1,000 and RECLAIM 1, and its load ends within 60 ms; a fenced one is loaded when its fence clears (R463 step 3). -/
def startLoad (cl : Nat) (s : State) : State :=
  if isFenced s (resId 0x11 cl) then modCluster cl (fun x => { x with imageDue := true }) s
  else
    let r := drawBelow 60000001 s
    startCoreReset { cmd := none, resource := resId 0x11 cl, cores := ((List.range 32).map (· + 32 * cl)).filter (fun c => !coreFenced s c),
                     graceUntil := s.time.uptime + 1000000, reclaim := true, cause := 0 }
      (modCluster cl (fun x => { x with loading := some (s.time.uptime + r.1) }) r.2)

/-- The load of a drained cluster ends: the memory is zeroed, the image that passes written and the threads restarted (R456, R463). `program` is the digest of the program that runs or is being loaded. -/
def endLoad (program : List Byte) (cl : Nat) (s : State) : State :=
  match (clusterOf s cl).loading with
  | none => s
  | some t =>
    if s.time.uptime < t || clusterDrains cl s then s
    else
      let s := modCluster cl (fun x => { x with loading := none }) s
      if isFenced s (resId 0x11 cl) then modCluster cl (fun x => { x with imageDue := true }) s
      else loadPicked false cl (pickImage [] program s) s

/-- An activation goes on: each step begins when the one before has ended (R463). -/
def activationTick (s : State) : State :=
  match s.boot.activating with
  | none => s
  | some a =>
    if !mailboxReady s then s
    else
      let program := if bit a.outcome 2 then digestOf (pickSlot [] s 3 (fun _ => true)) else runningDigest s 3
      let s := endLoad program 1 (endLoad program 0 s)
      let goes := fun (n : Nat) (s : State) => { s with boot.activating := some { a with step := n } }
      if (clusterOf s 0).loading.isSome || (clusterOf s 1).loading.isSome then s
      else match a.step with
        | 2 => if noneExecuting s then beginRestart a.hangs (goes 3 s) else s
        | 3 => s
        | 4 =>
          if !bit a.outcome 1 then goes 6 s
          else if clusterDrains 0 s then s
          else startLoad 0 (goes 5 { s with boot.loadFailed := withBit s.boot.loadFailed 1 false })
        | 5 => if clusterDrains 1 s then s else startLoad 1 (goes 6 s)
        | _ =>
          let s := { s with boot.activating := none }
          if bit a.outcome 2 && (s.pair.role == 0 || s.pair.role == 4) then loadProgram [] (some (a.outcome, a.oldProgram)) s
          else activationRec a.outcome s

/-- ACTIVATION_START: NTIME has reached AT_NTIME of the armed activation, and the directory is rewritten (R462, R463). `hangs`: the new firmware does not reach readiness. One that is due before PHASE 3, or while another is under way, waits (DEDUCED, log entry 48). -/
def execActivationStart (hangs : Bool) (s : State) : Host.Outcome State Fault Refusal :=
  answer s (match s.boot.armed with
    | none => s
    | some a =>
      if !mailboxReady s || (a.at_ != 0 && decide (s.time.ntime < a.at_)) || s.boot.stage != 0 || s.boot.activating.isSome then s
      else switchDirectory a.kinds { s with
        boot.armed := none
        boot.activating := some { outcome := a.kinds, oldProgram := mgetD s.boot.active 3 0, step := if bit a.kinds 0 then 2 else 4, hangs := hangs } })

/-- BOOT_WATCHDOG: 1 s after the entry of a firmware that has not reached readiness, the ROM restarts Stag (R455, R464). -/
def execBootWatchdog (b : BootInput) (s : State) : Host.Outcome State Fault Refusal :=
  answer s (match s.boot.watch with
    | none => s
    | some t =>
      if !running s || s.time.uptime < t + 1000000000 then s
      else if s.boot.restarting then restartReverts s
      else selectFirmware b { s with
        boot.watch := none, boot.recovery := false, boot.input := some b, boot.bootAt := s.time.uptime
        boot.failedSlots := s.boot.failedSlots ++ [s.boot.entered] })

/-! ### Time -/

/-- The step of the boot that is due is done, and the next one follows (R454). -/
def runStage (n : Nat) (b : BootInput) (s : State) : State :=
  match n with
  | 1 => nextStage 2 (deriveKeys s)
  | 2 => nextStage 3 (loadDirectory s)
  | 3 => selectFirmware b s
  | 4 => nextStage 5 (writeEndorsement (storeBoot b s))
  | 5 => nextStage 6 (stacksReady b s)
  | 6 => nextStage 7 { s with boot.cfgReady := true }
  | 7 => nextStage 8 (openJournal b s)
  | 8 => nextStage 9 (loadImage b s)
  | 9 => nextStage 10 (mailboxOpens s)
  | 10 => loadProgram (unreadableSlots b) none { s with boot.stage := 0 }
  | _ => recoveryVerified b s

/-- Domains that a step of the boot finds powered: PD_STAG, those of the stacks, PD_HOST, those of the clusters (R475). -/
def stageDomains (n : Nat) : List Nat :=
  match n with
  | 1 => [1] | 5 => [12, 16] | 6 => [2] | 8 => [10, 11] | _ => []

/-- The boot goes on as time passes, unless Stag is held (R444, R454) or a domain that the step is about has still to power up (R475). -/
def bootTick (s : State) : State :=
  if s.boot.stage = 0 || !running s || s.faults.stagHeld || s.time.uptime < s.boot.stageAt || (stageDomains s.boot.stage).any s.power.bringUp.contains then s
  else if s.boot.stage = 11 then restartEnds s
  else match s.boot.input with
    | some b => runStage s.boot.stage b s
    | none => s

/-- One tick of the device with nothing commanded: the clock, then what the power domains, a warm reset, the boot, and then an activation, have due. -/
def deviceTick (s : State) : State := activationTick (bootTick (warmTick (powerTick (collectorTick (clockTick s)))))

end Sys2Proof.Machine
end

