-- ==== Sys2Proof/Machine/Commands.lean ====
section
/-! DEFINITION. The commands of the mailbox operations of R53 (02_command_mailbox): the entry fetched from a ring, executed by the management firmware. -/

namespace Sys2Proof.Machine

/-- DEVICE_INFO, R54. -/
def execDeviceInfo (c : Cmd) (s : State) : Host.Outcome State Fault Refusal := answer s (runCmd 0x0101 c s)
/-- DEVICE_SET_MODE, R305. -/
def execDeviceSetMode (c : Cmd) (s : State) : Host.Outcome State Fault Refusal := answer s (runCmd 0x0102 c s)
/-- DEVICE_RESET, R481. -/
def execDeviceReset (c : Cmd) (s : State) : Host.Outcome State Fault Refusal := answer s (runCmd 0x0103 c s)
/-- MBOX_NOP, R53. -/
def execMboxNop (c : Cmd) (s : State) : Host.Outcome State Fault Refusal := answer s (runCmd 0x0201 c s)
/-- MBOX_RING_SET, R38. -/
def execMboxRingSet (c : Cmd) (s : State) : Host.Outcome State Fault Refusal := answer s (runCmd 0x0202 c s)
/-- MBOX_RING_DISABLE, R38. -/
def execMboxRingDisable (c : Cmd) (s : State) : Host.Outcome State Fault Refusal := answer s (runCmd 0x0203 c s)
/-- MBOX_RING_STATUS, R55. -/
def execMboxRingStatus (c : Cmd) (s : State) : Host.Outcome State Fault Refusal := answer s (runCmd 0x0204 c s)
/-- RIGHTS_GET, R59. -/
def execRightsGet (c : Cmd) (s : State) : Host.Outcome State Fault Refusal := answer s (runCmd 0x0301 c s)
/-- RIGHTS_SET, R57. -/
def execRightsSet (c : Cmd) (s : State) : Host.Outcome State Fault Refusal := answer s (runCmd 0x0302 c s)
/-- TXN_OPEN, R73. -/
def execTxnOpen (c : Cmd) (s : State) : Host.Outcome State Fault Refusal := answer s (runCmd 0x0401 c s)
/-- TXN_COMMIT, R80. -/
def execTxnCommit (c : Cmd) (s : State) : Host.Outcome State Fault Refusal := answer s (runCmd 0x0402 c s)
/-- TXN_ABORT, R79. -/
def execTxnAbort (c : Cmd) (s : State) : Host.Outcome State Fault Refusal := answer s (runCmd 0x0403 c s)
/-- TXN_STATUS, R55. -/
def execTxnStatus (c : Cmd) (s : State) : Host.Outcome State Fault Refusal := answer s (runCmd 0x0404 c s)
/-- JOURNAL_READ, R94. -/
def execJournalRead (c : Cmd) (s : State) : Host.Outcome State Fault Refusal := answer s (runCmd 0x0501 c s)
/-- JOURNAL_RELEASE, R94. -/
def execJournalRelease (c : Cmd) (s : State) : Host.Outcome State Fault Refusal := answer s (runCmd 0x0502 c s)
/-- JOURNAL_CHECKPOINT, R94. -/
def execJournalCheckpoint (c : Cmd) (s : State) : Host.Outcome State Fault Refusal := answer s (runCmd 0x0503 c s)
/-- JOURNAL_SET_REGION, R86. -/
def execJournalSetRegion (c : Cmd) (s : State) : Host.Outcome State Fault Refusal := answer s (runCmd 0x0504 c s)
/-- PORT_GET, R131. -/
def execPortGet (c : Cmd) (s : State) : Host.Outcome State Fault Refusal := answer s (runCmd 0x0601 c s)
/-- PORT_CONFIG, R102. -/
def execPortConfig (c : Cmd) (s : State) : Host.Outcome State Fault Refusal := answer s (runCmd 0x0602 c s)
/-- PORT_ENABLE, R103. -/
def execPortEnable (c : Cmd) (s : State) : Host.Outcome State Fault Refusal := answer s (runCmd 0x0603 c s)
/-- PORT_DISABLE, R103. -/
def execPortDisable (c : Cmd) (s : State) : Host.Outcome State Fault Refusal := answer s (runCmd 0x0604 c s)
/-- PORT_PROTECT_SET, R502. -/
def execPortProtectSet (c : Cmd) (s : State) : Host.Outcome State Fault Refusal := answer s (runCmd 0x0605 c s)
/-- PARSER_GET, R158. -/
def execParserGet (c : Cmd) (s : State) : Host.Outcome State Fault Refusal := answer s (runCmd 0x0701 c s)
/-- PARSER_LOAD, R158. -/
def execParserLoad (c : Cmd) (s : State) : Host.Outcome State Fault Refusal := answer s (runCmd 0x0702 c s)
/-- PARSER_RULE_GROUP_SET, R146. -/
def execParserRuleGroupSet (c : Cmd) (s : State) : Host.Outcome State Fault Refusal := answer s (runCmd 0x0703 c s)
/-- TABLE_READ, R168. -/
def execTableRead (c : Cmd) (s : State) : Host.Outcome State Fault Refusal := answer s (runCmd 0x0801 c s)
/-- TABLE_SEARCH, R174. -/
def execTableSearch (c : Cmd) (s : State) : Host.Outcome State Fault Refusal := answer s (runCmd 0x0802 c s)
/-- TABLE_INSERT, R175. -/
def execTableInsert (c : Cmd) (s : State) : Host.Outcome State Fault Refusal := answer s (runCmd 0x0803 c s)
/-- TABLE_UPDATE, R71. -/
def execTableUpdate (c : Cmd) (s : State) : Host.Outcome State Fault Refusal := answer s (runCmd 0x0804 c s)
/-- TABLE_DELETE, R184. -/
def execTableDelete (c : Cmd) (s : State) : Host.Outcome State Fault Refusal := answer s (runCmd 0x0805 c s)
/-- TABLE_BULK, R169. -/
def execTableBulk (c : Cmd) (s : State) : Host.Outcome State Fault Refusal := answer s (runCmd 0x0806 c s)
/-- TABLE_CREATE, R163. -/
def execTableCreate (c : Cmd) (s : State) : Host.Outcome State Fault Refusal := answer s (runCmd 0x0807 c s)
/-- TABLE_SET_POLICY, R164. -/
def execTableSetPolicy (c : Cmd) (s : State) : Host.Outcome State Fault Refusal := answer s (runCmd 0x0808 c s)
/-- STAGE_GET, R222. -/
def execStageGet (c : Cmd) (s : State) : Host.Outcome State Fault Refusal := answer s (runCmd 0x0901 c s)
/-- STAGE_LOAD, R222. -/
def execStageLoad (c : Cmd) (s : State) : Host.Outcome State Fault Refusal := answer s (runCmd 0x0902 c s)
/-- STAGE_POLICER_SET, R212. -/
def execStagePolicerSet (c : Cmd) (s : State) : Host.Outcome State Fault Refusal := answer s (runCmd 0x0903 c s)
/-- STAGE_MIRROR_SET, R216. -/
def execStageMirrorSet (c : Cmd) (s : State) : Host.Outcome State Fault Refusal := answer s (runCmd 0x0904 c s)
/-- STAGE_SAMPLE_SET, R217. -/
def execStageSampleSet (c : Cmd) (s : State) : Host.Outcome State Fault Refusal := answer s (runCmd 0x0905 c s)
/-- BUFFER_GET, R240. -/
def execBufferGet (c : Cmd) (s : State) : Host.Outcome State Fault Refusal := answer s (runCmd 0x0A01 c s)
/-- BUFFER_POOL_SET, R235. -/
def execBufferPoolSet (c : Cmd) (s : State) : Host.Outcome State Fault Refusal := answer s (runCmd 0x0A02 c s)
/-- SCHED_GET, R257. -/
def execSchedGet (c : Cmd) (s : State) : Host.Outcome State Fault Refusal := answer s (runCmd 0x0B01 c s)
/-- SCHED_NODE_SET, R257. -/
def execSchedNodeSet (c : Cmd) (s : State) : Host.Outcome State Fault Refusal := answer s (runCmd 0x0B02 c s)
/-- SCHED_QUEUE_SET, R250. -/
def execSchedQueueSet (c : Cmd) (s : State) : Host.Outcome State Fault Refusal := answer s (runCmd 0x0B03 c s)
/-- SCHED_GATE_SET, R274. -/
def execSchedGateSet (c : Cmd) (s : State) : Host.Outcome State Fault Refusal := answer s (runCmd 0x0B04 c s)
/-- FABRIC_GET, R301. -/
def execFabricGet (c : Cmd) (s : State) : Host.Outcome State Fault Refusal := answer s (runCmd 0x0C01 c s)
/-- FABRIC_LINK_SET, R278. -/
def execFabricLinkSet (c : Cmd) (s : State) : Host.Outcome State Fault Refusal := answer s (runCmd 0x0C02 c s)
/-- FABRIC_DEVICE_SET, R282. -/
def execFabricDeviceSet (c : Cmd) (s : State) : Host.Outcome State Fault Refusal := answer s (runCmd 0x0C03 c s)
/-- PAIR_GET, R315. -/
def execPairGet (c : Cmd) (s : State) : Host.Outcome State Fault Refusal := answer s (runCmd 0x0D01 c s)
/-- PAIR_SET, R309. -/
def execPairSet (c : Cmd) (s : State) : Host.Outcome State Fault Refusal := answer s (runCmd 0x0D02 c s)
/-- PAIR_SWITCHOVER, R325. -/
def execPairSwitchover (c : Cmd) (s : State) : Host.Outcome State Fault Refusal := answer s (runCmd 0x0D03 c s)
/-- TAHR_GET, R348. -/
def execTahrGet (c : Cmd) (s : State) : Host.Outcome State Fault Refusal := answer s (runCmd 0x0E01 c s)
/-- TAHR_CHANNEL_SET, R348. -/
def execTahrChannelSet (c : Cmd) (s : State) : Host.Outcome State Fault Refusal := answer s (runCmd 0x0E02 c s)
/-- TAHR_COUNTER_SET, R360. -/
def execTahrCounterSet (c : Cmd) (s : State) : Host.Outcome State Fault Refusal := answer s (runCmd 0x0E03 c s)
/-- TAHR_CORE_RESET, R354. -/
def execTahrCoreReset (c : Cmd) (s : State) : Host.Outcome State Fault Refusal := answer s (runCmd 0x0E04 c s)
/-- SLICE_GET, R371. -/
def execSliceGet (c : Cmd) (s : State) : Host.Outcome State Fault Refusal := answer s (runCmd 0x0F01 c s)
/-- SLICE_CREATE, R372. -/
def execSliceCreate (c : Cmd) (s : State) : Host.Outcome State Fault Refusal := answer s (runCmd 0x0F02 c s)
/-- SLICE_QUIESCE, R393. -/
def execSliceQuiesce (c : Cmd) (s : State) : Host.Outcome State Fault Refusal := answer s (runCmd 0x0F03 c s)
/-- SLICE_RESET, R395. -/
def execSliceReset (c : Cmd) (s : State) : Host.Outcome State Fault Refusal := answer s (runCmd 0x0F04 c s)
/-- SLICE_REMOVE, R395. -/
def execSliceRemove (c : Cmd) (s : State) : Host.Outcome State Fault Refusal := answer s (runCmd 0x0F05 c s)
/-- SLICE_FREEZE, R393. -/
def execSliceFreeze (c : Cmd) (s : State) : Host.Outcome State Fault Refusal := answer s (runCmd 0x0F06 c s)
/-- SLICE_SAVE, R396. -/
def execSliceSave (c : Cmd) (s : State) : Host.Outcome State Fault Refusal := answer s (runCmd 0x0F07 c s)
/-- SLICE_RESTORE, R397. -/
def execSliceRestore (c : Cmd) (s : State) : Host.Outcome State Fault Refusal := answer s (runCmd 0x0F08 c s)
/-- SLICE_THAW, R398. -/
def execSliceThaw (c : Cmd) (s : State) : Host.Outcome State Fault Refusal := answer s (runCmd 0x0F09 c s)
/-- RING_GET, R374. -/
def execRingGet (c : Cmd) (s : State) : Host.Outcome State Fault Refusal := answer s (runCmd 0x1001 c s)
/-- RING_SET, R374. -/
def execRingSet (c : Cmd) (s : State) : Host.Outcome State Fault Refusal := answer s (runCmd 0x1002 c s)
/-- RING_ENABLE, R375. -/
def execRingEnable (c : Cmd) (s : State) : Host.Outcome State Fault Refusal := answer s (runCmd 0x1003 c s)
/-- RING_DISABLE, R375. -/
def execRingDisable (c : Cmd) (s : State) : Host.Outcome State Fault Refusal := answer s (runCmd 0x1004 c s)
/-- RING_INVALIDATE, R379. -/
def execRingInvalidate (c : Cmd) (s : State) : Host.Outcome State Fault Refusal := answer s (runCmd 0x1005 c s)
/-- TIME_GET, R404. -/
def execTimeGet (c : Cmd) (s : State) : Host.Outcome State Fault Refusal := answer s (runCmd 0x1101 c s)
/-- TIME_SET_OFFSET, R401. -/
def execTimeSetOffset (c : Cmd) (s : State) : Host.Outcome State Fault Refusal := answer s (runCmd 0x1102 c s)
/-- TIME_SET_RATE, R402. -/
def execTimeSetRate (c : Cmd) (s : State) : Host.Outcome State Fault Refusal := answer s (runCmd 0x1103 c s)
/-- TIME_PPS_SET, R407. -/
def execTimePpsSet (c : Cmd) (s : State) : Host.Outcome State Fault Refusal := answer s (runCmd 0x1104 c s)
/-- MONITOR_GET, R413. -/
def execMonitorGet (c : Cmd) (s : State) : Host.Outcome State Fault Refusal := answer s (runCmd 0x1201 c s)
/-- MONITOR_SET, R414. -/
def execMonitorSet (c : Cmd) (s : State) : Host.Outcome State Fault Refusal := answer s (runCmd 0x1202 c s)
/-- MONITOR_DUMP_SET, R416. -/
def execMonitorDumpSet (c : Cmd) (s : State) : Host.Outcome State Fault Refusal := answer s (runCmd 0x1203 c s)
/-- OBSERVE_SET_WINDOW, R26. -/
def execObserveSetWindow (c : Cmd) (s : State) : Host.Outcome State Fault Refusal := answer s (runCmd 0x1301 c s)
/-- FAULT_GET, R435. -/
def execFaultGet (c : Cmd) (s : State) : Host.Outcome State Fault Refusal := answer s (runCmd 0x1401 c s)
/-- FAULT_CLEAR, R442. -/
def execFaultClear (c : Cmd) (s : State) : Host.Outcome State Fault Refusal := answer s (runCmd 0x1402 c s)
/-- FAULT_SET_WINDOW, R438. -/
def execFaultSetWindow (c : Cmd) (s : State) : Host.Outcome State Fault Refusal := answer s (runCmd 0x1403 c s)
/-- FIRMWARE_GET, R468. -/
def execFirmwareGet (c : Cmd) (s : State) : Host.Outcome State Fault Refusal := answer s (runCmd 0x1501 c s)
/-- FIRMWARE_WRITE, R458. -/
def execFirmwareWrite (c : Cmd) (s : State) : Host.Outcome State Fault Refusal := answer s (runCmd 0x1502 c s)
/-- FIRMWARE_ACTIVATE, R462. -/
def execFirmwareActivate (c : Cmd) (s : State) : Host.Outcome State Fault Refusal := answer s (runCmd 0x1503 c s)
/-- FIRMWARE_ATTEST, R469. -/
def execFirmwareAttest (c : Cmd) (s : State) : Host.Outcome State Fault Refusal := answer s (runCmd 0x1504 c s)
/-- HBM_GET, R422. -/
def execHbmGet (c : Cmd) (s : State) : Host.Outcome State Fault Refusal := answer s (runCmd 0x1601 c s)
/-- HBM_SET, R422. -/
def execHbmSet (c : Cmd) (s : State) : Host.Outcome State Fault Refusal := answer s (runCmd 0x1602 c s)
/-- DEBUG_READ, R357. -/
def execDebugRead (c : Cmd) (s : State) : Host.Outcome State Fault Refusal := answer s (runCmd 0x1701 c s)
/-- DEBUG_CONTROL, R357. -/
def execDebugControl (c : Cmd) (s : State) : Host.Outcome State Fault Refusal := answer s (runCmd 0x1702 c s)

end Sys2Proof.Machine
end

