-- ==== Sys2Proof/Machine/Power.lean ====
section
/-! DEFINITION. The supply monitor, regulators, clock inputs and the SMBus alert (R472-R478 18_power_clocks_reset, R488, R495 19_package_and_electrical). -/

namespace Sys2Proof.Machine

/-! ### The supply (R473) -/

/-- The sensor registers every 100 µs: VIN_MV is the sample; input current, power, junction and regulator temperatures and the GPIO levels come from outside, and no row carries them: free values (log entry 1). A junction that comes above 125 °C is reported as DIE_TEMP (R435, R499). -/
def senseAll (mv : Nat) (s : State) : State :=
  let hot := fun (s : State) (die : Nat) => decide (125 < (if die = 0 then s.power.tjF else s.power.tjT))
  let s₀ := s
  let r := draw 216 s
  let s := r.2
  let v := r.1
  let s := { s with power := { s.power with
    samples := 0, vin := mv, iin := bitsOf v 15 0, watts := bitsOf v 27 16, gpio := bitsOf v 35 28
    tjF := signed 8 (bitsOf v 43 36), tjT := signed 8 (bitsOf v 51 44)
    domains := mmap s.power.domains (fun d x => { x with temp := if !x.on then 0 else signed 8 (v / 2 ^ (56 + 8 * d) % 256) }) } }
  [0, 1].foldl (fun s die => if hot s die && !hot s₀ die then report 24 (resId 0x18 0) (leBytes 16 die) s else s) s

/-- The sample counts, and SUPPLY_WARN: set outside 10.8 V to 13.2 V, cleared after 1 ms inside. -/
def supplyCounts (mv : Nat) (p : Power) : Power :=
  let out := decide (mv < 10800) || decide (13200 < mv)
  let good := if out then 0 else p.goodUs + 1
  { p with
    lowUs := if mv < 10500 then p.lowUs + 1 else 0
    goodUs := good
    backUs := if p.brownout && decide (11000 < mv) then p.backUs + 1 else 0
    warn := out || (p.warn && decide (good < 1000)) }

/-- One sample of the 12 V input in mV. Ten in a row below 10.5 V are a brown-out. -/
def supplySample (mv : Nat) (s : State) : State :=
  let s := { s with power := supplyCounts mv s.power }
  let s := if s.power.samples = 99 then senseAll mv s else { s with power.samples := s.power.samples + 1 }
  if 10 ≤ s.power.lowUs && !s.power.porst && !s.power.brownout then brownOut s else s

/-- SUPPLY_SAMPLE. An input beyond the rating of R498 stops the model: no behaviour is stated. -/
def execSupplySample (mv : Nat) (s : State) : Host.Outcome State Fault Refusal :=
  if 14500 < mv then .fault .beyondRatings
  else answer s (supplySample mv s)

/-! ### Regulators and domains (R474, R475) -/


/-- The HBM stacks of a domain that lost its power: not ready, and START-UP from the next power-up on (R425, R431). -/
def stacksDown (d : Nat) (s : State) : State :=
  (if d = 12 then [0, 1] else if d = 16 then [2, 3, 4, 5] else []).foldl (fun s n =>
    (pchansNamed (resId 0x13 n)).foldl (fun s p => enterMode 0 p s) (modHbm n (fun x => { x with ready := false }) s)) s

/-- REGULATOR_FAULT: the domain is switched off and held off, and PWR_REG is reported with the domain in DETAIL. In a trial power-up the command is refused with WRONG_STATE first. -/
def execRegulatorFault (d : Nat) (s : State) : Host.Outcome State Fault Refusal :=
  answer s (if !running s || !((domainOf s d).on || (domainOf s d).ramping) then s
    else
      let trials := trialsOf d s
      let s := modDomain d (fun x => { x with on := false, ramping := false, heldOff := true, faults := (x.faults + 1) % 2 ^ 16 }) s
      let s := stacksDown d { s with faults.tests := s.faults.tests.filter (fun t => t.trial != some d) }
      let s := trials.foldl (fun s t => match t.cmd with | some c => refuse c 0x1402 (failWith St.wrongState) s | none => s) s
      report 23 (resId 0x18 0) (leBytes 16 d) (rampOver d s))

/-- Fabric and pair octets of a domain that their configuration enables. -/
def enabledOctets (s : State) (d : Nat) : List Nat :=
  (List.range 64).filter (fun o => decide (24 ≤ o) && octetDomain o == d && (if o < 62 then (octetOf s o).enable else s.pair.cfg.enable))

/-- DOMAIN_IN_REGULATION: the domain is on, or off again where its trial succeeded and nothing wants it; a trial's self-test proceeds (R474), lanes begin their bring-up, and the next domain follows (R475). -/
def execDomainInRegulation (d : Nat) (s : State) : Host.Outcome State Fault Refusal :=
  answer s (if !running s || !(domainOf s d).ramping then s
    else
      let s := rampOver d (modDomain d (fun x => { x with on := domainWanted s d, ramping := false, heldOff := false }) s)
      let trials := trialsOf d s
      let s := { s with faults.tests := s.faults.tests.map (fun t => if t.trial == some d then { t with trial := none } else t) }
      let s := trials.foldl (fun s t => startTest t.unit s) s
      if (domainOf s d).on then (enabledOctets s d).foldl (fun s o => startOctet o s) s else s)

/-! ### Clock inputs (R478) -/

/-- REFCLK_LOSS: CK_TIME stops and TIMEBASE, fatal, is reported through the direct path. -/
def execRefclkLoss (s : State) : Host.Outcome State Fault Refusal :=
  answer s (if !running s || s.power.refclkLost then s else fatal 25 (resId 0x18 0) [] { s with power.refclkLost := true })

/-- An octet is enabled: a network octet with an enabled port, a fabric or pair octet by its configuration. -/
def octetEnabled (s : State) (o : Nat) : Bool :=
  if o < 24 then s.ports.any (fun p => p.1 / 8 == o && p.2.enabled)
  else if o < 62 then (octetOf s o).enable else s.pair.cfg.enable

/-- LANE_REFCLK_LOSS: each enabled octet that input n serves reports OCTET_PLL. -/
def execLaneRefclkLoss (n : Nat) (s : State) : Host.Outcome State Fault Refusal :=
  answer s (if !running s then s
    else (((List.range 4).map (· + 4 * n)).filter (octetEnabled s)).foldl (fun s o => report 2 (resId 0x08 o) [] s) s)

/-- PCIE_REFCLK_LOSS: every link that is up goes down, with the effects of R368. -/
def execPcieRefclkLoss (s : State) : Host.Outcome State Fault Refusal :=
  answer s (if running s then s.host.linkUp.foldl (fun s l => dropLink l (linkReset l s)) s else s)

/-! ### SMBus alert (R495) -/

/-- SMBUS_ALERT_RESPONSE: a device that asserts SMB_ALERT_N answers with its address (R489) and deasserts the pin. -/
def execSmbusAlertResponse (s : State) : Host.Outcome State Fault Refusal :=
  answer s (if running s && s.faults.alert then
    emit (.data (0x58 + s.power.smbAddr)) { s with faults.alert := false }
  else s)

end Sys2Proof.Machine
end

