-- ==== Sys2Proof/Machine/Observe.lean ====
section
/-! DEFINITION. The register map, the observation aperture and writes to registers (R6, R8 00_scope; R22-R26 01_architecture; R369 13_host_interface; R443 16_fault_handling; R457 17_firmware_and_trust). -/

namespace Sys2Proof.Machine

/-! ### The register map: the word at an offset of each block -/

/-- Offset `off` lies in `n` elements of `stride` bytes from `base`. -/
def inRows (off base stride n : Nat) : Bool := decide (base ≤ off) && decide (off < base + stride * n)

/-- Registers of a mailbox ring at +0x00 to +0x18; the doorbell is write-only. -/
def ringRegs (s : State) (k o : Nat) : Nat :=
  match o with
  | 0x08 => mbConsumerWord (mbRing s k) | 0x10 => mbStatusWord s k | 0x18 => mbConfigWord (mbRing s k) | _ => 0

/-- MGT_. -/
def mgtRegs (s : State) (o : Nat) : Nat :=
  if inRows o 0x1000 0x40 4 then ringRegs s ((o - 0x1000) / 0x40) (o % 0x40)
  else if inRows o 0x20000 0x40 4096 then ringRegs s (0x1000 + (o - 0x20000) / 0x40) (o % 0x40)
  else match o with
    | 0x100 => s.mgt.generation | 0x108 => epochStatusWord s | 0x110 => s.journal.head | 0x118 => s.journal.release
    | 0x120 => journalStatusWord s.journal | _ => 0

/-- NET_. -/
def netRegs (s : State) (o : Nat) : Nat :=
  if inRows o 0x10000 0x40 192 && o % 0x40 == 0 then portStatusWord (portOf s ((o - 0x10000) / 0x40))
  else if inRows o 0x30000 8 4096 then
    match mget s.groups ((o - 0x30000) / 8) with | some g => protStatusWord g | none => 0
  else 0

/-- PRS_. -/
def prsRegs (s : State) (o : Nat) : Nat :=
  if o = 0 then parserStatusWord s
  else if inRows o 0x10000 8 1024 then groupStatusWord s ((o - 0x10000) / 8) else 0

/-- TBL_. -/
def tblRegs (s : State) (o : Nat) : Nat :=
  if o = 0 then lookupStatusWord s
  else if inRows o 0x10000 0x200 24 then setRegRead (setOf s ((o - 0x10000) / 0x200)) (o % 0x200)
  else if inRows o 0x80000 0x40 1024 then tableStatusWord s ((o - 0x80000) / 0x40) (o % 0x40 / 8) else 0

/-- STG_. -/
def stgRegs (s : State) (o : Nat) : Nat :=
  if o = 0 then stageStatusWord s
  else if inRows o 0x100 8 12 then hbmStatusWord s ((o - 0x100) / 8)
  else if inRows o 0x100000 8 262144 then policerBucketsWord s ((o - 0x100000) / 8) else 0

/-- BUF_. -/
def bufRegs (s : State) (o : Nat) : Nat :=
  if o = 0 then segStatusWord s
  else if o = 8 then blkStatusWord s
  else if inRows o 0x1000 0x10 64 then
    if o % 0x10 = 0 then poolStatusWord s ((o - 0x1000) / 0x10) else poolDropsWord s ((o - 0x1000) / 0x10)
  else if inRows o 0x2000 8 20 then agentStatusWord s ((o - 0x2000) / 8)
  else if inRows o 0x3000 8 64 then bankStatusWord s ((o - 0x3000) / 8)
  else if inRows o 0x10000 8 1536 then acctStatusWord s ((o - 0x10000) / 8) else 0

/-- SCH_. -/
def schRegs (s : State) (o : Nat) : Nat :=
  if inRows o 0x80000 0x20 192 then gateWord s ((o - 0x80000) / 0x20) (o % 0x20 / 8)
  else if inRows o 0x100000 0x20 131072 then
    let x := nodeOf s ((o - 0x100000) / 0x20)
    match o % 0x20 with | 0 => x.rate | 8 => nodeBucketsWord s.time.uptime x | _ => 0
  else if inRows o 0x2000000 8 1048576 then queueStatusWord s ⟨false, (o - 0x2000000) / 8⟩
  else if inRows o 0x2800000 8 131072 then queueStatusWord s ⟨true, (o - 0x2800000) / 8⟩ else 0

/-- FAB_. -/
def fabRegs (s : State) (o : Nat) : Nat :=
  if o = 0 then fabStatusWord s
  else if inRows o 0x1000 8 304 then laneStatusWord s (192 + (o - 0x1000) / 8)
  else if inRows o 0x4000 8 2048 then fabPeerWord s ((o - 0x4000) / 8) else 0

/-- PAIR_. -/
def pairRegs (s : State) (o : Nat) : Nat :=
  if inRows o 0x1000 8 16 then laneStatusWord s (496 + (o - 0x1000) / 8)
  else match o with
    | 0 => pairStatusWord s | 8 => s.pair.appliedSeq | 0x10 => s.pair.ackedSeq | 0x18 => s.pair.appliedGen | _ => 0

/-- TAHR_. -/
def tahrRegs (s : State) (o : Nat) : Nat :=
  if inRows o 0x10000 0x100 64 then
    let c := (o - 0x10000) / 0x100
    let r := o % 0x100
    if r = 0 then coreStatusWord s c else if inRows r 0x40 8 8 then threadStatusWord s (8 * c + (r - 0x40) / 8) else 0
  else if inRows o 0x20000 0x10 2 && o % 0x10 == 0 then clusterStatusWord s ((o - 0x20000) / 0x10)
  else if inRows o 0x100000 0x10 2048 && o % 0x10 == 0 then channelStatusWord s ((o - 0x100000) / 0x10) else 0

/-- HOST_. -/
def hostRegs (s : State) (o : Nat) : Nat :=
  if o = 0 then obsStatusWord s
  else if o = 8 then s.host.obsBase
  else if inRows o 0x10000 0x10 4096 && o % 0x10 == 0 then
    if (mget s.host.slices ((o - 0x10000) / 0x10)).isSome then sliceStatusWord s ((o - 0x10000) / 0x10) else 0
  else if inRows o 0x1000000 0x1000 4096 then
    match mget s.host.rings ((o - 0x1000000) / 0x1000 * 128 + o % 0x1000 / 0x20) with
    | some r => (match o % 0x20 with | 8 => ringStatusWord r | 0x10 => ringIndexWord r | _ => 0)
    | none => 0
  else 0

/-- TIME_. -/
def timeRegs (s : State) (o : Nat) : Nat :=
  let t := s.time
  let log := fun (p : Nat) => mgetD t.stamps p {}
  if inRows o 0x1000 8 192 then (log ((o - 0x1000) / 8)).count % 2 ^ 32
  else if inRows o 0x10000 0x400 192 then
    let e := mgetD (log ((o - 0x10000) / 0x400)).entries (o % 0x400 / 0x10) (0, 0, 0)
    if o % 0x10 = 0 then e.1 else e.2.1 % 2 ^ 16 + e.2.2 % 2 ^ 16 * 2 ^ 16
  else match o with
    | 0 => timeStatusWord s | 8 => t.uptime | 0x10 => t.ntime | 0x18 => unsigned 64 t.rate | 0x20 => bootNo s
    | 0x100 => t.ppsInNtime | 0x108 => t.ppsInUptime | 0x110 => t.ppsInCount | _ => 0

/-- MON_DUMP_STATUS of a stream: LAST_SEQ, MISSED and WRITING (R418). -/
def dumpStatus (d : Dump) : Nat := d.lastSeq + d.missed * 2 ^ 32 + b2n d.writing.isSome * 2 ^ 48

/-- MON_: the status of the two dump streams (R418) and the bridge counters (R16). -/
def monRegs (s : State) (o : Nat) : Nat :=
  if o < 0x10 then dumpStatus (mgetD s.dumps (o / 8) {})
  else if inRows o 0x100 0x10 9 then
    let d := (o - 0x100) / 0x10
    if o % 0x10 = 0 then mgetD s.bridgeTx d 0 else mgetD s.bridgeRx d 0
  else 0

/-- HBM_: H0 and H1 in the F-die half, H2 to H5 in the T-die half. -/
def hbmRegs (s : State) (o : Nat) : Nat :=
  let t := decide (0x2000000 ≤ o)
  let o := o % 0x2000000
  let here := fun (n : Nat) => decide (n < 6) && (decide (2 ≤ n) == t)
  if inRows o 0 8 6 then (if here (o / 8) then stackStatusWord s (o / 8) else 0)
  else if inRows o 0x1000 8 192 then
    let p := (o - 0x1000) / 8
    if here (p / 32) then pcStatusWord s p else 0
  else 0

/-- FLT_: both halves hold the same (R443). -/
def fltRegs (s : State) (o : Nat) : Nat :=
  let o := o % 0x2000000
  if inRows o 0x1000 8 256 then windowWord s ((o - 0x1000) / 8)
  else match o with
    | 0 => faultStatusWord s | 8 => safeCauseWord s | 0x10 => s.faults.next | _ => 0

/-- BOOT_. -/
def bootRegs (s : State) (o : Nat) : Nat :=
  if o = 0 then bootStatusWord s
  else if inRows o 0x108 8 3 then slotStatusWord s ((o - 0x100) / 8) else 0

/-- PWR_PIN_STATUS. FAULT_N is asserted in the safe state; a reset that asserts it admits no read (R444, R480). -/
def pinStatusWord (s : State) : Nat :=
  let p := s.power
  b2n p.hostSplit + b2n p.clkMode * 2 + b2n p.bootMode * 4 + b2n p.pairId * 8 + p.smbAddr * 16 + p.gpio * 2 ^ 8 +
  b2n (!p.warmLow) * 2 ^ 16 + b2n s.pins.faultN * 2 ^ 17 + unsigned 8 p.tjF * 2 ^ 32 + unsigned 8 p.tjT * 2 ^ 40

/-- PWR_. -/
def pwrRegs (s : State) (o : Nat) : Nat :=
  if inRows o 0x100 8 20 then domainWord s.power ((o - 0x100) / 8)
  else match o with
    | 0 => supplyWord s.power | 8 => resetStatusWord s.power | 0x10 => pinStatusWord s | _ => 0

/-- The word of an aligned offset of the register space; blocks of 64 MiB in the order of R22. -/
def regWord (s : State) (off : Nat) : Nat :=
  let o := off % 2 ^ 26
  (match off / 2 ^ 26 with
    | 0 => mgtRegs s o | 1 => netRegs s o | 2 => prsRegs s o | 3 => tblRegs s o | 4 => stgRegs s o | 5 => bufRegs s o
    | 6 => schRegs s o | 7 => fabRegs s o | 8 => pairRegs s o | 9 => tahrRegs s o | 10 => hostRegs s o | 11 => timeRegs s o
    | 12 => monRegs s o | 13 => hbmRegs s o | 14 => fltRegs s o | 15 => bootRegs s o | 16 => pwrRegs s o | _ => 0) % 2 ^ 64

/-! ### Reach (R25, R439) -/

/-- The domain whose power a register needs; PD_AON for blocks that report the state of others (DEDUCED, log entry 43). -/
def regDomain (off : Nat) : Nat :=
  let o := off % 2 ^ 26
  match off / 2 ^ 26 with
  | 0 => 1
  | 1 => if inRows o 0x10000 0x40 192 then 3 + (o - 0x10000) / 0x40 / 32 else 0
  | 2 => 9 | 3 => 9
  | 4 => if inRows o 0x100 8 12 then 3 + (o - 0x100) / 16 else 9
  | 5 => 15 | 6 => 14 | 7 => 14
  | 9 => if inRows o 0x10000 0x100 64 then 10 + (o - 0x10000) / 0x2000
         else if inRows o 0x20000 0x10 2 then 10 + (o - 0x20000) / 0x10
         else if inRows o 0x100000 0x10 2048 then 10 + (o - 0x100000) / 0x4000 else 0
  | 10 => 2
  | _ => 0

/-- The register lies on the T-die: it is reached across the die bridge. -/
def onTDie (off : Nat) : Bool :=
  let b := off / 2 ^ 26
  (decide (5 ≤ b) && decide (b ≤ 8)) || b == 11 || ((decide (12 ≤ b) && decide (b ≤ 14) || b == 16) && decide (0x2000000 ≤ off % 2 ^ 26))

/-- The fence target that a register belongs to; registers that report a fence belong to none (DEDUCED, log entry 43). -/
def regUnit (off : Nat) : Option Nat :=
  let o := off % 2 ^ 26
  match off / 2 ^ 26 with
  | 4 => if inRows o 0x100 8 12 then some (resId 0x0C ((o - 0x100) / 8)) else none
  | 6 => if inRows o 0x2000000 8 1048576 then some (resId 0x12 ((o - 0x2000000) / 8 / 131072)) else none
  | 9 =>
    if inRows o 0x10000 0x100 64 then (if o % 0x100 = 0 then none else some (resId 0x09 ((o - 0x10000) / 0x100)))
    else if inRows o 0x20000 0x10 2 then some (resId 0x11 ((o - 0x20000) / 0x10))
    else if inRows o 0x100000 0x10 2048 then some (resId 0x11 ((o - 0x100000) / 0x4000)) else none
  | _ => none

/-- A register read reaches its register. -/
def regReached (s : State) (off : Nat) : Bool :=
  let d := regDomain off
  (d == 0 || (domainOf s d).on) && (!onTDie off || (domainOf s 13).on) &&
  (match regUnit off with | some r => !isFenced s r | none => true)

/-! ### The aperture (R22-R26) -/

/-- All ones, counted in UNREACH_COUNT. -/
def unreachable (s : State) : Nat × State :=
  (2 ^ 64 - 1, { s with host.unreach := (s.host.unreach + 1) % 2 ^ 32 })

/-- The spill block that a device address lies in. -/
def blockAt (a : Nat) : Option Nat :=
  match stackOf a with
  | some n => if 2 ≤ n then some ((n - 2) * 6291456 + (a - hbmBase n) / 4096) else none
  | none => none
/-- Bytes at an address of H2-H5: a held block once it is written (R226). In a free block only NEXT_BLOCK is defined, and the order of the free lists is not given; a block under a write reads as before or after it: free values (log entry 41). -/
def spillWord (a b : Nat) (s : State) : Nat × State :=
  match mget s.buf.blocks b with
  | some k => if k.writing then draw 64 s else (leNat (slice (blockBytes s b) (a % 4096 / 8 * 8) 8), s)
  | none => draw 64 s
/-- The bits of a slot's header that are open where it holds no entry: neither VALID nor a reserved one (R166). -/
def openHeader : Nat := 0x00FFFFFFFFFFFF1E
/-- What stands at an offset of the regions of an HBM table, in region order: a word that its layout gives, with the bits of it that the spec leaves open, all of them where it defines no content (R166, R167, R178, R503; log entry 41). The header of a slot that holds no entry has VALID 0. A counter table keeps increments in its on-die cache, so no word of it is known. -/
def tableWord (s : State) (t : Nat) (x : Table) (off : Nat) : Nat × Nat :=
  let inst := mgetD x.insts 0 {}
  let size := slotSize x.kind x.keyBytes x.dataBytes
  let o := off % 2 ^ 20
  let unknown := (0, 2 ^ 64 - 1)
  match x.kind with
  | 0 =>
    let per := 2 ^ 20 / (4 * size)
    let b := o / (4 * size)
    if per ≤ b then unknown
    else match mget inst.slots ((off / 2 ^ 20 * per + b) * 4 + o % (4 * size) / size) with
      | some e => (leNat (slice (leBytes 8 (entryHeader e) ++ fit (pad8 x.keyBytes) e.key ++ fit (pad8 x.dataBytes) e.data) (o % size) 8), 0)
      | none => if o % size = 0 then (0, openHeader) else unknown
  | 3 =>
    let per := 2 ^ 20 / size
    let i := off / 2 ^ 20 * per + o / size
    if per ≤ o / size then unknown
    else match mget inst.slots i with
      | some e => (leNat (slice (leBytes 8 1 ++ fit (pad8 x.dataBytes) e.data) (o % size) 8), 0)
      | none => if o % size = 0 then (b2n (isTomb s 0 t i) * 2, 0) else unknown
  | 4 => unknown
  | _ => match mget inst.trie.blocks (off / 32) with
    | some b => (bitsOf (blockWord b) (off % 32 * 8 + 63) (off % 32 * 8), 0)
    | none => unknown
/-- The HBM table that an address of H0 or H1 belongs to, with the offset in its regions. -/
def tableAt (s : State) (a : Nat) : Option (Nat × Table × Nat) :=
  match stackOf a with
  | none => none
  | some n =>
    let r := n * 24576 + (a - hbmBase n) / 2 ^ 20
    if 2 ≤ n then none
    else (s.tables.find? (fun t => t.2.regions.contains r)).map (fun t => (t.1, t.2, t.2.regions.findIdx (· == r) * 2 ^ 20 + (a - hbmBase n) % 2 ^ 20))

/-- A byte of the journal region: record SEQ n in slot (n - 1) mod C, then the payload area (DESIGN CHOICE, log entry 42); none elsewhere. -/
def journalByte (j : Journal) (a : Nat) : Option Byte :=
  let size := j.sizeMib * 2 ^ 20
  let off := a - j.base
  let c := size * 7 / 8 / 64
  if j.sram || decide (a < j.base) || decide (j.base + size ≤ a) then none
  else if off < 64 * c then
    (j.recs.find? (fun r => (r.seq - 1) % c == off / 64)).map (fun r => r.raw.getD (off % 64) 0)
  else
    let p := off - 64 * c
    let at_ := fun (x : Nat × Nat × List Byte) => (p + payloadArea j - x.2.1) % payloadArea j
    (j.payloads.find? (fun x => decide (at_ x < x.2.2.length))).map (fun x => x.2.2.getD (at_ x) 0)

/-- The word of a memory window. -/
def memWord (s : State) (a : Nat) : Nat :=
  leNat ((List.range 8).map (fun i => (journalByte s.journal (a + i)).getD (Memory.read s.mem (a + i))))

/-- One atomic read of 8 bytes of the aperture. -/
def windowWordAt (off : Nat) (s : State) : Nat × State :=
  if off < 0x80000000 then
    if !regReached s off then unreachable s
    else (regWord s off, s)
  else if off < 0xC0000000 then
    let a := s.host.obsBase + (off - 0x80000000)
    let r := meetsAt a s
    let s := r.2
    if byteLost s a || r.1 then unreachable s
    else if let some b := blockAt a then spillWord a b s
    else if let some (t, x, off) := tableAt s a then
      (match tableWord s t x off with
        | (w, 0) => (w, s)
        | (w, free) => let r := draw 64 s; (w ||| (r.1 &&& free), r.2))
    else if (stackOf a).isNone then (0, s)
    else (memWord s a, s)
  else if off < 0xC2000000 then
    let cl := (off - 0xC0000000) / 2 ^ 24
    if !(domainOf s (10 + cl)).on || isFenced s (resId 0x11 cl) then unreachable s
    else (memWord s (0x20000000 + (off - 0xC0000000)), s)
  else if off < 0xC2400000 then
    let c := (off - 0xC2000000) / 2 ^ 16
    if !(domainOf s (10 + c / 32)).on || isFenced s (resId 0x09 c) then unreachable s
    else (memWord s (0x30000000 + (off - 0xC2000000)), s)
  else (0, s)

/-- PF0 answers: the device runs, link 0 is up and PF0 is not in D3hot (R366, R369). -/
def pf0Answers (s : State) : Bool := running s && s.host.linkUp.contains 0 && !asleep s 0

/-- OBSERVATION_READ: a read of up to 8 bytes; one that crosses a word is two reads. -/
def execObservationRead (offset size : Nat) (s : State) : Host.Outcome State Fault Refusal :=
  answer s (if !pf0Answers s then s
    else
      let w := offset / 8 * 8
      let a := windowWordAt w s
      let b := if offset % 8 + size ≤ 8 then (0, a.2) else windowWordAt (w + 8) a.2
      emit (.data ((a.1 + b.1 * 2 ^ 64) / 2 ^ (8 * (offset % 8)) % 2 ^ (8 * size))) b.2)

/-- A write that is discarded and counted. -/
def dropWrite (s : State) : State := { s with host.writeDrops := (s.host.writeDrops + 1) % 2 ^ 16 }

/-- OBSERVATION_WRITE. -/
def execObservationWrite (_offset _size : Nat) (s : State) : Host.Outcome State Fault Refusal :=
  answer s (if pf0Answers s then dropWrite s else s)

/-! ### Writes to registers (R8) -/

/-- A write of 8 bytes to BAR 0 of PF0 (R369): ring 0's entries, the doorbells of rings 0 to 3, the MSI-X table, and in recovery boot the window and its LENGTH; GO is the row RECOVERY_GO. A reserved range counts the write. -/
def barWrite (a v : Nat) (s : State) : State :=
  if !pf0Answers s then s
  else if a < 0x2000 then { s with mgt.page := Memory.writes s.mgt.page a (leBytes 8 v) }
  else if a < 0x2100 && a % 0x40 < 0x20 then (if a % 0x40 = 0 then doorbell (.pf0 ((a - 0x2000) / 0x40)) v s else s)
  else if 0x20000 ≤ a && decide (a < 0x20080) then { s with host.msix := mput s.host.msix ((a - 0x20000) / 8) v }
  else if 0x30000 ≤ a && decide (a < 0x30008) then s
  else if 0x800000 ≤ a && decide (a < 0x1000000) then
    let o := a - 0x800000
    if !(s.boot.rcvState == 1 || s.boot.rcvState == 3) then s
    else if o < 0x1000 then (if o = 0 then { s with boot.rcvLength := v % 2 ^ 24 } else s)
    else { s with mem := Memory.writes s.mem (0x20000000 + o) ((leBytes 8 v).take (0x800000 - o)) }
  else dropWrite s

/-! ### Reads of the BARs (R369); no row of the table is one -/

/-- BOOT_RCV_STATUS and the rest of the recovery window: it reads zero outside recovery boot (R457). -/
def recoveryRead (s : State) (o : Nat) : Nat :=
  if s.boot.rcvState = 0 then 0
  else if o < 0x1000 then (if o = 8 then s.boot.rcvState + s.boot.rcvCause * 2 ^ 8 + s.boot.rcvFail * 2 ^ 16 else 0)
  else leNat (Memory.reads s.mem (0x20000000 + o) 8)
/-- What a read of 8 bytes of BAR 0 of PF0 answers, while PF0 does: a reserved range reads zero. The pending bits are zero, since a vector is sent as it is signalled. -/
def barRead (s : State) (a : Nat) : Nat :=
  if a < 0x2000 then leNat (Memory.reads s.mgt.page a 8)
  else if a < 0x2100 then ringRegs s ((a - 0x2000) / 0x40) (a % 0x40)
  else if 0x20000 ≤ a && decide (a < 0x20080) then mgetD s.host.msix ((a - 0x20000) / 8) 0
  else if 0x800000 ≤ a && decide (a < 0x1000000) then recoveryRead s (a - 0x800000)
  else 0
/-- What a read of 8 bytes of the slice page of `sl` answers through the PF1 of a link: the page of a slice that is absent, or bound to the other link, reads zero. -/
def slicePageRead (s : State) (link sl o : Nat) : Nat :=
  if (sliceOf s sl).state = 0 || (sliceOf s sl).link != link then 0
  else if o < 0x20 then ringRegs s (0x1000 + sl) o
  else if 0x1000 ≤ o && decide (o < 0x2000) then
    match mget s.host.rings (dataKey sl ((o - 0x1000) / 0x20)) with
    | some r => (match o % 0x20 with | 8 => ringStatusWord r | 0x10 => ringIndexWord r | _ => 0)
    | none => 0
  else 0

/-! ### Writes of the management firmware -/

/-- A write of the management firmware to an aligned register: RW sets, RW1C clears, RWS sets, every other type ignores it. -/
def regWrite (off v : Nat) (s : State) : State :=
  let o := off % 2 ^ 26
  match off / 2 ^ 26 with
  | 0 => if o = 0x120 then { s with journal.sram := bit v 2 } else s
  | 1 =>
    if inRows o 0x10000 0x40 192 && o % 0x40 == 0 && bit v 10 then
      modPort ((o - 0x10000) / 0x40) (fun p => { p with pnWarn := false }) s
    else s
  | 3 =>
    if inRows o 0x10000 0x200 24 then
      let n := (o - 0x10000) / 0x200
      if o % 0x200 = 0 then setCommand n v s else setRegWrite n (o % 0x200) (leBytes 8 v) s
    else s
  | 6 =>
    if inRows o 0x100000 0x20 131072 && o % 0x20 == 0 then modNode ((o - 0x100000) / 0x20) (fun x => { x with rate := v % 2 ^ 41 }) s else s
  | 8 => if o = 0 then { s with pair.takeovers := bitsOf v 47 32 } else s
  | 9 =>
    if inRows o 0x20000 0x10 2 && o % 0x10 == 0 then
      modCluster ((o - 0x20000) / 0x10) (fun x => { x with stalls := bitsOf v 63 48 }) s
    else s
  | 13 =>
    let n := o % 0x2000000 / 8
    if inRows (o % 0x2000000) 0 8 6 && (decide (2 ≤ n) == decide (0x2000000 ≤ o)) then
      modHbm n (fun x => { x with maxTemp := signed 8 (bitsOf v 31 24) }) s
    else s
  | 14 => fatal 31 (resId 0x18 0) [] s
  | 15 => if o = 0 then { s with boot.reverted := bit v 3 } else s
  | 16 =>
    if o = 8 then { s with power := { s.power with warmCount := bitsOf v 31 16, brownouts := bitsOf v 47 32 } }
    else if inRows o 0x100 8 20 then modDomain ((o - 0x100) / 8) (fun x => { x with faults := bitsOf v 31 16 }) s
    else s
  | _ => s

/-- REGISTER_WRITE: an address below 16 MiB is an offset of BAR 0 of PF0, written by the host; one of the register space is a device address, written on the device. A write to an FLT_ register other than by a command is a COLLECTOR event (R443). -/
def execRegisterWrite (addr value : Nat) (s : State) : Host.Outcome State Fault Refusal :=
  answer s (if !running s then s
    else if addr < 0x1000000 then barWrite addr value s
    else if 0x80000000 ≤ addr && addr % 8 == 0 then regWrite (addr - 0x80000000) value s
    else s)

/-- FAULT_RECORD: a pending record is written (R433). -/
def execFaultRecord (s : State) : Host.Outcome State Fault Refusal := answer s (faultRecord s)

end Sys2Proof.Machine
end

