-- ==== Sys2Proof/Machine/Snapshot.lean ====
section
/-! DEFINITION. The snapshot of a synchronisation: the commands that rebuild the active's replicated state (R313, R314 11_pair_operation). What their payloads do not carry stands in a note beside them (log entry 38). -/

namespace Sys2Proof.Machine

/-- One command of a snapshot. -/
structure SnapCmd where
  opcode : Nat
  resource : Nat := 0
  payload : List Byte
  /-- what the active tells beside the command: `entryNote`, `gateNote`, or 0 -/
  note : Nat := 0

/-! ### Pools, accounts, ports -/

/-- Pools and account thresholds. -/
def snapBuffers (s : State) : List SnapCmd :=
  s.buf.pools.map (fun p => ⟨0x0A02, 0, bufferGetResult s 0 p.1, 0⟩) ++
  s.buf.acctCfg.map (fun a => ⟨0x0A02, 0, bufferGetResult s 1 (8 * a.1), 0⟩)

/-- The sections of a port that are replicated, section 2 being local (R313). -/
def snapPort (n : Nat) (p : Port) : List SnapCmd :=
  (p.phys.toList.map (fun f => physBytes n f) ++ (if p.fwd = {} then [] else [fwdBytes n p.fwd]) ++
    p.framed.toList.map (fun f => framedBytes n f)).map (fun b => ⟨0x0602, 0, b, 0⟩)
/-- Ports, protection groups, then the ports that are enabled. -/
def snapPorts (s : State) : List SnapCmd :=
  (s.ports.map (fun p => snapPort p.1 p.2)).flatten ++
  s.groups.map (fun g => ⟨0x0605, 0, protBytes g.1 g.2, 0⟩) ++
  (s.ports.filter (fun p => p.2.enabled)).map (fun p => ⟨0x0603, 0, leBytes 2 p.1, 0⟩)

/-! ### Tables -/

/-- TABLE_CREATE of a table. -/
def createBytes (x : Table) : List Byte :=
  leBytes 1 0 ++ leBytes 1 x.kind ++ leBytes 1 x.memory ++ leBytes 1 x.scope ++ leBytes 2 x.keyBytes ++ leBytes 2 x.dataBytes ++
  leBytes 4 x.capacity ++ zeros 4 ++ leBytes 4 x.seed0 ++ leBytes 4 x.seed1 ++ leBytes 2 x.group ++ leBytes 1 x.release ++
  leBytes 1 x.headUnits ++ leBytes 4 x.leafMib
/-- TABLE_CREATE that destroys table `t`. -/
def destroyBytes (t : Nat) : List Byte := leBytes 1 1 ++ zeros 11 ++ leBytes 4 t ++ zeros 16
/-- The table that stands for a free number below one in use while the others are created: numbers are given out lowest first (R163). -/
def gapTable : Table := { kind := 3, memory := 1, keyBytes := 4, dataBytes := 8, capacity := 1 }

/-- The numbers up to the highest in use, in order, with their tables. -/
def tableNumbers (s : State) : List (Nat × Option Table) :=
  let live := s.tables.filter (fun t => !t.2.destroyed)
  (List.range (s.tables.foldl (fun a t => max a (t.1 + 1)) 0)).map (fun t => (t, mget live t))
/-- TABLE_SET_POLICY of a table. -/
def policyBytes (t : Nat) (p : Policy) : List Byte :=
  leBytes 4 t ++ leBytes 1 p.full ++ leBytes 1 (b2n p.learn) ++ leBytes 1 p.miss ++ leBytes 1 (b2n p.tahrWrite) ++ leBytes 4 p.ageMs ++
  leBytes 2 p.missChannel ++ leBytes 2 p.missCounterTable ++ leBytes 4 p.missCounter ++ zeros 4
/-- TABLE_INSERT of an entry. -/
def insertBytes (t : Nat) (x : Table) (key data : List Byte) : List Byte :=
  leBytes 4 t ++ leBytes 2 x.keyBytes ++ leBytes 2 x.dataBytes ++ zeros 8 ++
  fit (pad8 x.keyBytes) (fit x.keyBytes key) ++ fit x.dataBytes data

/-- The rules of a group that packets of the new bank search, and their KEY_MODE. -/
def groupNow (s : State) (g : Nat) : Nat × List Rule :=
  let x := groupOfRules s g
  (x.mode (editCopy s x), x.copy (editCopy s x))
/-- The group is edited through its kind 5 table, whose rules have handles and priorities (R183). -/
def byTable (s : State) (g : Nat) : Option (Nat × Table) :=
  (s.tables.find? (fun t => t.2.kind == 5 && !t.2.destroyed && t.2.group == g)).bind (fun t =>
    if (groupNow s g).1 = (if t.2.keyBytes = 80 then 1 else 0) then some t else none)

/-- Entries of an instance as (key, data, note), in the order of their handles. A counter pair starts at 0, as each member counts its own packets (R320). -/
def snapEntries (s : State) (x : Table) (inst : TInst) : List (List Byte × List Byte × Nat) :=
  match x.kind with
  | 4 => inst.pairs.map (fun p => (leBytes 4 p.1, zeros 16, 0))
  | 5 => match byTable s x.group with
    | none => []
    | some _ => (groupNow s x.group).2.map (fun r => ((ruleEntry x r).2.2.1, (ruleEntry x r).2.2.2, entryNote { handle := r.handle } 0))
  | 0 => ((entriesOf inst).foldl (fun m e => mset m e.handle (e.key, e.data, entryNote e inst.sweeps))
      ([] : NMap (List Byte × List Byte × Nat))).map (·.2)
  | 3 => inst.slots.map (fun e => (e.2.key, e.2.data, 0))
  | _ => inst.slots.map (fun e => (e.2.key, e.2.data, entryNote e.2 inst.sweeps))

/-- A destroyed table that still has tombstones, as large as they need. -/
def tombTable (s : State) (t : Nat) (x : Table) : Table :=
  { gapTable with
    scope := x.scope, release := 1
    capacity := (s.mgt.tombs.filter (fun b => b.kind == 0 && b.table == t)).foldl (fun a b => max a (b.index % 2 ^ 32 + 1)) 1 }
/-- The table that stands for number `t`, which no table has: one that is destroyed again. -/
def standIn (s : State) (t : Nat) : Table := match mget s.tables t with | some x => tombTable s t x | none => gapTable
/-- Tables with their policies and entries; numbers that are free on the active are freed again by `snapGaps`. -/
def snapTables (s : State) : List SnapCmd :=
  let live := s.tables.filter (fun t => !t.2.destroyed)
  (tableNumbers s).map (fun t => ⟨0x0807, 0, createBytes (t.2.getD (standIn s t.1)), 0⟩) ++
  (live.filter (fun t => t.2.policy != {})).map (fun t => ⟨0x0808, 0, policyBytes t.1 t.2.policy, 0⟩) ++
  ((live.map (fun t => (t.2.insts.map (fun i => (snapEntries s t.2 i.2).map (fun e =>
    (⟨0x0803, instResource t.2 i.1, insertBytes t.1 t.2 e.1 e.2.1, e.2.2⟩ : SnapCmd)))).flatten)).flatten)
/-- The tombstones of a table: an entry is inserted at each index and deleted again, which leaves it a tombstone (R83, R84). -/
def snapTombs (s : State) (t : Nat) (x : Table) : List SnapCmd :=
  ((s.mgt.tombs.filter (fun b => b.kind == 0 && b.table == t)).map (fun b =>
    let r := instResource x (b.index / 2 ^ 32)
    let key := leBytes 4 (b.index % 2 ^ 32)
    [(⟨0x0803, r, insertBytes t x key [], 0⟩ : SnapCmd),
     ⟨0x0805, r, leBytes 4 t ++ leBytes 2 x.keyBytes ++ zeros 10 ++ fit (pad8 x.keyBytes) key, 0⟩])).flatten
/-- Mirror sessions that are tombstones: enabled and disabled again (R83, R216). -/
def snapMirrorTombs (s : State) (bytes : Nat → Mirror → List Byte) : List SnapCmd :=
  ((s.mgt.tombs.filter (fun b => b.kind == 1)).map (fun b =>
    [(⟨0x0904, 0, bytes b.index { enabled := true }, 0⟩ : SnapCmd), ⟨0x0904, 0, bytes b.index {}, 0⟩])).flatten
/-- Tombstones, and the tables that stood for free numbers are destroyed. -/
def snapGaps (s : State) : List SnapCmd :=
  ((tableNumbers s).map (fun t => match t.2 with
    | some x => snapTombs s t.1 x
    | none => (if (mget s.tables t.1).isSome then snapTombs s t.1 (standIn s t.1) else []) ++ [⟨0x0807, 0, destroyBytes t.1, 0⟩])).flatten

/-! ### Rule groups, parser, stages -/

/-- Parts of a list of at most `n` items; an empty list is one empty part. -/
def partsOf (n : Nat) : Nat → List Rule → List (List Rule)
  | 0, rs => [rs]
  | fuel + 1, rs => if rs.length ≤ n then [rs] else rs.take n :: partsOf n fuel (rs.drop n)
/-- PARSER_RULE_GROUP_SET with some rules of a group. -/
def groupBytes (g mode part : Nat) (rs : List Rule) : List Byte :=
  leBytes 2 g ++ leBytes 1 mode ++ leBytes 1 part ++ leBytes 4 rs.length ++ zeros 8 ++
  (rs.map (fun r => leBytes (ruleWidth mode) r.value ++ leBytes (ruleWidth mode) r.mask ++ leBytes 8 r.action)).flatten
/-- Rule groups whose content no kind 5 table carries: PART 0, then as many PART 1 as one buffer each takes (R148). -/
def snapGroups (s : State) : List SnapCmd :=
  ((s.ruleGroups.map (·.1)).map (fun g =>
    let x := groupNow s g
    if (byTable s g).isSome || (x.1 = 0 && x.2.isEmpty) then []
    else match partsOf ((2 ^ 20 - 16) / ruleSize x.1) 65536 x.2 with
      | [] => []
      | r :: rest => (⟨0x0703, 0, groupBytes g x.1 0 r, 0⟩ : SnapCmd) :: rest.map (fun r => ⟨0x0703, 0, groupBytes g x.1 1 r, 0⟩))).flatten

/-- STAGE_POLICER_SET of a policer, whose buckets stay as they are. -/
def policerBytes (n : Nat) (p : PolicerCfg) : List Byte :=
  leBytes 4 n ++ leBytes 1 p.mode ++ leBytes 1 (unsigned 8 p.lenAdj) ++ zeros 2 ++ leBytes 2 p.cirM ++ leBytes 1 p.cirE ++
  leBytes 1 p.pirE ++ leBytes 2 p.pirM ++ zeros 2 ++ leBytes 4 p.cbs ++ leBytes 4 p.pbs ++ leBytes 2 p.counterTable ++ zeros 2 ++
  leBytes 4 p.counterBase
/-- STAGE_MIRROR_SET of a session. -/
def mirrorBytes (n : Nat) (m : Mirror) : List Byte :=
  leBytes 1 n ++ leBytes 1 (b2n m.enabled) ++ leBytes 1 m.truncate ++ leBytes 1 m.cls ++ leBytes 1 m.destKind ++ zeros 3 ++
  leBytes 4 m.egressIndex ++ leBytes 2 m.channel ++ zeros 2 ++ leBytes 4 m.rewrite ++ zeros 4
/-- STAGE_SAMPLE_SET of a sampler. -/
def samplerBytes (n : Nat) (x : Sampler) : List Byte :=
  leBytes 2 n ++ leBytes 1 x.truncate ++ leBytes 1 x.mode ++ leBytes 4 x.n ++ leBytes 2 x.channel ++ zeros 2 ++ leBytes 4 x.seed
/-- The parser and the stages of the bank that new packets take. -/
def snapStages (s : State) : List SnapCmd :=
  (if s.bank.parser = {} then [] else [⟨0x0702, 0, parserImage s.bank.parser, 0⟩]) ++
  s.bank.stages.map (fun g => ⟨0x0902, 0, imageBytes g.1 g.2, 0⟩) ++
  s.bank.policers.map (fun p => ⟨0x0903, 0, policerBytes p.1 p.2, 0⟩) ++
  (s.mirrors.filter (fun m => m.2.enabled)).map (fun m => ⟨0x0904, 0, mirrorBytes m.1 m.2, 0⟩) ++
  s.samplers.map (fun x => ⟨0x0905, 0, samplerBytes x.1 x.2, 0⟩)

/-! ### Queues and scheduling -/

/-- A binding taken and left, so that the entry it held names no group (R251, R252). -/
def takeAndLeave (bytes : Bind → List Byte) (b : Bind) : List SnapCmd := [⟨0x0B03, 0, bytes b, 0⟩, ⟨0x0B03, 0, bytes {}, 0⟩]
/-- The destination of a key. -/
def keyDest (k : Nat) : Bind :=
  if 2 ^ 21 ≤ k then { kind := 3, target := k - 2 ^ 21, mapped := true }
  else if 2 ^ 20 ≤ k then { kind := 2, target := k - 2 ^ 20, mapped := true }
  else { kind := 1, device := k / 256, target := k % 256, mapped := true }
/-- Bindings of VOQ groups: those whose destination names another group come first, so that the map ends as it stands. -/
def snapVoqBinds (s : State) : List SnapCmd :=
  let holds := fun (g : Nat × Bind) => destGroup s g.2.kind g.2.device g.2.target == some g.1
  (s.sched.voqBind.filter (fun g => !holds g) ++ s.sched.voqBind.filter holds).map (fun g => ⟨0x0B03, 0, voqBindBytes g.1 g.2, 0⟩) ++
  match (List.range 16384).find? (fun g => (voqBindOf s g).kind == 0) with
  | none => []
  | some g => ((s.sched.destMap.filter (fun d => d.2 == 0)).map (fun d => takeAndLeave (voqBindBytes g) (keyDest d.1))).flatten
/-- Bindings of egress queue groups, in the same manner. -/
def snapEqBinds (s : State) : List SnapCmd :=
  let holds := fun (g : Nat × Bind) => arrivalGroup s g.2.kind g.2.target == some g.1
  (s.sched.eqBind.filter (fun g => !holds g) ++ s.sched.eqBind.filter holds).map (fun g => ⟨0x0B03, 0, eqBindBytes g.1 g.2, 0⟩) ++
  match (List.range 16384).find? (fun g => (eqBindOf s g).kind == 0) with
  | none => []
  | some g => ((s.sched.arrival.filter (fun d => d.2 == 0)).map (fun d => takeAndLeave (eqBindBytes g) (keyDest d.1))).flatten

/-- The settings of a node differ from those of reset. -/
def nodeSet (n : Nat) (x : Node) : Bool :=
  let r := nodeReset n
  x.level != 0 && (x.level != r.level || x.band != r.band || x.lenAdj != r.lenAdj || x.parent != r.parent || x.weight != r.weight ||
    x.rate != r.rate || x.cbs != r.cbs || x.pbs != r.pbs)
/-- Queues with settings of their own. -/
def snapQueues (s : State) : List SnapCmd :=
  ((s.sched.voqs.filter (fun q => q.2.cfg.isSome)).map (fun q => (⟨false, q.1⟩ : QId)) ++
   (s.sched.eqs.filter (fun q => q.2.cfg.isSome)).map (fun q => (⟨true, q.1⟩ : QId))).map (fun q => ⟨0x0B03, 0, queueBytes s q, 0⟩)
/-- Profiles, nodes, bindings, queues, targets and gate lists. -/
def snapSched (s : State) : List SnapCmd :=
  s.sched.profiles.map (fun p => ⟨0x0B03, 0, schedGetResult s 3 p.1, 0⟩) ++
  (s.sched.nodes.filter (fun n => nodeSet n.1 n.2)).map (fun n => ⟨0x0B02, 0, nodeBytes s n.1, 0⟩) ++
  snapVoqBinds s ++ snapEqBinds s ++ snapQueues s ++
  (s.sched.targets.filter (fun t => t.2.rateM != 0 || t.2.rateE != 0 || t.2.stopKib != 1024 || t.2.resumeKib != 768)).map
    (fun t => ⟨0x0B03, 0, schedGetResult s 4 t.1, 0⟩) ++
  ((s.sched.gates.filter (fun g => g.2.last.isSome || g.2.fitAdj != 24)).map (fun g => match g.2.oper, g.2.admin with
    | none, none => [⟨0x0B04, 0, gateListBytes g.1 g.2.fitAdj none, 0⟩]
    | o, a => o.toList.map (fun l => ⟨0x0B04, 0, gateListBytes g.1 l.fitAdj (some l), gateNote true l⟩) ++
        a.toList.map (fun l => ⟨0x0B04, 0, gateListBytes g.1 l.fitAdj (some l), gateNote false l⟩))).flatten

/-! ### Monitors and packet cores -/

/-- MONITOR_SET of an instance, without CLEAR. -/
def monSetBytes (i : Nat) (m : Monitor) : List Byte :=
  leBytes 2 i ++ leBytes 1 m.point ++ leBytes 1 m.shift ++ zeros 4 ++ leBytes 4 m.matchV ++ leBytes 4 m.mask
/-- MONITOR_DUMP_SET of a stream. -/
def dumpSetBytes (i : Nat) (d : Dump) : List Byte :=
  leBytes 1 i ++ leBytes 1 d.dest ++ leBytes 1 (b2n d.clear) ++ zeros 1 ++ leBytes 4 d.period ++ leBytes 8 d.base ++ leBytes 4 d.depth ++
  leBytes 4 d.sections ++ zeros 8
/-- Monitor instances that differ from reset, and the dump streams that have been set. -/
def snapMonitors (s : State) : List SnapCmd :=
  (s.monitors.filter (fun m => let r := monReset m.1
    m.2.point != r.point || m.2.shift != r.shift || m.2.matchV != r.matchV || m.2.mask != r.mask)).map
    (fun m => ⟨0x1202, 0, monSetBytes m.1 m.2, 0⟩) ++
  (s.dumps.filter (fun d => d.2.period != 0)).map (fun d => ⟨0x1203, 0, dumpSetBytes d.1 d.2, 0⟩)

/-- Channels and counters of the packet cores. -/
def snapTahr (s : State) : List SnapCmd :=
  (s.tahr.channels.filter (fun c => { c.2 with slots := [], order := [] } != ({} : Channel))).map
    (fun c => ⟨0x0E02, 0, channelBytes s c.1, 0⟩) ++
  (s.tahr.cores.filter (fun c => c.2.userRead || !c.2.selects.isEmpty)).map (fun c => ⟨0x0E03, 0, coreSection s c.1, 0⟩) ++
  (s.tahr.clusters.filter (fun c => c.2.dumpPeriod != 0)).map (fun c => ⟨0x0E03, 0, dumpSection s c.1, 0⟩)

/-! ### The whole snapshot -/

/-- The commands that rebuild the replicated state (R314): what others name comes before what names it. -/
def snapshotOf (s : State) : List SnapCmd :=
  snapBuffers s ++ snapTables s ++ snapGroups s ++ snapStages s ++ snapPorts s ++ snapSched s ++ snapMonitors s ++ snapTahr s ++ snapGaps s ++ snapMirrorTombs s mirrorBytes

/-- Send the snapshot in the JOURNAL class: the sync point and the number of commands, then the commands, none of which is journalled (R314 step 2; the words are DESIGN CHOICE, log entry 38). -/
def sendSnapshot (s : State) : State :=
  let cs := snapshotOf s
  cs.foldl (fun t c => pairSend 4 (c.opcode :: c.resource :: c.note :: c.payload.map (·.toNat)) t) (pairSend 4 [s.journal.head - 1, cs.length] s)

end Sys2Proof.Machine
end

