-- ==== Sys2Proof/Machine/Replication.lean ====
section
/-! DEFINITION. What a member of a pair applies from the other: the snapshot of a synchronisation and the active's journal records (R314-R317 11_pair_operation). -/

namespace Sys2Proof.Machine

/-- A replicated operation as the member stages it: origin 0x4, in a transaction of its own; an SA is not rebuilt (R109, R313). -/
def peerStaged (opcode : Nat) (c : Cmd) : Staged := ⟨opcode, { c with path := .peer, txnId := programTxn }⟩
/-- A record of the active as the member stages it: no note stands beside it. -/
def recordStaged (opcode : Nat) (c : Cmd) : Staged := peerStaged opcode { c with bufAddr := 0 }

/-- Apply operations of the active as one transaction of origin 0x4. -/
def applyPeer (goal : CommitGoal) (opcode : Nat) (ops : List Staged) (s : State) : State :=
  startCommit { opcode := opcode, origin := originOf .peer, goal := goal, ops := ops } s

/-- The entries of a batch record of the active, applied through the table engine (R90, R315); none where one cannot be applied as the active did. -/
def applyBatch (delete : Bool) (t i resource : Nat) (x : Table) : List (List Byte) → State → Option State
  | [], s => some s
  | e :: rest, s =>
    let kb := pad8 x.keyBytes
    let key := e.take x.keyBytes
    if delete then
      match handleFor t i x key s with
      | none => none
      | some _ => applyBatch delete t i resource x rest (batchChange t i resource true (batchEntry x key [] false) (applyDelete t i key s))
    else
      match insertEntry t i x key (slice e kb x.dataBytes) { replace := true, learned := true } s with
      | .error _ => none
      | .ok d => applyBatch delete t i resource x rest (batchInsert t i resource x key (slice e kb x.dataBytes) d.evicted d.s)

/-- A batch record: its payload holds the entries; OBJECT is carried as TABLE_ID and instance in the TABLE_BULK header. What is applied is one batch of this member with origin 0x4; a batch of its own that is open for the same instance is written first (R90, R315). -/
def peerBatch (opcode : Nat) (c : Cmd) (s : State) : Option State :=
  let t := c.at 0 4
  let i := c.at 6 1
  match tableOf s t with
  | none => none
  | some x =>
    let delete := opcode == 0x0805
    let size := pad8 x.keyBytes + (if delete then 0 else pad8 x.dataBytes)
    let mine := fun (b : Batch) => b.table == t && b.inst == i && b.resource == c.resource
    let s := (s.journal.batches.filter mine).foldl (fun s b => closeBatch b s) s
    (applyBatch delete t i c.resource x (items size (c.at 8 4) (c.payload.drop 16)) s).map
      (fun s => (s.journal.batches.filter mine).foldl (fun s b => closeBatchAs 0x4000 b s) s)

/-- A received record is in turn: it follows what has been applied and received. -/
def recordDue (seq : Nat) (s : State) : Bool :=
  let last := match s.pair.received.getLast? with | some r => r.seq | none => s.pair.appliedSeq
  decide (last < seq)

/-- Apply a record that belongs to no transaction: a batch, a single command, or one that changed no configuration (R315, R317). -/
def applySingle (r : PeerRec) (s : State) : State :=
  if r.status != 0 then { s with pair.appliedSeq := r.seq }
  else if r.cmd.path = .firmware then
    match peerBatch r.opcode r.cmd s with
    | some t => { t with pair.appliedSeq := r.seq }
    | none => diverge r.seq s
  else applyPeer (.replay r.seq r.generation) r.opcode [recordStaged r.opcode r.cmd] s

/-- Apply a transaction whose commit record has arrived, as one generation of this member (R315). A commit record with a failing status changes nothing. -/
def applyTxn (rs : List PeerRec) (k : PeerRec) (s : State) : State :=
  let ops := rs.map (fun r => recordStaged r.opcode r.cmd)
  if k.status != 0 || ops.isEmpty then { s with pair.appliedSeq := k.seq }
  else applyPeer (.replay k.seq k.generation) 0x0402 ops s

/-- The member applies records: it is STANDBY, or SYNCING with its snapshot applied. -/
def applies (s : State) : Bool := s.pair.role == 3 || (s.pair.role == 2 && s.pair.snapped)
/-- The member takes records: it applies them, or will once the snapshot that is under way is applied (R314, R315). -/
def takes (s : State) : Bool := applies s || (s.pair.role == 2 && peerBusy s)

/-- Apply, in SEQ order, what has been received in full; records that arrive while a commit of the member is under way wait for its end (R315). -/
def drainPeer : Nat → State → State
  | 0, s => s
  | n + 1, s =>
    if !mailboxReady s || s.faults.safe || peerBusy s || !applies s || !unitReceived s then s
    else match s.pair.received with
      | [] => s
      | r :: rest =>
        if r.isCommit then drainPeer n (applyTxn [] r { s with pair.received := rest })
        else if r.status != 0 || r.cmd.txnId = 0 then drainPeer n (applySingle r { s with pair.received := rest })
        else
          let rs := s.pair.received.takeWhile (fun x => !x.isCommit)
          match s.pair.received.dropWhile (fun x => !x.isCommit) with
          | [] => s
          | k :: after => drainPeer n (applyTxn rs k { s with pair.received := after })

/-- What follows once records can be applied: they are, a takeover that waited for them is made, a SWITCH is acknowledged (R315, R322, R325). -/
def peerSettle (s : State) : State :=
  let s := drainPeer (s.pair.received.length + 1) s
  let s := if s.pair.takingOver && s.pair.role == 3 && !peerBusy s && !unitReceived s then takeOverNow s else s
  settleSwitch s

/-- SNAPSHOT (R314 step 3): the commands that rebuild the replicated state, executed as one transaction. A member that has had a snapshot, or is STANDBY, is synchronised anew (R87, R319). -/
def execSnapshot (cmds : List (Nat × Cmd)) (s : State) : Host.Outcome State Fault Refusal :=
  answer s (let s := pairTaken 4 s
    if !mailboxReady s || s.faults.safe || !(s.pair.role == 2 || s.pair.role == 3) || s.pair.link = 0 then s
    else
      let s := if s.pair.snapped || s.pair.role == 3 || peerBusy s then beginSync s.pair.peerInc s else s
      let ops := (cmds.filter (fun q => match specOf q.1 with | some sp => sp.kind == .c && sp.replicated q.2 | none => false)).map
        (fun q => peerStaged q.1 q.2)
      applyPeer .snapshot 0x0402 ops s)

/-- JOURNAL_RECORD (R315). The entry tells how the record belongs: TXN_ID of a transaction's records, path `firmware` for a batch record (log entry 38). Receipt of a commit record is acknowledged (R318). -/
def execJournalRecord (seq generation opcode status : Nat) (isCommit : Bool) (c : Cmd) (s : State) : Host.Outcome State Fault Refusal :=
  answer s (let s := pairTaken 4 s
    if !running s || s.pair.link = 0 || !takes s || !recordDue seq s then s
    else
      let s := if isCommit then pairSend 3 [6, seq] s else s
      peerSettle { s with pair.received := s.pair.received ++ [⟨seq, generation, opcode, status, isCommit, c⟩] })

/-- HEARTBEAT. -/
def execHeartbeat (b : Beat) (s : State) : Host.Outcome State Fault Refusal := answer s (peerSettle (heartbeat b s))

/-- PEER_FAILED (R321): both heartbeat paths silent for 25 µs. -/
def execPeerFailed (s : State) : Host.Outcome State Fault Refusal :=
  answer s (if running s && s.pair.cfg.enable && 2 ≤ s.pair.role && !beatLink s && !beatSide s then peerSettle (peerFailed s) else s)
/-- TAKEOVER_REQUEST (R321). -/
def execTakeoverRequest (s : State) : Host.Outcome State Fault Refusal :=
  answer s (let s := pairTaken 3 s
    if running s && s.pair.cfg.enable && 2 ≤ s.pair.role && s.pair.link != 0 then peerSettle (peerFailed s) else s)

/-- PAIR_LINK_DOWN (R323, R325): the link is DOWN while the sideband beats. -/
def execPairLinkDown (s : State) : Host.Outcome State Fault Refusal :=
  answer s (if running s && s.pair.link = 0 && beatSide s then peerSettle (linkLost s) else s)

/-- SWITCH: the records up to its SEQ are applied, then the member acknowledges (R325). -/
def execSwitchMsg (head : Nat) (s : State) : Host.Outcome State Fault Refusal :=
  answer s (let s := pairTaken 3 s
    if running s && s.pair.role = 3 && s.pair.link != 0 then peerSettle { s with pair.switchHead := some head } else s)

/-- SYNC_POINT (R314 step 2): at a commit boundary the active takes its sync point and sends the snapshot; for a STANDBY peer that has lost records it needed, anew (R87, R319). -/
def execSyncPoint (s : State) : Host.Outcome State Fault Refusal :=
  answer s (if running s && s.pair.role = 4 && (s.pair.peerRole = 2 || s.pair.peerRole = 3) && s.pair.link != 0 && s.pair.syncPoint.isNone &&
      s.mgt.commits.isEmpty then
    sendSnapshot { s with pair.syncPoint := some (s.journal.head - 1), pair.peerApplied := s.journal.head - 1 } else s)

/-! ### Commits that go on (R67, R70, R80, R318) -/

/-- COMMIT_RESUME: the wait of step 1 or phase A has ended; or a completion that waited for the standby has no standby to wait for (R318). -/
def execCommitResume (id : Nat) (s : State) : Host.Outcome State Fault Refusal :=
  answer s (peerSettle (match s.mgt.commits.find? (fun k => k.id == id) with
    | none => s
    | some k =>
      if !mailboxReady s then s
      else match k.ackSeq with
        | some seq =>
          if s.pair.link != 0 && s.pair.peerRole == 3 && s.pair.role == 4 then s
          else answerCommit { k with recs := [] } seq { s with mgt.commits := s.mgt.commits.filter (fun x => x.id != id) }
        | none =>
          if k.writing then endPhaseA k s
          else if !k.waiting then s
          else if mustWait k.ops s then { s with mgt.commits := s.mgt.commits.map (fun x => if x.id = id then { x with waited := x.waited || epochWait k.ops s } else x) }
          else runCommit k s))

/-- PHASE_B: every header that was in the ingress blocks at the commit point has left them (R68, R80). -/
def execPhaseB (id : Nat) (s : State) : Host.Outcome State Fault Refusal :=
  answer s (peerSettle (match s.mgt.commits.find? (fun k => k.id == id) with
    | none => s
    | some k =>
      let inIngress := ingressPkts s
      if !mailboxReady s || k.waiting || k.writing || k.ackSeq.isSome || k.behind.any inIngress.contains then s
      else finishCommit k (k.deferred.foldl (fun s d => applyDeferred d s) s)))

end Sys2Proof.Machine
end

