-- ==== Sys2Proof/Machine/Dispatch.lean ====
section
/-! DEFINITION. One arm for each command: its meaning, over everything but the queue. -/

namespace Sys2Proof.Machine

def exec (i : Instr) (s : State) : Host.Outcome State Fault Refusal :=
  match i with
  | .deviceInfo c => Sys2Proof.Machine.execDeviceInfo c s
  | .deviceSetMode c => Sys2Proof.Machine.execDeviceSetMode c s
  | .deviceReset c => Sys2Proof.Machine.execDeviceReset c s
  | .mboxNop c => Sys2Proof.Machine.execMboxNop c s
  | .mboxRingSet c => Sys2Proof.Machine.execMboxRingSet c s
  | .mboxRingDisable c => Sys2Proof.Machine.execMboxRingDisable c s
  | .mboxRingStatus c => Sys2Proof.Machine.execMboxRingStatus c s
  | .rightsGet c => Sys2Proof.Machine.execRightsGet c s
  | .rightsSet c => Sys2Proof.Machine.execRightsSet c s
  | .txnOpen c => Sys2Proof.Machine.execTxnOpen c s
  | .txnCommit c => Sys2Proof.Machine.execTxnCommit c s
  | .txnAbort c => Sys2Proof.Machine.execTxnAbort c s
  | .txnStatus c => Sys2Proof.Machine.execTxnStatus c s
  | .journalRead c => Sys2Proof.Machine.execJournalRead c s
  | .journalRelease c => Sys2Proof.Machine.execJournalRelease c s
  | .journalCheckpoint c => Sys2Proof.Machine.execJournalCheckpoint c s
  | .journalSetRegion c => Sys2Proof.Machine.execJournalSetRegion c s
  | .portGet c => Sys2Proof.Machine.execPortGet c s
  | .portConfig c => Sys2Proof.Machine.execPortConfig c s
  | .portEnable c => Sys2Proof.Machine.execPortEnable c s
  | .portDisable c => Sys2Proof.Machine.execPortDisable c s
  | .portProtectSet c => Sys2Proof.Machine.execPortProtectSet c s
  | .parserGet c => Sys2Proof.Machine.execParserGet c s
  | .parserLoad c => Sys2Proof.Machine.execParserLoad c s
  | .parserRuleGroupSet c => Sys2Proof.Machine.execParserRuleGroupSet c s
  | .tableRead c => Sys2Proof.Machine.execTableRead c s
  | .tableSearch c => Sys2Proof.Machine.execTableSearch c s
  | .tableInsert c => Sys2Proof.Machine.execTableInsert c s
  | .tableUpdate c => Sys2Proof.Machine.execTableUpdate c s
  | .tableDelete c => Sys2Proof.Machine.execTableDelete c s
  | .tableBulk c => Sys2Proof.Machine.execTableBulk c s
  | .tableCreate c => Sys2Proof.Machine.execTableCreate c s
  | .tableSetPolicy c => Sys2Proof.Machine.execTableSetPolicy c s
  | .stageGet c => Sys2Proof.Machine.execStageGet c s
  | .stageLoad c => Sys2Proof.Machine.execStageLoad c s
  | .stagePolicerSet c => Sys2Proof.Machine.execStagePolicerSet c s
  | .stageMirrorSet c => Sys2Proof.Machine.execStageMirrorSet c s
  | .stageSampleSet c => Sys2Proof.Machine.execStageSampleSet c s
  | .bufferGet c => Sys2Proof.Machine.execBufferGet c s
  | .bufferPoolSet c => Sys2Proof.Machine.execBufferPoolSet c s
  | .schedGet c => Sys2Proof.Machine.execSchedGet c s
  | .schedNodeSet c => Sys2Proof.Machine.execSchedNodeSet c s
  | .schedQueueSet c => Sys2Proof.Machine.execSchedQueueSet c s
  | .schedGateSet c => Sys2Proof.Machine.execSchedGateSet c s
  | .fabricGet c => Sys2Proof.Machine.execFabricGet c s
  | .fabricLinkSet c => Sys2Proof.Machine.execFabricLinkSet c s
  | .fabricDeviceSet c => Sys2Proof.Machine.execFabricDeviceSet c s
  | .pairGet c => Sys2Proof.Machine.execPairGet c s
  | .pairSet c => Sys2Proof.Machine.execPairSet c s
  | .pairSwitchover c => Sys2Proof.Machine.execPairSwitchover c s
  | .tahrGet c => Sys2Proof.Machine.execTahrGet c s
  | .tahrChannelSet c => Sys2Proof.Machine.execTahrChannelSet c s
  | .tahrCounterSet c => Sys2Proof.Machine.execTahrCounterSet c s
  | .tahrCoreReset c => Sys2Proof.Machine.execTahrCoreReset c s
  | .sliceGet c => Sys2Proof.Machine.execSliceGet c s
  | .sliceCreate c => Sys2Proof.Machine.execSliceCreate c s
  | .sliceQuiesce c => Sys2Proof.Machine.execSliceQuiesce c s
  | .sliceReset c => Sys2Proof.Machine.execSliceReset c s
  | .sliceRemove c => Sys2Proof.Machine.execSliceRemove c s
  | .sliceFreeze c => Sys2Proof.Machine.execSliceFreeze c s
  | .sliceSave c => Sys2Proof.Machine.execSliceSave c s
  | .sliceRestore c => Sys2Proof.Machine.execSliceRestore c s
  | .sliceThaw c => Sys2Proof.Machine.execSliceThaw c s
  | .ringGet c => Sys2Proof.Machine.execRingGet c s
  | .ringSet c => Sys2Proof.Machine.execRingSet c s
  | .ringEnable c => Sys2Proof.Machine.execRingEnable c s
  | .ringDisable c => Sys2Proof.Machine.execRingDisable c s
  | .ringInvalidate c => Sys2Proof.Machine.execRingInvalidate c s
  | .timeGet c => Sys2Proof.Machine.execTimeGet c s
  | .timeSetOffset c => Sys2Proof.Machine.execTimeSetOffset c s
  | .timeSetRate c => Sys2Proof.Machine.execTimeSetRate c s
  | .timePpsSet c => Sys2Proof.Machine.execTimePpsSet c s
  | .monitorGet c => Sys2Proof.Machine.execMonitorGet c s
  | .monitorSet c => Sys2Proof.Machine.execMonitorSet c s
  | .monitorDumpSet c => Sys2Proof.Machine.execMonitorDumpSet c s
  | .observeSetWindow c => Sys2Proof.Machine.execObserveSetWindow c s
  | .faultGet c => Sys2Proof.Machine.execFaultGet c s
  | .faultClear c => Sys2Proof.Machine.execFaultClear c s
  | .faultSetWindow c => Sys2Proof.Machine.execFaultSetWindow c s
  | .firmwareGet c => Sys2Proof.Machine.execFirmwareGet c s
  | .firmwareWrite c => Sys2Proof.Machine.execFirmwareWrite c s
  | .firmwareActivate c => Sys2Proof.Machine.execFirmwareActivate c s
  | .firmwareAttest c => Sys2Proof.Machine.execFirmwareAttest c s
  | .hbmGet c => Sys2Proof.Machine.execHbmGet c s
  | .hbmSet c => Sys2Proof.Machine.execHbmSet c s
  | .debugRead c => Sys2Proof.Machine.execDebugRead c s
  | .debugControl c => Sys2Proof.Machine.execDebugControl c s
  | .mbDoorbell path value => Sys2Proof.Machine.execMbDoorbell path value s
  | .mbRingReset path value => Sys2Proof.Machine.execMbRingReset path value s
  | .mailboxFetch path f => Sys2Proof.Machine.execMailboxFetch path f s
  | .mbFetchRetry path f => Sys2Proof.Machine.execMbFetchRetry path f s
  | .mctpRequest body => Sys2Proof.Machine.execMctpRequest body s
  | .mboxAddr value => Sys2Proof.Machine.execMboxAddr value s
  | .mboxDataCapture => Sys2Proof.Machine.execMboxDataCapture s
  | .mboxDataUpdate value => Sys2Proof.Machine.execMboxDataUpdate value s
  | .txnIdleTimeout txn => Sys2Proof.Machine.execTxnIdleTimeout txn s
  | .commitResume id => Sys2Proof.Machine.execCommitResume id s
  | .epochRetire egress => Sys2Proof.Machine.execEpochRetire egress s
  | .epochDrain tag => Sys2Proof.Machine.execEpochDrain tag s
  | .phaseB id => Sys2Proof.Machine.execPhaseB id s
  | .tombstoneExpiry kind table index => Sys2Proof.Machine.execTombstoneExpiry kind table index s
  | .batchClose table inst resource => Sys2Proof.Machine.execBatchClose table inst resource s
  | .checkpoint => Sys2Proof.Machine.execCheckpoint s
  | .signature seq => Sys2Proof.Machine.execSignature seq s
  | .frameReceive f => Sys2Proof.Machine.execFrameReceive f s
  | .pauseFrame port bytes => Sys2Proof.Machine.execPauseFrame port bytes s
  | .pauseExpiry port prio => Sys2Proof.Machine.execPauseExpiry port prio s
  | .xoffRepeat port prio => Sys2Proof.Machine.execXoffRepeat port prio s
  | .storm port prio => Sys2Proof.Machine.execStorm port prio s
  | .stormEnd port prio => Sys2Proof.Machine.execStormEnd port prio s
  | .portFailure port cond => Sys2Proof.Machine.execPortFailure port cond s
  | .linkGood port => Sys2Proof.Machine.execLinkGood port s
  | .upDelay port => Sys2Proof.Machine.execUpDelay port s
  | .holdTime port => Sys2Proof.Machine.execHoldTime port s
  | .waitToRestore group => Sys2Proof.Machine.execWaitToRestore group s
  | .linkStateRecord => Sys2Proof.Machine.execLinkStateRecord s
  | .framedDefect port d declared => Sys2Proof.Machine.execFramedDefect port d declared s
  | .ttiMultiframe port tti => Sys2Proof.Machine.execTtiMultiframe port tti s
  | .parserEntry source pipeline => Sys2Proof.Machine.execParserEntry source pipeline s
  | .stageVisit pkt => Sys2Proof.Machine.execStageVisit pkt s
  | .endOfIngress pkt => Sys2Proof.Machine.execEndOfIngress pkt s
  | .voqEnqueue => Sys2Proof.Machine.execVoqEnqueue s
  | .reserveRefill => Sys2Proof.Machine.execReserveRefill s
  | .packing q => Sys2Proof.Machine.execPacking q s
  | .blockWriteComplete block => Sys2Proof.Machine.execBlockWriteComplete block s
  | .refill q => Sys2Proof.Machine.execRefill q s
  | .reclaimSweep => Sys2Proof.Machine.execReclaimSweep s
  | .voqDequeue sector => Sys2Proof.Machine.execVoqDequeue sector s
  | .egressDequeue target => Sys2Proof.Machine.execEgressDequeue target s
  | .ageScan q => Sys2Proof.Machine.execAgeScan q s
  | .endOfEgress pkt => Sys2Proof.Machine.execEndOfEgress pkt s
  | .transmit pkt => Sys2Proof.Machine.execTransmit pkt s
  | .gateAdvance port => Sys2Proof.Machine.execGateAdvance port s
  | .gateListStart port => Sys2Proof.Machine.execGateListStart port s
  | .grantIssue target => Sys2Proof.Machine.execGrantIssue target s
  | .requestOn m => Sys2Proof.Machine.execRequestOn m s
  | .requestOff m => Sys2Proof.Machine.execRequestOff m s
  | .grant m => Sys2Proof.Machine.execGrant m s
  | .creditReturn m => Sys2Proof.Machine.execCreditReturn m s
  | .lost m => Sys2Proof.Machine.execLost m s
  | .auditGrant m => Sys2Proof.Machine.execAuditGrant m s
  | .auditReturn m => Sys2Proof.Machine.execAuditReturn m s
  | .auditSend => Sys2Proof.Machine.execAuditSend s
  | .requestRepeat voq => Sys2Proof.Machine.execRequestRepeat voq s
  | .creditCellSend device => Sys2Proof.Machine.execCreditCellSend device s
  | .cellFill device => Sys2Proof.Machine.execCellFill device s
  | .cellReceive lane bytes => Sys2Proof.Machine.execCellReceive lane bytes s
  | .reorderTimeout device => Sys2Proof.Machine.execReorderTimeout device s
  | .presence device seq payload => Sys2Proof.Machine.execPresence device seq payload s
  | .presenceSend => Sys2Proof.Machine.execPresenceSend s
  | .presenceTimeout device => Sys2Proof.Machine.execPresenceTimeout device s
  | .portStatus device seq payload => Sys2Proof.Machine.execPortStatus device seq payload s
  | .deviceDown device incarnation => Sys2Proof.Machine.execDeviceDown device incarnation s
  | .deviceDownFlood => Sys2Proof.Machine.execDeviceDownFlood s
  | .laneTrainingDone lane => Sys2Proof.Machine.execLaneTrainingDone lane s
  | .laneLock lane => Sys2Proof.Machine.execLaneLock lane s
  | .laneMarker lane device index receiving => Sys2Proof.Machine.execLaneMarker lane device index receiving s
  | .laneFailure lane cause => Sys2Proof.Machine.execLaneFailure lane cause s
  | .laneRetry lane => Sys2Proof.Machine.execLaneRetry lane s
  | .laneBringupTimeout lane => Sys2Proof.Machine.execLaneBringupTimeout lane s
  | .bondRetrain => Sys2Proof.Machine.execBondRetrain s
  | .heartbeat b => Sys2Proof.Machine.execHeartbeat b s
  | .heartbeatSend => Sys2Proof.Machine.execHeartbeatSend s
  | .pairBeatToggle => Sys2Proof.Machine.execPairBeatToggle s
  | .pairBeatIn level => Sys2Proof.Machine.execPairBeatIn level s
  | .pairActIn level => Sys2Proof.Machine.execPairActIn level s
  | .peerFailed => Sys2Proof.Machine.execPeerFailed s
  | .takeoverRequest => Sys2Proof.Machine.execTakeoverRequest s
  | .splitBrain => Sys2Proof.Machine.execSplitBrain s
  | .pairLinkDown => Sys2Proof.Machine.execPairLinkDown s
  | .pairDissolve => Sys2Proof.Machine.execPairDissolve s
  | .syncPoint => Sys2Proof.Machine.execSyncPoint s
  | .snapshot cmds => Sys2Proof.Machine.execSnapshot cmds s
  | .journalRecord seq generation opcode status isCommit c => Sys2Proof.Machine.execJournalRecord seq generation opcode status isCommit c s
  | .commitAck seq => Sys2Proof.Machine.execCommitAck seq s
  | .deltaSend => Sys2Proof.Machine.execDeltaSend s
  | .counterDelta deltas => Sys2Proof.Machine.execCounterDelta deltas s
  | .redirectRecord bytes => Sys2Proof.Machine.execRedirectRecord bytes s
  | .pairPortMessage port state change => Sys2Proof.Machine.execPairPortMessage port state change s
  | .switchoverStart => Sys2Proof.Machine.execSwitchoverStart s
  | .switchMsg head => Sys2Proof.Machine.execSwitchMsg head s
  | .switchoverAck => Sys2Proof.Machine.execSwitchoverAck s
  | .timeAlign t1 t2 t3 t4 activeRate activeSteered => Sys2Proof.Machine.execTimeAlign t1 t2 t3 t4 activeRate activeSteered s
  | .activationArm kinds atNtime expect => Sys2Proof.Machine.execActivationArm kinds atNtime expect s
  | .ringFetch slice loc entry => Sys2Proof.Machine.execRingFetch slice loc entry s
  | .fetchRetry slice loc entry => Sys2Proof.Machine.execFetchRetry slice loc entry s
  | .submissionDoorbell slice loc value => Sys2Proof.Machine.execSubmissionDoorbell slice loc value s
  | .completionDoorbell slice loc value => Sys2Proof.Machine.execCompletionDoorbell slice loc value s
  | .arm slice loc value => Sys2Proof.Machine.execArm slice loc value s
  | .hostRingReset slice loc value => Sys2Proof.Machine.execHostRingReset slice loc value s
  | .txFrameDispatch slice loc data => Sys2Proof.Machine.execTxFrameDispatch slice loc data s
  | .txFrameComplete slice loc => Sys2Proof.Machine.execTxFrameComplete slice loc s
  | .jobDispatch engine slice loc src => Sys2Proof.Machine.execJobDispatch engine slice loc src s
  | .jobComplete engine job => Sys2Proof.Machine.execJobComplete engine job s
  | .coalesceTimeout slice loc => Sys2Proof.Machine.execCoalesceTimeout slice loc s
  | .dmaReadError d => Sys2Proof.Machine.execDmaReadError d s
  | .quiesceDrainEnd slice => Sys2Proof.Machine.execQuiesceDrainEnd slice s
  | .quiesceTimeout slice => Sys2Proof.Machine.execQuiesceTimeout slice s
  | .pf0Flr => Sys2Proof.Machine.execPf0Flr s
  | .pf1Flr link => Sys2Proof.Machine.execPf1Flr link s
  | .hotReset link => Sys2Proof.Machine.execHotReset link s
  | .linkLoss link => Sys2Proof.Machine.execLinkLoss link s
  | .pciePerst link => Sys2Proof.Machine.execPciePerst link s
  | .wfe t rd rs1 => Sys2Proof.Machine.execWfe t rd rs1 s
  | .wfeReturn t => Sys2Proof.Machine.execWfeReturn t s
  | .cyc t rd => Sys2Proof.Machine.execCyc t rd s
  | .chRsv t rd rs1 => Sys2Proof.Machine.execChRsv t rd rs1 s
  | .chWr t rs1 rs2 imm => Sys2Proof.Machine.execChWr t rs1 rs2 imm s
  | .chCmt t rd rs1 => Sys2Proof.Machine.execChCmt t rd rs1 s
  | .chGet t rd rs1 => Sys2Proof.Machine.execChGet t rd rs1 s
  | .chRd t rd rs1 imm => Sys2Proof.Machine.execChRd t rd rs1 imm s
  | .chRel t rd rs1 => Sys2Proof.Machine.execChRel t rd rs1 s
  | .pld t rd rs1 rs2 => Sys2Proof.Machine.execPld t rd rs1 rs2 s
  | .pst t rd rs1 rs2 rs3 => Sys2Proof.Machine.execPst t rd rs1 rs2 rs3 s
  | .pdispRelease t rd rs1 rs2 => Sys2Proof.Machine.execPdispRelease t rd rs1 rs2 s
  | .pdispEgress t rd rs1 rs2 => Sys2Proof.Machine.execPdispEgress t rd rs1 rs2 s
  | .pdispVoq t rd rs1 rs2 => Sys2Proof.Machine.execPdispVoq t rd rs1 rs2 s
  | .pdispReinject t rd rs1 rs2 => Sys2Proof.Machine.execPdispReinject t rd rs1 rs2 s
  | .pdispGive t rd rs1 rs2 => Sys2Proof.Machine.execPdispGive t rd rs1 rs2 s
  | .tblGo t rd rs1 rs2 => Sys2Proof.Machine.execTblGo t rd rs1 rs2 s
  | .fenceI t => Sys2Proof.Machine.execFenceI t s
  | .rv64imac t => Sys2Proof.Machine.execRv64imac t s
  | .tcmp t value => Sys2Proof.Machine.execTcmp t value s
  | .tsig t value => Sys2Proof.Machine.execTsig t value s
  | .pstatRead t rd => Sys2Proof.Machine.execPstatRead t rd s
  | .timer t => Sys2Proof.Machine.execTimer t s
  | .graceExpiry resource => Sys2Proof.Machine.execGraceExpiry resource s
  | .stall cluster => Sys2Proof.Machine.execStall cluster s
  | .stallRecovery cluster => Sys2Proof.Machine.execStallRecovery cluster s
  | .dmiAccess cluster write addr data => Sys2Proof.Machine.execDmiAccess cluster write addr data s
  | .holdTimeout t => Sys2Proof.Machine.execHoldTimeout t s
  | .tahrDump cluster => Sys2Proof.Machine.execTahrDump cluster s
  | .tblCmdRead set value => Sys2Proof.Machine.execTblCmdRead set value s
  | .tblCmdSearch set value => Sys2Proof.Machine.execTblCmdSearch set value s
  | .tblCmdInsert set value => Sys2Proof.Machine.execTblCmdInsert set value s
  | .tblCmdUpdate set value => Sys2Proof.Machine.execTblCmdUpdate set value s
  | .tblCmdDelete set value => Sys2Proof.Machine.execTblCmdDelete set value s
  | .relClear table inst => Sys2Proof.Machine.execRelClear table inst s
  | .trieFree table => Sys2Proof.Machine.execTrieFree table s
  | .learnEvent table inst => Sys2Proof.Machine.execLearnEvent table inst s
  | .sweepStart table inst => Sys2Proof.Machine.execSweepStart table inst s
  | .sweepVisit table inst => Sys2Proof.Machine.execSweepVisit table inst s
  | .hbmTempRead stack temp => Sys2Proof.Machine.execHbmTempRead stack temp s
  | .refreshWindow pc => Sys2Proof.Machine.execRefreshWindow pc s
  | .hbmActivate pc bank row => Sys2Proof.Machine.execHbmActivate pc bank row s
  | .neighbourRefresh pc bank => Sys2Proof.Machine.execNeighbourRefresh pc bank s
  | .retrainHold pc => Sys2Proof.Machine.execRetrainHold pc s
  | .retrainPause pc => Sys2Proof.Machine.execRetrainPause pc s
  | .retrainEnd pc pass => Sys2Proof.Machine.execRetrainEnd pc pass s
  | .hbmInitComplete stack => Sys2Proof.Machine.execHbmInitComplete stack s
  | .faultReport source resource detail => Sys2Proof.Machine.execFaultReport source resource detail s
  | .faultRecord => Sys2Proof.Machine.execFaultRecord s
  | .collectorCompare equal => Sys2Proof.Machine.execCollectorCompare equal s
  | .selfTestComplete resource pass => Sys2Proof.Machine.execSelfTestComplete resource pass s
  | .observationRead offset size => Sys2Proof.Machine.execObservationRead offset size s
  | .observationWrite offset size => Sys2Proof.Machine.execObservationWrite offset size s
  | .registerWrite addr value => Sys2Proof.Machine.execRegisterWrite addr value s
  | .recoveryGo b => Sys2Proof.Machine.execRecoveryGo b s
  | .bridgeDepthSample cls depth => Sys2Proof.Machine.execBridgeDepthSample cls depth s
  | .dumpCapture stream => Sys2Proof.Machine.execDumpCapture stream s
  | .ppsOutRise => Sys2Proof.Machine.execPpsOutRise s
  | .ppsOutFall => Sys2Proof.Machine.execPpsOutFall s
  | .ppsIn rising => Sys2Proof.Machine.execPpsIn rising s
  | .smbusAlertResponse => Sys2Proof.Machine.execSmbusAlertResponse s
  | .supplySample mv => Sys2Proof.Machine.execSupplySample mv s
  | .brownOutEnd b => Sys2Proof.Machine.execBrownOutEnd b s
  | .regulatorFault domain => Sys2Proof.Machine.execRegulatorFault domain s
  | .refclkLoss => Sys2Proof.Machine.execRefclkLoss s
  | .laneRefclkLoss n => Sys2Proof.Machine.execLaneRefclkLoss n s
  | .pcieRefclkLoss => Sys2Proof.Machine.execPcieRefclkLoss s
  | .porstAssert durationNs => Sys2Proof.Machine.execPorstAssert durationNs s
  | .porstRelease b => Sys2Proof.Machine.execPorstRelease b s
  | .bootWatchdog b => Sys2Proof.Machine.execBootWatchdog b s
  | .warmRstN durationNs => Sys2Proof.Machine.execWarmRstN durationNs s
  | .warmResetStart => Sys2Proof.Machine.execWarmResetStart s
  | .warmResetRelease b => Sys2Proof.Machine.execWarmResetRelease b s
  | .activationStart hangs => Sys2Proof.Machine.execActivationStart hangs s
  | .pciePerstRelease link => Sys2Proof.Machine.execPciePerstRelease link s
  | .pcieLinkUp link => Sys2Proof.Machine.execPcieLinkUp link s
  | .pciePowerState link fn d3hot => Sys2Proof.Machine.execPciePowerState link fn d3hot s
  | .dumpFrameWritten stream => Sys2Proof.Machine.execDumpFrameWritten stream s
  | .tblCmdBusyClear set => Sys2Proof.Machine.execTblCmdBusyClear set s
  | .domainInRegulation domain => Sys2Proof.Machine.execDomainInRegulation domain s

end Sys2Proof.Machine
end

