-- ==== Sys2Proof/Safety.lean ====
section
/-! DEFINITION. What a safe run is, and the terms in which the statements speak: the rows that carry a mailbox entry, by the kind of their operation, and when such an entry is accepted. -/

namespace Sys2Proof

open Machine

/-- Every one of the next `n` steps answers a state. -/
def safeFor : Nat → State → Bool
  | 0, _ => true
  | n + 1, s => match step s with
    | .next t => safeFor n t
    | .fault _ => false
    | .refused _ => false

/-- The command stays within the absolute ratings of R498: only a supply sample can leave them. -/
def withinRatings : Instr → Bool
  | .supplySample mv => decide (mv ≤ 14500)
  | _ => true

/-! ### Mailbox rows by kind (R53 02_command_mailbox) -/

/-- The rows of kind R, which read state: opcode and entry. -/
def readRow : Instr → Option (Nat × Cmd)
  | .deviceInfo c => some (0x0101, c)
  | .mboxNop c => some (0x0201, c)
  | .mboxRingStatus c => some (0x0204, c)
  | .rightsGet c => some (0x0301, c)
  | .txnStatus c => some (0x0404, c)
  | .journalRead c => some (0x0501, c)
  | .portGet c => some (0x0601, c)
  | .parserGet c => some (0x0701, c)
  | .tableRead c => some (0x0801, c)
  | .tableSearch c => some (0x0802, c)
  | .stageGet c => some (0x0901, c)
  | .bufferGet c => some (0x0A01, c)
  | .schedGet c => some (0x0B01, c)
  | .fabricGet c => some (0x0C01, c)
  | .pairGet c => some (0x0D01, c)
  | .tahrGet c => some (0x0E01, c)
  | .sliceGet c => some (0x0F01, c)
  | .ringGet c => some (0x1001, c)
  | .timeGet c => some (0x1101, c)
  | .monitorGet c => some (0x1201, c)
  | .faultGet c => some (0x1401, c)
  | .firmwareGet c => some (0x1501, c)
  | .firmwareAttest c => some (0x1504, c)
  | .hbmGet c => some (0x1601, c)
  | .debugRead c => some (0x1701, c)
  | _ => none

/-- The rows of kind C, which change configuration in a transaction. -/
def configRow : Instr → Option (Nat × Cmd)
  | .portConfig c => some (0x0602, c)
  | .portEnable c => some (0x0603, c)
  | .portDisable c => some (0x0604, c)
  | .portProtectSet c => some (0x0605, c)
  | .parserLoad c => some (0x0702, c)
  | .parserRuleGroupSet c => some (0x0703, c)
  | .tableInsert c => some (0x0803, c)
  | .tableUpdate c => some (0x0804, c)
  | .tableDelete c => some (0x0805, c)
  | .tableBulk c => some (0x0806, c)
  | .tableCreate c => some (0x0807, c)
  | .tableSetPolicy c => some (0x0808, c)
  | .stageLoad c => some (0x0902, c)
  | .stagePolicerSet c => some (0x0903, c)
  | .stageMirrorSet c => some (0x0904, c)
  | .stageSampleSet c => some (0x0905, c)
  | .bufferPoolSet c => some (0x0A02, c)
  | .schedNodeSet c => some (0x0B02, c)
  | .schedQueueSet c => some (0x0B03, c)
  | .schedGateSet c => some (0x0B04, c)
  | .fabricLinkSet c => some (0x0C02, c)
  | .fabricDeviceSet c => some (0x0C03, c)
  | .pairSet c => some (0x0D02, c)
  | .tahrChannelSet c => some (0x0E02, c)
  | .tahrCounterSet c => some (0x0E03, c)
  | .monitorSet c => some (0x1202, c)
  | .monitorDumpSet c => some (0x1203, c)
  | .hbmSet c => some (0x1602, c)
  | _ => none

/-- The rows of kind O, which make an operational change; TXN_COMMIT has statements of its own. -/
def operateRow : Instr → Option (Nat × Cmd)
  | .deviceSetMode c => some (0x0102, c)
  | .deviceReset c => some (0x0103, c)
  | .mboxRingSet c => some (0x0202, c)
  | .mboxRingDisable c => some (0x0203, c)
  | .rightsSet c => some (0x0302, c)
  | .txnOpen c => some (0x0401, c)
  | .txnAbort c => some (0x0403, c)
  | .journalRelease c => some (0x0502, c)
  | .journalCheckpoint c => some (0x0503, c)
  | .journalSetRegion c => some (0x0504, c)
  | .pairSwitchover c => some (0x0D03, c)
  | .tahrCoreReset c => some (0x0E04, c)
  | .sliceCreate c => some (0x0F02, c)
  | .sliceQuiesce c => some (0x0F03, c)
  | .sliceReset c => some (0x0F04, c)
  | .sliceRemove c => some (0x0F05, c)
  | .sliceFreeze c => some (0x0F06, c)
  | .sliceSave c => some (0x0F07, c)
  | .sliceRestore c => some (0x0F08, c)
  | .sliceThaw c => some (0x0F09, c)
  | .ringSet c => some (0x1002, c)
  | .ringEnable c => some (0x1003, c)
  | .ringDisable c => some (0x1004, c)
  | .ringInvalidate c => some (0x1005, c)
  | .timeSetOffset c => some (0x1102, c)
  | .timeSetRate c => some (0x1103, c)
  | .timePpsSet c => some (0x1104, c)
  | .observeSetWindow c => some (0x1301, c)
  | .faultClear c => some (0x1402, c)
  | .faultSetWindow c => some (0x1403, c)
  | .firmwareWrite c => some (0x1502, c)
  | .firmwareActivate c => some (0x1503, c)
  | .debugControl c => some (0x1702, c)
  | _ => none

/-! ### Accepted entries -/

/-- The state in which an entry of a path is checked: its dispatch is noted, and its transaction touched (R44, R78). -/
def dispatched (c : Cmd) (s : State) : State := touchTxn c (noteDispatch c.path s)

/-- The firmware takes the entry now: it executes commands, the ring or path is ready, POST_PHASE matches the index, nothing holds the entry back, and its payload can be read (R33, R34, R39, R43, R454). -/
def takesEntry (opcode : Nat) (c : Cmd) (s : State) : Bool :=
  mailboxReady s && pathReady c.path s && phaseReady c s && !mustHold opcode c s && (unreadable c).isNone

/-- The checks of R47 pass. -/
def passesChecks (sp : CmdSpec) (c : Cmd) (s : State) : Bool := (checkCmd sp c (checkView sp c s)).isNone

/-- The entry is taken and passes its checks, and is not a DRY_RUN. -/
def accepted (opcode : Nat) (c : Cmd) (s : State) : Bool :=
  takesEntry opcode c s && !dryRun c && (match specOf opcode with
    | some sp => passesChecks sp c (dispatched c s)
    | none => false)

/-- The entry is taken and its operation refuses it at a check of R47. -/
def refusedWith (opcode : Nat) (c : Cmd) (f : Fail) (s : State) : Bool :=
  takesEntry opcode c s && !dryRun c && (match specOf opcode with
    | some sp => checkCmd sp c (checkView sp c (dispatched c s)) == some f
    | none => false)

/-- The state in which the commit of a command places its operations: a commit number is taken, the command executes, and its transaction is committing. -/
def committing (c : Cmd) (txn : Nat) (s : State) : State :=
  let u := occupy c { s with mgt.nextCommit := s.mgt.nextCommit + 1 }
  if (mget u.mgt.txns txn).isSome then { u with mgt.txns := mmod u.mgt.txns txn {} (fun t => { t with state := 2 }) } else u

/-- The commit of a command. -/
def commitOf (opcode : Nat) (c : Cmd) (txn : Nat) (ops : List Staged) (s : State) : Commit :=
  { id := s.mgt.nextCommit, cmd := some c, opcode := opcode, txn := txn, origin := originOf c.path, ops := ops }

/-- All that neither the mailbox, the journal, the collector, the pair nor the monitors hold is the same: device memory, ports, pipelines, tables, buffers, queues, fabric, cores, host rings, counters, HBM, boot, power and time. -/
def sameDevice (s t : State) : Prop :=
  t.mem = s.mem ∧ t.ports = s.ports ∧ t.groups = s.groups ∧ t.staging = s.staging ∧ t.bank = s.bank ∧ t.bankOld = s.bankOld ∧
  t.buckets = s.buckets ∧ t.mirrors = s.mirrors ∧ t.samplers = s.samplers ∧ t.tables = s.tables ∧ t.ruleGroups = s.ruleGroups ∧
  t.sets = s.sets ∧ t.pkts = s.pkts ∧ t.dc0 = s.dc0 ∧ t.buf = s.buf ∧ t.sched = s.sched ∧ t.fabric = s.fabric ∧
  t.tahr = s.tahr ∧ t.host = s.host ∧ t.counters = s.counters ∧ t.dumps = s.dumps ∧ t.hbm = s.hbm ∧ t.pchans = s.pchans ∧
  t.boot = s.boot ∧ t.power = s.power ∧ t.time = s.time

/-! ### Threads and register sets -/

/-- The thread issues an instruction in its own slot, which is the next of its core and passes now, and no trigger stops it first (R338-R340, R357). -/
def issues (s : State) (t : Nat) : Bool :=
  canIssue s t && passesNow s (nextCycle s (threadCore t)) && ownSlot s t (nextCycle s (threadCore t)) && (triggerAction s t 2 (threadOf s t).pc).isNone

/-- The register set takes a command now: the device runs, Stag is not held, and the set is not busy (R170). -/
def setTakes (n : Nat) (s : State) : Bool := running s && !s.faults.stagHeld && !(setOf s n).busy

/-- A register set when TBL_CMD is written: the writable fields of the value. -/
def setWritten (n value : Nat) (s : State) : CmdSet :=
  { setOf s n with cmd := value % 2 ^ 29 &&& 0x1FFF001F, key := fit 80 (setOf s n).key, data := fit 64 (setOf s n).data }

end Sys2Proof
end

