-- ==== Sys2Proof/Certificates/Slice0/Obligations.lean ====
section
/-! DEFINITION. The statements about the block, for the provers. Every clause about a row names the row's conditions on the state and the operands and the next state that `exec` answers: the queue as it was, the output pins at the levels of the new state (`settled`). -/

section BlockStatements

open Sys2Proof Sys2Proof.Machine

/-! ### The queue, the step and the output pins -/

/-- A step takes the command at the front of the queue and runs it over the rest. -/
def Obligations.StepRunsTheFrontCommand : Prop :=
  ∀ (c : Instr) (rest : List Instr) (s : State),
    step { s with pending := c :: rest } = exec c { s with pending := rest }

/-- On an empty queue the block idles through one tick of CK_TIME (the model's choice, log entry 3). While no boot, restart or activation is under way, device memory, the tables, the ports and the journal stay, and out of reset with its reference clock UPTIME advances by one. A step of the boot that is due, and whose domains have powered up, is done in the tick, the end of a firmware restart too. From 1 ms into a warm reset on every domain but PD_AON, PD_STAG and PD_FHBM is off and no PCIe link is up. A tick that finds the last comparison of the collector's halves 10 µs old takes the block to the safe state. -/
def Obligations.EmptyQueueTicks : Prop :=
  (∀ s : State, s.pending = [] → s.boot.stage = 0 → s.boot.activating = none → ∃ t : State, step s = .next t ∧ t.pending = [] ∧
    t.mem = s.mem ∧ t.tables = s.tables ∧ t.ports = s.ports ∧ t.journal = s.journal ∧
    (running s = true → s.power.refclkLost = false → t.time.uptime = s.time.uptime + 1)) ∧
  (∀ (a : Nat) (s u : State), u = clockTick s → u.faults.comparedAt = some a → running u = true → u.faults.collectorOk = true →
    (a + 10000 ≤ u.time.uptime → collectorTick u = fatal 31 (resId 0x18 0) [] u) ∧ (u.time.uptime < a + 10000 → collectorTick u = u)) ∧
  (∀ (n : Nat) (b : BootInput) (s u : State), s.pending = [] → u = warmTick (powerTick (collectorTick (clockTick s))) → u.boot.stage = n → n ≠ 0 → u.boot.input = some b →
    running u = true → u.faults.stagHeld = false → u.boot.stageAt ≤ u.time.uptime → (∀ d ∈ stageDomains n, d ∉ u.power.bringUp) →
    (n ≠ 11 → step s = .next (settled s (activationTick (runStage n b u)))) ∧
    (n = 11 → step s = .next (settled s (activationTick (restartEnds u))))) ∧
  (∀ (s u : State), s.pending = [] → u = clockTick s → u.power.warm = true → u.power.warmAt + 1000000 ≤ u.time.uptime → ∃ t : State, step s = .next t ∧
    t.host.linkUp = [] ∧ t.power.warm = true ∧ ∀ d, [0, 1, 12].contains d = false → (domainOf t d).on = false)

/-- Every command answers a next state, whatever the state, and takes nothing from and adds nothing to the queue behind it; only a supply sample beyond the ratings of R498 stops the block. -/
def Obligations.EveryCommandAnswers : Prop :=
  (∀ (c : Instr) (s : State), withinRatings c = true → ∃ t : State, exec c s = .next t ∧ t.pending = s.pending) ∧
  (∀ (mv : Nat) (s : State), 14500 < mv → exec (.supplySample mv) s = .fault .beyondRatings)

/-- A run never stops: with every waiting command within the ratings, any number of steps answers, because each step leaves a queue within the ratings. -/
def Obligations.NoRunStops : Prop :=
  (∀ s : State, s.pending.all withinRatings = true →
    ∃ t : State, step s = .next t ∧ t.pending.all withinRatings = true ∧ t.pending = s.pending.tail) ∧
  (∀ (n : Nat) (s : State), s.pending.all withinRatings = true → safeFor n s = true)

/-- The output pins follow the state: FAULT_N is low in the safe state and while a power-on reset holds the device, and only then; SMB_ALERT_N is low from a fault record to the alert response; PPS_OUT, PAIR_BEAT_OUT and PAIR_ACT_OUT are where their units drive them. Every step keeps this. -/
def Obligations.PinsFollowTheState : Prop :=
  ∀ s t : State, s.pins = pinLevels s → step s = .next t →
    t.pins = pinLevels t ∧
    (t.pins.faultN = false ↔ (t.faults.safe = true ∨ t.power.porst = true ∨ t.power.brownout = true)) ∧
    (t.pins.smbAlertN = false ↔ t.faults.alert = true) ∧
    (t.pins.ppsOut = true ↔ t.time.ppsHigh = true) ∧
    (t.pins.pairBeatOut = true ↔ t.pair.beatOut = true) ∧
    (t.pins.pairActOut = true ↔ t.pair.actOut = true)

/-- What reset leaves (R3, R36, R64, R267, R312, R445): PORST_N holds the device, fabric-less mode, no safe state, current tag 0, ring 0 running with 16 resident entries, pair role 0, no table and no port UP; the pins at the levels of that state, FAULT_N low among them, memory in canonical form, and nothing waiting. -/
def Obligations.ResetLeavesTheBlockIdle : Prop :=
  State.reset.power.porst = true ∧ State.reset.fabric.connected = false ∧ State.reset.faults.safe = false ∧
  State.reset.mgt.curTag = 0 ∧ (mbRing State.reset 0).state = 1 ∧ (mbRing State.reset 0).size = 16 ∧
  (mbRing State.reset 0).resident = true ∧ State.reset.pair.role = 0 ∧ State.reset.out = [] ∧
  (∀ p, (portOf State.reset p).link = 0) ∧ (∀ k, tableOf State.reset k = none) ∧
  State.reset.pins = pinLevels State.reset ∧ State.reset.pins.faultN = false ∧
  Memory.wf State.reset.mem = true ∧ State.reset.pending = []

/-- VOQ and egress bindings after every reset, power-on and warm. -/
def Obligations.ResetBindsEachPortToItsQueues : Prop :=
  ∀ s : State, ∀ t ∈ [State.reset, porReset s, warmState s],
    (∀ p < 192, (voqBindOf t (p % 8 * 16384 + p / 8)).kind = 1 ∧ (voqBindOf t (p % 8 * 16384 + p / 8)).target = p ∧
      (voqBindOf t (p % 8 * 16384 + p / 8)).device = 0 ∧ (voqBindOf t (p % 8 * 16384 + p / 8)).mapped = true) ∧
    (∀ p < 192, (eqBindOf t p).kind = 1 ∧ (eqBindOf t p).target = p ∧ (eqBindOf t p).mapped = true) ∧
    (∀ g < 131072, (∀ p < 192, g ≠ p % 8 * 16384 + p / 8) → (voqBindOf t g).kind = 0) ∧
    (∀ e, 192 ≤ e → e < 16384 → (eqBindOf t e).kind = 0)

/-! ### Mailbox commands -/

/-- A row of kind R that is accepted and whose operation finds what it reads completes with SUCCESS and its result, writes no record, and leaves the state as it was; only DEBUG_READ, whose register read has effects of its own, may leave another. One that meets an uncorrectable burst of the HBM it reads fails with INTERNAL_ERROR instead, which is reported; whether it meets one that stands there is a free value (log entry 64). -/
def Obligations.ReadCommandsComplete : Prop :=
  ∀ (i : Instr) (op : Nat) (c : Cmd) (sp : CmdSpec) (s : State) (r : Ran),
    readRow i = some (op, c) → specOf op = some sp → accepted op c s = true →
    (∀ u : State, burstNear sp c (dispatched c s) = true → u = (drawBelow 2 (dispatched c s)).2 → sp.run c (occupy c u) = .ok r →
      exec i s = .next (settled s (if (drawBelow 2 (dispatched c s)).1 = 1 then failInternal sp c u
        else complete c op St.success 0 r.result 0 r.s.mgt.generation r.s))) ∧
    (burstNear sp c (dispatched c s) = false → sp.run c (occupy c (dispatched c s)) = .ok r →
      exec i s = .next (settled s (complete c op St.success 0 r.result 0 r.s.mgt.generation r.s)) ∧
      (op ≠ 0x1701 → r.s = occupy c (dispatched c s)))

/-- A row of kind O that is accepted and whose operation succeeds leaves what the operation leaves. One that completes at once is recorded with its payload, RESOURCE, OBJECT and origin and completes with SUCCESS and the record's SEQ; one that changed nothing completes without a record; one that wrote its own record completes with that SEQ; a long one completes in a later step. -/
def Obligations.OperationalCommandsComplete : Prop :=
  ∀ (i : Instr) (op : Nat) (c : Cmd) (sp : CmdSpec) (s : State) (r : Ran),
    operateRow i = some (op, c) → specOf op = some sp → accepted op c s = true → burstNear sp c (dispatched c s) = false →
    sp.run c (occupy c (dispatched c s)) = .ok r →
    (r.log = .auto → ∀ j : Nat × State,
      j = journalCmd { uptime := s.time.uptime, generation := r.s.mgt.generation, object := sp.object c r.result r.s,
                       resource := c.resource, opcode := op, origin := originOf c.path, payload := recordPayload op c } r.s →
      exec i s = .next (settled s (complete c op St.success 0 r.result j.1 j.2.mgt.generation j.2))) ∧
    (r.log = .silent → exec i s = .next (settled s (complete c op St.success 0 r.result 0 r.s.mgt.generation r.s))) ∧
    (∀ seq, r.log = .own seq → exec i s = .next (settled s (complete c op St.success 0 r.result seq r.s.mgt.generation r.s))) ∧
    (r.log = .later → exec i s = .next (settled s r.s))

/-- A row of kind C that names an open transaction of its origin is staged: its operation, with its entry writes and payload bytes, stands at the end of the transaction and nothing else of the configuration changes; it completes with SUCCESS, SEQ 0 and GENERATION 0. -/
def Obligations.ConfigurationCommandsAreStaged : Prop :=
  ∀ (i : Instr) (op : Nat) (c : Cmd) (sp : CmdSpec) (x : Txn) (s : State),
    configRow i = some (op, c) → specOf op = some sp → accepted op c s = true → c.txnId ≠ 0 →
    txnCheck c (dispatched c s) = none → mget (dispatched c s).mgt.txns c.txnId = some x →
    meets (opObjects ⟨op, c⟩ (stagedView x.staged ⟨op, c⟩ (dispatched c s))) (stagedElsewhere c.txnId (dispatched c s)) = false →
    stagingFail sp c (stagedView x.staged ⟨op, c⟩ (dispatched c s)) = none →
    limitOk x ⟨op, c⟩ (dispatched c s) = true →
    exec i s = .next (settled s (complete c op St.success 0 [] 0 0 { dispatched c s with
      mgt.txns := mset (dispatched c s).mgt.txns c.txnId
        { x with staged := x.staged ++ [⟨op, c⟩], writes := x.writes + opWrites ⟨op, c⟩, bytes := x.bytes + c.payloadLen } }))

/-- A row of kind C with TXN_ID 0 is a transaction of its own: where nothing makes it wait, no uncorrectable burst stands where it reads and its operation can be placed, it reaches its commit point at once, or, a TABLE_BULK that writes entries of a table in HBM, is in phase A with those entries written. -/
def Obligations.ConfigurationCommandsCommitAlone : Prop :=
  ∀ (i : Instr) (op : Nat) (c : Cmd) (sp : CmdSpec) (p : PlacedOp) (s : State),
    configRow i = some (op, c) → specOf op = some sp → accepted op c s = true → c.txnId = 0 →
    meets (opObjects ⟨op, c⟩ (dispatched c s)) (stagedElsewhere 0 (dispatched c s)) = false → opBurst ⟨op, c⟩ (committing c 0 (dispatched c s)) = false →
    mustWait [⟨op, c⟩] (dispatched c s) = false →
    placeAll true [⟨op, c⟩] (committing c 0 (dispatched c s)) = .ok p →
    (phased (commitOf op c 0 [⟨op, c⟩] (dispatched c s)) (committing c 0 (dispatched c s)) = false →
      exec i s = .next (settled s (commitPoint (commitOf op c 0 [⟨op, c⟩] (dispatched c s)) p
        (ingressPkts (committing c 0 (dispatched c s))) (committing c 0 (dispatched c s))))) ∧
    (phased (commitOf op c 0 [⟨op, c⟩] (dispatched c s)) (committing c 0 (dispatched c s)) = true →
      exec i s = .next (settled s (beginPhaseA (commitOf op c 0 [⟨op, c⟩] (dispatched c s)) p (committing c 0 (dispatched c s)))))

/-- TXN_COMMIT of an open transaction of its origin, where the journal has room for its records, nothing makes it wait, no uncorrectable burst stands where they read and all staged operations can be placed: it reaches the commit point with them, or, where one of them writes entries of a table in HBM, it is in phase A, those entries written and learning and aging of its tables held back, until COMMIT_RESUME ends that (the model's choice, log entry 83). A commit point advances the generation by one, of a single command and of a transaction alike. -/
def Obligations.TransactionsCommit : Prop :=
  (∀ (op txn : Nat) (c : Cmd) (ops : List Staged) (p : PlacedOp) (behind : List Nat) (s u : State),
    (commitPoint (commitOf op c txn ops u) p behind s).mgt.generation = s.mgt.generation + 1) ∧
  ∀ (c : Cmd) (p : PlacedOp) (ops : List Staged) (s u : State),
    accepted 0x0402 c s = true → txnCheck c (dispatched c s) = none →
    ops = (mgetD (dispatched c s).mgt.txns c.txnId {}).staged → commitRoom ops (dispatched c s) = true →
    mustWait ops (dispatched c s) = false → u = committing c c.txnId (dispatched c s) → ops.any (fun st => opBurst st u) = false →
    placeAll true ops u = .ok p →
    (ops.any (fun st => writesHbm st u) = false →
      exec (.txnCommit c) s = .next (settled s (commitPoint (commitOf 0x0402 c c.txnId ops (dispatched c s)) p (ingressPkts u) u))) ∧
    (ops.any (fun st => writesHbm st u) = true →
      exec (.txnCommit c) s = .next (settled s (beginPhaseA (commitOf 0x0402 c c.txnId ops (dispatched c s)) p u)))

/-- A commit that would advance the epoch while the tag it needs is live, while a bank it writes is in use, or while the second half of an earlier commit's bank switches is to come, and any commit while another is in phase A (the model's choice, log entry 83), waits: nothing is placed, the generation stays, and the commit stands last in the list of those under way. -/
def Obligations.CommitsWaitForTheirEpoch : Prop :=
  ∀ (c : Cmd) (ops : List Staged) (s : State),
    accepted 0x0402 c s = true → txnCheck c (dispatched c s) = none →
    ops = (mgetD (dispatched c s).mgt.txns c.txnId {}).staged → commitRoom ops (dispatched c s) = true → mustWait ops (dispatched c s) = true →
    ∃ t : State, exec (.txnCommit c) s = .next t ∧ t.mgt.generation = s.mgt.generation ∧ t.bank = s.bank ∧
      t.mgt.curTag = s.mgt.curTag ∧ t.tables = s.tables ∧ t.mem = s.mem ∧
      t.mgt.commits = s.mgt.commits ++ [{ commitOf 0x0402 c c.txnId ops (dispatched c s) with waiting := true, waited := epochWait ops (dispatched c s) }]

/-- A command of any row that fails a check of R47 completes with the status of the first check that fails, DENIED alone leaving a record; nothing of the device changes. -/
def Obligations.RefusedCommandsChangeNothing : Prop :=
  ∀ (i : Instr) (op : Nat) (c : Cmd) (f : Fail) (s : State),
    (readRow i = some (op, c) ∨ configRow i = some (op, c) ∨ operateRow i = some (op, c) ∨ (i = .txnCommit c ∧ op = 0x0402)) →
    refusedWith op c f s = true →
    ∃ t : State, exec i s = .next t ∧ t = settled s (refuseChecked c op f (dispatched c s)) ∧ sameDevice s t ∧
      t.mgt.generation = s.mgt.generation

/-- What a completion without a result on a ring of PF0 writes (R41): STATUS to GENERATION but byte 47, then byte 47 with DONE_PHASE equal to POST_PHASE, in the entry's slot of host memory, or of the mailbox page for a resident ring; with its index, opcode, TAG and ORIGIN it stands in the outputs, before the ring's interrupt. The consumer index advances by one, the ring may dispatch its next entry, and other rings stay. A result that cannot be written turns SUCCESS into RESULT_LOST. A completion that needs DMA while PF0 is in D3hot waits on its ring and none of this happens yet. -/
def Obligations.CompletionsAdvanceTheRing : Prop :=
  ∀ (c : Cmd) (n op status detail : Nat) (result : List Byte) (seq gen : Nat) (s : State) (r : MbRing) (bs : List Byte),
    c.path = .pf0 n → n < 4 → (∀ k ∈ [1, 2, 3], (mbRing s k).disabling = none) → r = mbRing s n → r.resetting = false → r.posted ≠ 0 →
    (holdsDone c r result s = true → complete c op status detail result seq gen s =
      settleDisables 3 (modRing n (fun r => { r with executing := true, fetched := none, done := some ⟨c, op, status, detail, result, seq, gen⟩ }) s)) ∧
    (holdsDone c r result s = false → bs = outFields (if status = St.success ∧ result ≠ [] ∧ c.writable = false then St.resultLost else status) detail result.length 0x1000
      (3 * (c.phase % 2)) seq gen →
    ∃ (t : State) (w : List Out), t = complete c op status detail result seq gen s ∧
      t.out = .msix n :: w ++ .completion (.pf0 n) r.consumer op c.tag
        (if status = St.success ∧ result ≠ [] ∧ c.writable = false then St.resultLost else status) detail result seq gen 0x1000 :: s.out ∧
      ((result = [] ∨ c.writable = false) → r.resident = false → t.mgt.page = s.mgt.page ∧
        w = [.dma none (r.base + r.consumer % r.size * 512 + 47) (slice bs 11 1), .dma none (r.base + r.consumer % r.size * 512 + 48) (bs.drop 12),
             .dma none (r.base + r.consumer % r.size * 512 + 36) (bs.take 11)]) ∧
      ((result = [] ∨ c.writable = false) → r.resident = true → w = [] ∧ t.mgt.page =
        Memory.writes (Memory.writes (Memory.writes s.mgt.page (r.consumer % r.size * 512 + 36) (bs.take 11))
          (r.consumer % r.size * 512 + 48) (bs.drop 12)) (r.consumer % r.size * 512 + 47) (slice bs 11 1)) ∧
      (mbRing t n).consumer = (r.consumer + 1) % (2 * r.size) ∧ (mbRing t n).executing = false ∧ (mbRing t n).producer = r.producer ∧
      (∀ k, k ≠ n → mbRing t k = mbRing s k) ∧ sameDevice s t)

/-- In the safe state no command but a read and DEVICE_RESET passes the checks: with every check before it passed the refusal is SAFE_STATE. -/
def Obligations.SafeStateRefusesChanges : Prop :=
  ∀ (i : Instr) (op : Nat) (c : Cmd) (sp : CmdSpec) (s : State),
    s.faults.safe = true → specOf op = some sp →
    ((configRow i = some (op, c) ∨ (operateRow i = some (op, c) ∧ op ≠ 0x0103) ∨ (i = .txnCommit c ∧ op = 0x0402)) →
      checkCmd sp c s ≠ none ∧
      (c.version = 1 → headerRsvd c = none → payloadRsvd sp c s = none → lengthFail sp c s = none → rightsFail sp c s = none →
        fieldsFail sp c s = none → checkCmd sp c s = some (failWith St.safeState))) ∧
    ((configRow i = some (op, c) ∨ operateRow i = some (op, c) ∨ (i = .txnCommit c ∧ op = 0x0402)) → refusedWith op c (failWith St.safeState) s = true →
      exec i s = .next (settled s (refuse c op (failWith St.safeState) (dispatched c s)))) ∧
    ((readRow i = some (op, c) ∨ (operateRow i = some (op, c) ∧ op = 0x0103)) → stateFail sp c s ≠ some (failWith St.safeState))

/-- The serial path holds one command: it is executed when the turn of the serial ring has come, a request that arrives meanwhile is answered with its header and STATUS BUSY and not executed, and a message with a malformed body is dropped and counted. -/
def Obligations.SerialPathHoldsOneCommand : Prop :=
  ∀ (body : List Byte) (s : State), running s = true →
    ((body.length < 66 ∨ beNat (body.take 2) ≠ 0x1F3D) →
      exec (.mctpRequest body) s = .next (settled s { s with mgt.serialDrops := s.mgt.serialDrops + 1 })) ∧
    (66 ≤ body.length → beNat (body.take 2) = 0x1F3D → s.mgt.serialBusy = true →
      exec (.mctpRequest body) s = .next (settled s (emit (.serialBusy (busyHeader (body.drop 2) s)) s))) ∧
    (66 ≤ body.length → beNat (body.take 2) = 0x1F3D → s.mgt.serialBusy = false → ∃ u : State,
      u = modRing 4 (fun r => { r with waits := [s.time.uptime] })
        { s with mgt.serialBusy := true, mgt.serialReq := some (body.drop 2) } ∧ u.mgt.serialBusy = true ∧
      exec (.mctpRequest body) s = .next (settled s (if mailboxReady u && ringTurn 4 u then dispatchOrHold .serial 4 (parseEntry .serial (body.drop 2) none true) u else u)))

/-- Doorbells, fetches and the debug port. A doorbell whose PRODUCER lies ahead of the producer index and no more than 2^k entries ahead of the consumer index advances it (R35). A write with RING_RESET to a halted ring empties it, sets it running and is recorded (R37). The entry of a ring whose turn it is, or that is fetched again, is executed where its POST_PHASE matches; one that does not match is counted as a try, and the 16th try halts the ring with HALT_CAUSE 1 (R33, R34). MBOX_ADDR sets the word address; MBOX_DATA reads or writes the word there, the write of word 0x0FFF posting the entry, and adds one to the address (R62). Nothing else of the device changes on the debug port. -/
def Obligations.MailboxEventsTakeEffect : Prop :=
  (∀ (p : Path) (k v : Nat) (s : State) (r : MbRing), running s = true → ringKey p = some k → k ≠ 4 → k ≠ 6 → pathAsleep p s = false →
    (0x1000 ≤ k → (mgetD s.host.slices (k - 0x1000) {}).state = 1) → r = mbRing s k → r.state = 1 →
    v < 2 ^ 13 → v < 2 * r.size → v ≠ r.producer →
    r.posted < (v + 2 * r.size - r.consumer % (2 * r.size)) % (2 * r.size) →
    (v + 2 * r.size - r.consumer % (2 * r.size)) % (2 * r.size) ≤ r.size →
    exec (.mbDoorbell p v) s = .next (settled s (modRing k (fun r' => { r' with
      producer := v, waits := r'.waits ++ List.replicate ((v + 2 * r.size - r.consumer % (2 * r.size)) % (2 * r.size) - r'.posted) s.time.uptime }) s))) ∧
  (∀ (p : Path) (k v : Nat) (s u : State), running s = true → ringKey p = some k → k ≠ 4 → k ≠ 6 → pathAsleep p s = false →
    (0x1000 ≤ k → (mgetD s.host.slices (k - 0x1000) {}).state = 1) → (mbRing s k).state = 2 → v < 2 ^ 13 →
    u = modRing k (fun r => { r with state := 1, producer := 0, consumer := 0, waits := [], haltCause := 0, tries := 0, fetched := none }) s →
    exec (.mbRingReset p v) s = .next (settled s (journalCmd {
      uptime := s.time.uptime, generation := s.mgt.generation, object := k, opcode := 0x0200, origin := originOf p } u).2)) ∧
  (∀ (p : Path) (k : Nat) (e : List Byte) (f : Fetched) (q : Nat × Cmd) (s : State), ringKey p = some k → k ≠ 4 → k ≠ 6 →
    mailboxReady s = true → hasWork s k = true → (mbRing s k).fetched = none →
    (if (mbRing s k).resident then some (pageEntry s) else f.entry) = some e → q = parseEntry p e f.buffer f.writable →
    ∀ i ∈ [Instr.mailboxFetch p f, Instr.mbFetchRetry p f],
      (i = .mailboxFetch p f → ringTurn k s = true) → (i = .mbFetchRetry p f → (mbRing s k).tries ≠ 0) →
      (phaseMatches (mbRing s k) (u8 e 47) = true → unreadable q.2 = none → mustHold q.1 q.2 s = false →
        exec i s = .next (settled s (dispatch q.1 q.2 (modRing k (fun r => { r with tries := 0, fetched := none }) (noteDispatch p s))))) ∧
      (phaseMatches (mbRing s k) (u8 e 47) = false → (mbRing s k).tries < 15 →
        exec i s = .next (settled s (modRing k (fun r => { r with tries := r.tries + 1 }) s))) ∧
      (phaseMatches (mbRing s k) (u8 e 47) = false → 15 ≤ (mbRing s k).tries →
        exec i s = .next (settled s (modRing k (fun r => { r with state := 2, haltCause := 1, tries := 0, fetched := none }) s)))) ∧
  (∀ (v : Nat) (s : State), running s = true → exec (.mboxAddr v) s = .next (settled s { s with mgt.dbgAddr := v % 2 ^ 16 })) ∧
  (∀ s : State, running s = true → exec .mboxDataCapture s = .next (settled s (emit (.data (dbgRead s s.mgt.dbgAddr)) { s with
      mgt.dbgShift := dbgRead s s.mgt.dbgAddr, mgt.dbgAddr := (s.mgt.dbgAddr + 1) % 2 ^ 16,
      mgt.dbgState := if s.mgt.dbgAddr = 0 ∧ s.mgt.dbgState = 2 ∧ s.boot.restarting = false then 0 else s.mgt.dbgState }))) ∧
  (∀ (v : Nat) (s : State), running s = true →
    (s.mgt.dbgAddr < 136 → exec (.mboxDataUpdate v) s = .next (settled s { s with
      mgt.dbgWords := mput s.mgt.dbgWords s.mgt.dbgAddr (v % 2 ^ 64), mgt.dbgAddr := s.mgt.dbgAddr + 1 })) ∧
    (s.mgt.dbgAddr = 0xFFF → s.mgt.dbgState ≠ 1 → s.mgt.dbgPost = false → exec (.mboxDataUpdate v) s = .next (settled s { s with
      mgt.dbgPost := true, mgt.dbgAddr := 0x1000, mgt.dbgState := if s.boot.restarting then s.mgt.dbgState else 1 })) ∧
    (136 ≤ s.mgt.dbgAddr → s.mgt.dbgAddr ≠ 0xFFF → exec (.mboxDataUpdate v) s = .next (settled s { s with
      mgt.dbgAddr := (s.mgt.dbgAddr + 1) % 2 ^ 16 })))

/-! ### Transactions, epochs and the journal -/

/-- A transaction without a command for 60 s is aborted. A waiting commit resumes when nothing makes it wait, or when its standby is gone, and phase A of a commit that writes HBM ends at the commit point, with the operations that its placement pass found room for, where no unit it needs is fenced. A bank retires when no packet of its epoch is left; a tag drains when nothing holds it, and what it refers to goes. Phase B applies what waited for the packets under way. A tombstone goes when its time has come, alone but for others of its kind, table and index that are due. An acknowledgement completes a commit that waits for it. -/
def Obligations.TransactionEventsTakeEffect : Prop :=
  (∀ (t : Nat) (x : Txn) (s : State), mget s.mgt.txns t = some x → mailboxReady s = true → x.state = 1 →
    x.last + 60000000000 ≤ s.time.uptime → exec (.txnIdleTimeout t) s = .next (settled s (fwAbort t s))) ∧
  (∀ (id : Nat) (k : Commit) (s : State), s.mgt.commits.find? (fun k => k.id == id) = some k → mailboxReady s = true →
    (k.ackSeq = none → k.writing = false → k.waiting = true → mustWait k.ops s = false →
      exec (.commitResume id) s = .next (settled s (peerSettle (runCommit k s)))) ∧
    (k.ackSeq = none → k.writing = true → ∀ (u : State) (p : PlacedOp), u = restoreEntries k s → fencedIndex k.ops u = none →
      placeAll false k.ops u = .ok p →
      exec (.commitResume id) s = .next (settled s (peerSettle (commitPoint { k with writing := false, before := [] } p (ingressPkts u) u)))) ∧
    (∀ seq, k.ackSeq = some seq → (s.pair.link = 0 ∨ s.pair.peerRole ≠ 3 ∨ s.pair.role ≠ 4) →
      exec (.commitResume id) s = .next (settled s (peerSettle (answerCommit { k with recs := [] } seq
        { s with mgt.commits := s.mgt.commits.filter (fun x => x.id != id) }))))) ∧
  (∀ s : State, running s = true → s.pkts.any (fun p => !p.2.egress && !p.2.ready && p.2.bank != 0) = false →
    exec (.epochRetire false) s = .next (settled s { s with mgt.ingressRetired := true })) ∧
  (∀ s : State, running s = true → s.pkts.any (fun p => p.2.egress && !p.2.ready && p.2.bank != 0 && !s.dc1.contains (.packet p.1)) = false →
    exec (.epochRetire true) s = .next (settled s { s with mgt.egressRetired := true })) ∧
  (∀ (tag : Nat) (s : State), running s = true → tag ≠ s.mgt.curTag → tag ∈ s.mgt.live → tagHeld tag s = false →
    exec (.epochDrain tag) s = .next (settled s { s with
      mgt.live := s.mgt.live.filter (· != tag), mgt.liveRefs := mdel s.mgt.liveRefs tag })) ∧
  (∀ (id : Nat) (k : Commit) (s : State), s.mgt.commits.find? (fun k => k.id == id) = some k → mailboxReady s = true → k.waiting = false →
    k.writing = false → k.ackSeq = none → k.behind.any (ingressPkts s).contains = false →
    exec (.phaseB id) s = .next (settled s (peerSettle (finishCommit k (k.deferred.foldl (fun s d => applyDeferred d s) s))))) ∧
  (∀ (kind table index : Nat) (b : Tomb) (s : State), running s = true → b ∈ s.mgt.tombs → b.kind = kind → b.table = table → b.index = index →
    b.at_ + b.limit ≤ s.time.uptime → ∃ t : State, exec (.tombstoneExpiry kind table index) s = .next t ∧ b ∉ t.mgt.tombs ∧
      (∀ d ∈ s.mgt.tombs, (d.kind ≠ kind ∨ d.table ≠ table ∨ d.index ≠ index) → d ∈ t.mgt.tombs) ∧ t.mem = s.mem ∧ t.ports = s.ports) ∧
  (∀ (seq : Nat) (s : State), running s = true → s.pair.link ≠ 0 → s.pair.role = 4 →
    (s.mgt.commits.all (fun k => k.ackSeq.isNone) = true →
      exec (.commitAck seq) s = .next (settled s { pairTaken 3 s with pair.ackedSeq := max s.pair.ackedSeq seq })) ∧
    (∀ k q, s.mgt.commits = [k] → k.ackSeq = some q → q ≤ seq →
      exec (.commitAck seq) s = .next (settled s (answerCommit { k with recs := [] } q
        { pairTaken 3 s with pair.ackedSeq := max s.pair.ackedSeq seq, mgt.commits := [] }))))

/-- A batch that has been open for 1 ms is no longer open, and its record is written from the first change's UPTIME on; a checkpoint is written after 1,048,576 records or 10 s; the signature of a checkpoint is stored, where the payload area has room, and its record follows; the oldest waiting change of a link or group is recorded with the UPTIME at which it happened. Each answers a next state. -/
def Obligations.JournalEventsTakeEffect : Prop :=
  (∀ (t i r : Nat) (b : Batch) (s : State),
    s.journal.batches.find? (fun b => b.table == t && b.inst == i && b.resource == r) = some b →
    b.first + 1000000 ≤ s.time.uptime → exec (.batchClose t i r) s = .next (settled s (closeBatch b s))) ∧
  (∀ s : State, mailboxReady s = true → (1048576 ≤ s.journal.ckptRecs ∨ s.journal.ckptAt + 10000000000 ≤ s.time.uptime) →
    exec .checkpoint s = .next (settled s (journalCheckpointRec 0 0x5000 s).2)) ∧
  (∀ (seq : Nat) (c : Nat × List Byte) (s : State), s.journal.sigPending.find? (fun p => p.1 == seq) = some c → mailboxReady s = true →
    s.journal.sram = false → payloadBytes s.journal + 17088 ≤ payloadArea s.journal →
    ∀ u : State, u = { s with journal.sigPending := s.journal.sigPending.filter (fun p => p.1 != seq) } →
      exec (.signature seq) s = .next (settled s (appendRec 4 false (leBytes 8 s.time.uptime ++ leBytes 8 seq ++
        leBytes 8 (storePayload (attestSign u (c.2 ++ identityDigest u)) u).1 ++ leBytes 4 17088 ++
        leBytes 4 (bootNo s) ++ zeros 6 ++ leBytes 1 4 ++ zeros 1) (storePayload (attestSign u (c.2 ++ identityDigest u)) u).2))) ∧
  (∀ (at_ object : Nat) (rest : List (Nat × Nat)) (s : State), s.journal.linkPending = (at_, object) :: rest → mailboxReady s = true →
    exec .linkStateRecord s = .next (settled s (journalCmd
      { uptime := at_, generation := s.mgt.generation, object := object, opcode := 0x0600, resource := 0, origin := 0x5000 }
      { s with journal.linkPending := rest }).2))

/-- The journal is one chain: a record appended while there is room stands last, carries the head as its SEQ, and its CHAIN is the SHA-256 digest of the chain before it and its own bytes; the head advances by one and no earlier record changes. A record that finds no room takes the block to the safe state with cause JOURNAL_EXHAUSTED, and FAULT_N falls. -/
def Obligations.JournalRecordsChain : Prop :=
  (∀ (typ : Nat) (rep : Bool) (body : List Byte) (s : State), journalFree s.journal = 0 → s.faults.safe = false →
    (appendRec typ rep body s).faults.safe = true ∧ (appendRec typ rep body s).faults.causeSource = 30 ∧
    (appendRec typ rep body s).journal = s.journal ∧ (pinLevels (appendRec typ rep body s)).faultN = false) ∧
  ∀ (typ : Nat) (rep : Bool) (body : List Byte) (s : State), journalFree s.journal ≠ 0 →
    ∃ r : JRec, r.seq = s.journal.head ∧ r.typ = typ ∧ r.body = leBytes 8 s.journal.head ++ fit 40 body ∧
      r.chain = leNat ((sha256 (leBytes 16 s.journal.chain ++ r.body)).take 16) ∧
      (appendRec typ rep body s).journal.recs = s.journal.recs ++ [r] ∧
      (appendRec typ rep body s).journal.head = s.journal.head + 1 ∧
      (appendRec typ rep body s).journal.chain = r.chain ∧ sameDevice s (appendRec typ rep body s) ∧
      (appendRec typ rep body s).mgt = s.mgt

/-! ### Ports -/

/-- A frame arrives at a port that receives, its codewords counted lane by lane. With room for it in the staging buffer, it is dropped and counted by the first test it fails, FEC_DROP, RUNT, OVERSIZE and FCS_ERROR in this order; one that passes them, is no MAC control frame and is let through by 802.1AE stands last in its port's staging buffer with the time of its arrival. -/
def Obligations.FramesAreStagedOrCounted : Prop :=
  ∀ (f : RxFrame) (s v : State), receives s f.port = true → (isFramed (portOf s f.port) = true → f.adapted = true) → f.room = true →
    v = f.fec.foldl (fun s x => fecCount f.port x s) s → pipesFenced v f.port = false →
    (f.fecError = true → exec (.frameReceive f) s = .next (settled s (count 0x01 f.port 3 1 v))) ∧
    (f.fecError = false → f.bytes.length + 4 < 64 → exec (.frameReceive f) s = .next (settled s (count 0x01 f.port 4 1 v))) ∧
    (f.fecError = false → 64 ≤ f.bytes.length + 4 → (portOf s f.port).fwd.maxFrame < f.bytes.length + 4 →
      exec (.frameReceive f) s = .next (settled s (count 0x01 f.port 5 1 v))) ∧
    (f.fecError = false → 64 ≤ f.bytes.length + 4 → f.bytes.length + 4 ≤ (portOf s f.port).fwd.maxFrame → f.fcsOk = false →
      exec (.frameReceive f) s = .next (settled s (count 0x01 f.port 2 1 v))) ∧
    (f.fecError = false → 64 ≤ f.bytes.length + 4 → f.bytes.length + 4 ≤ (portOf s f.port).fwd.maxFrame → f.fcsOk = true →
      etherType f.bytes ≠ 0x8808 → ∀ (r : RxSec) (u : State), macsecRx f.port f.bytes v = (some r, u) →
      exec (.frameReceive f) s = .next (settled s { u with staging := mmod u.staging f.port [] (fun q => q ++
        [{ bytes := r.frame, rxTime := u.time.ntime, macsec := r.secured, framed := isFramed (portOf s f.port) }]) }))

/-- Pause and priority flow control: a MAC control frame goes to the flow-control rules; a pause of a priority ends at its time, XOFF is repeated before it ends at the peer, a priority that stays paused for STORM_MS becomes a storm and is free again after 1 s. -/
def Obligations.PauseEventsTakeEffect : Prop :=
  (∀ (port : Nat) (bs : List Byte) (s : State), receives s port = true → etherType bs = 0x8808 →
    exec (.pauseFrame port bs) s = .next (settled s (macControl port bs s))) ∧
  (∀ (port prio : Nat) (s : State), prio < 8 → (portOf s port).fwd.flow = 2 → bit (portOf s port).rxPaused prio = true →
    mgetD (portOf s port).pauseEnd prio 0 ≤ s.time.uptime → ∃ t : State, exec (.pauseExpiry port prio) s = .next t ∧
      bit (portOf t port).rxPaused prio = false ∧ (∀ q, q ≠ port → portOf t q = portOf s q) ∧ t.mem = s.mem ∧ t.counters = s.counters) ∧
  (∀ (port prio : Nat) (s : State), prio < 8 → bit (portOf s port).txXoff prio = true →
    mgetD (portOf s port).xoffAt (if (portOf s port).fwd.flow = 1 then 0 else prio) 0 + quantaNs s port 32768 ≤ s.time.uptime →
    exec (.xoffRepeat port prio) s = .next (settled s (sendPause port (if (portOf s port).fwd.flow = 1 then none else some prio) 0xFFFF s))) ∧
  (∀ (port prio at_ : Nat) (s : State), trafficOn s = true → mget (portOf s port).pausedSince prio = some at_ → (portOf s port).fwd.flow = 2 →
    (portOf s port).fwd.stormMs ≠ 0 → (portOf s port).link = 1 → bit (portOf s port).storm prio = false →
    at_ + (portOf s port).fwd.stormMs * 1000000 ≤ s.time.uptime → ∃ t : State, exec (.storm port prio) s = .next t ∧
      (portOf t port).storm = withBit (portOf s port).storm prio true ∧
      t.journal.linkPending = s.journal.linkPending ++ [(s.time.uptime, port)] ∧ t.mem = s.mem ∧ t.counters = s.counters) ∧
  (∀ (port prio at_ : Nat) (s : State), mget (portOf s port).stormSince prio = some at_ → at_ + 1000000000 ≤ s.time.uptime →
    ∃ t : State, exec (.stormEnd port prio) s = .next t ∧ (portOf t port).storm = withBit (portOf s port).storm prio false ∧
      t.journal.linkPending = s.journal.linkPending ++ [(s.time.uptime, port)] ∧ t.mem = s.mem ∧ t.counters = s.counters)

/-- The link state: a failure condition of a port is noted, and takes an UP port to HOLD; when no condition is left the up delay starts; the hold time ends in DOWN; the up delay ends in UP, through DOWN where the hold time is over; a group whose wait to restore is over goes back to its live primary. A defect of a framed port is declared or ended as the event says and its consequent actions follow; the third equal trace identifier in a row is accepted and compared with the expected one. -/
def Obligations.LinkEventsTakeEffect : Prop :=
  (∀ (port : Nat) (c : PortCond) (s : State), running s = true → port < 192 →
    exec (.portFailure port c) s = .next (settled s (portFails port c s))) ∧
  (∀ (port : Nat) (s : State), running s = true → port < 192 → exec (.linkGood port) s = .next (settled s (portGood port s))) ∧
  (∀ (port h : Nat) (s : State), running s = true → (portOf s port).holdSince = some h → (portOf s port).link = 2 →
    h + (portOf s port).fwd.holdUs * 1000 ≤ s.time.uptime →
    exec (.holdTime port) s = .next (settled s (enterLink port 3 4 s))) ∧
  (∀ (port at_ : Nat) (s : State), running s = true → (portOf s port).upSince = some at_ → (portOf s port).good = true →
    at_ + (portOf s port).fwd.upDelayUs * 1000 ≤ s.time.uptime →
    ((portOf s port).link = 3 → exec (.upDelay port) s = .next (settled s (enterLink port 1 4 s))) ∧
    (∀ h, (portOf s port).link = 2 → (portOf s port).holdSince = some h → s.time.uptime < h + (portOf s port).fwd.holdUs * 1000 →
      exec (.upDelay port) s = .next (settled s (enterLink port 1 4 s))) ∧
    (∀ h, (portOf s port).link = 2 → (portOf s port).holdSince = some h → h + (portOf s port).fwd.holdUs * 1000 ≤ s.time.uptime →
      exec (.upDelay port) s = .next (settled s (enterLink port 1 4 (enterLink port 3 4 s))))) ∧
  (∀ (g at_ : Nat) (s : State), running s = true → (mgetD s.groups g {}).wtrEnd = some at_ → at_ ≤ s.time.uptime →
    (mgetD s.groups g {}).active = 1 → memberLive s (mgetD s.groups g {}).primary = true →
    exec (.waitToRestore g) s = .next (settled s (settleWait g (setActive g 0 s)))) ∧
  (∀ (port : Nat) (declared : Bool) (s : State), running s = true → isFramed (portOf s port) = true → (portOf s port).enabled = true →
    exec (.framedDefect port .los declared) s = .next (settled s (settleFramed port (modPort port (fun p => { p with los := declared }) s))) ∧
    exec (.framedDefect port .lof declared) s = .next (settled s (settleFramed port (modPort port (fun p => { p with lof := declared }) s)))) ∧
  (∀ (port : Nat) (f : Framed) (tti : Multiframe) (s : State), running s = true → (portOf s port).framed = some f → isFramed (portOf s port) = true →
    (portOf s port).enabled = true → (portOf s port).los = false → (portOf s port).lof = false →
    (fit 64 tti.trace ≠ (portOf s port).ttiSeen.1 → exec (.ttiMultiframe port tti) s =
      .next (settled s (modPort port (fun p => { p with ttiSeen := (fit 64 tti.trace, 1), bdiRx := tti.bdi }) s))) ∧
    (fit 64 tti.trace = (portOf s port).ttiSeen.1 → (portOf s port).ttiSeen.2 < 2 → exec (.ttiMultiframe port tti) s =
      .next (settled s (modPort port (fun p => { p with ttiSeen := (fit 64 tti.trace, (portOf s port).ttiSeen.2 + 1), bdiRx := tti.bdi }) s))) ∧
    (fit 64 tti.trace = (portOf s port).ttiSeen.1 → 2 ≤ (portOf s port).ttiSeen.2 → exec (.ttiMultiframe port tti) s =
      .next (settled s (settleFramed port (modPort port (fun p => { p with tti := some (fit 64 tti.trace), tim := traceMismatch f (fit 64 tti.trace) })
        (modPort port (fun p => { p with ttiSeen := (fit 64 tti.trace, 3), bdiRx := tti.bdi }) s))))))

/-! ### The packet path -/

/-- A header for which a slot is open, and which no pool holds back at its source, enters a pipeline as a new packet, with its frame, its source, its pipeline and the tag that is current. A visit runs the lookups and actions of the packet's next stage and moves it one stage on, and only moves on a packet with a final drop. A packet that leaves the last ingress stage, none of its source before it, is decided (R207): it crosses the bridge if it has a group or copies, where the bridge has credit, and is gone otherwise. A packet that arrives on the T-die is buffered, a mirror copy goes to its session, an epoch marker goes back in DC1. -/
def Obligations.IngressEventsTakeEffect : Prop :=
  (∀ (source pl : Nat) (a : Arrival) (s u : State), trafficOn s = true → ingressPipeOk s pl = true → admissionHeld s pl = false → slotOpen s source pl = true →
    sourceHolds source pl s = false → takeArrival source pl s = some (a, u) →
    ∃ (t : State) (k : Pkt), exec (.parserEntry source pl) s = .next t ∧ mget t.pkts s.nextPkt = some k ∧ t.nextPkt = s.nextPkt + 1 ∧
      k.frame = a.bytes ∧ k.source = source ∧ k.pipe = pl ∧ k.tag = s.mgt.curTag ∧ k.egress = false ∧ k.ready = false ∧
      t.mem = s.mem ∧ t.tables = s.tables ∧ t.ports = s.ports ∧ t.journal = s.journal) ∧
  (∀ (n : Nat) (k : Pkt) (s : State), mget s.pkts n = some k → trafficOn s = true → pktPipeOk k s = true → k.ready = false →
    k.stage < (if k.egress then 8 else 16) →
    ∀ (e : Pkt), e = entering n k s →
    (isFinal e = true → exec (.stageVisit n) s =
      .next (settled s { dc1Packet n s with pkts := mset (dc1Packet n s).pkts n { e with stage := e.stage + 1 } })) ∧
    (isFinal e = false → ∀ (k' : Pkt) (u : State),
      visitStage (stageOf (pktBank e (dc1Packet n s)) (if e.egress then 16 + e.stage else e.stage)) (pktBank e (dc1Packet n s)) e (dc1Packet n s) = (k', u) →
      exec (.stageVisit n) s = .next (settled s { u with pkts := mset u.pkts n { k' with stage := e.stage + 1 } }))) ∧
  (∀ (n : Nat) (k k' : Pkt) (s u : State), mget s.pkts n = some k → trafficOn s = true → k.egress = false → k.ready = false → 16 ≤ k.stage →
    behindEarlier n k s = false → (bridgeOn s = true → dc0Credit s = true) → decide207 k s = (k', u) →
    ((k'.group.isSome = true ∨ hasCopies k' = true) → exec (.endOfIngress n) s = .next (settled s (sendDc0 n k' u))) ∧
    (k'.group = none → hasCopies k' = false → exec (.endOfIngress n) s = .next (settled s { u with pkts := mdel u.pkts n }))) ∧
  (∀ (m : BridgeMsg) (rest : List BridgeMsg) (s u : State), trafficOn s = true → bridgeOn s = true → s.dc0 = m :: rest →
    u = dc0Take rest s →
    (∀ tag, m = .marker tag → exec .voqEnqueue s = .next (settled s (bridgeBack m u))) ∧
    (∀ n k, m = .packet n → mget s.pkts n = some k → k.mirrorOf = none →
      exec .voqEnqueue s = .next (settled s (bufferPacket k { u with pkts := mdel s.pkts n }))) ∧
    (∀ n k x, m = .packet n → mget s.pkts n = some k → k.mirrorOf = some x →
      exec .voqEnqueue s = .next (settled s (mirrorCopy x k none { u with pkts := mdel s.pkts n }).2)))

/-- The packet buffer and HBM blocks: in a clock of the allocator a reserve below 64 takes one segment of a shared store that holds one, and no buffer, block or counter changes. A queue whose tail holds 4,064 octets of records, or whose tail's first packet has waited 2 µs, packs a block while its pool allows; a block's completed write frees the segments of the records that end in it. While the on-die head is short, refill writes out the complete records of the first block, then the record that continues, once the block it ends in is read, and frees the blocks that nothing stands in. A reclaim sweep frees the orphans; an age scan runs over a queue with packets. -/
def Obligations.BufferEventsTakeEffect : Prop :=
  (∀ s : State, trafficOn s = true → mwf s.buf.reserves = true → ∃ t : State, exec .reserveRefill s = .next t ∧ t.buf.heads = s.buf.heads ∧ t.buf.bodies = s.buf.bodies ∧
      t.buf.blocks = s.buf.blocks ∧ t.counters = s.counters ∧ t.mem = s.mem ∧
      (0 < sharedSegs s → reserveOf s 0 < 64 → reserveOf t 0 = reserveOf s 0 + 1)) ∧
  (∀ (q : QId) (b h : Nat) (rest : List Nat) (s u : State), trafficOn s = true → (queueOf s q).tail = h :: rest → inFencedBank s h = false →
    (4064 ≤ tailOctets s (queueOf s q) ∨ (asRecord s h).enq + 2000 ≤ s.time.uptime) → packingStopped s (qcfgOf s q).pool = false →
    takeBlock s = (some b, u) →
    exec (.packing q) s = .next (settled s (packInto 64 q b 4064
      (modQueue q (fun x => { x with spill := x.spill ++ [b], spillSeq := ((queueOf s q).spillSeq + 1) % 2 ^ 32 })
        (modPool (asRecord u h).pool (fun p => { p with blocks := p.blocks + 1 })
          { u with buf.blocks := mset u.buf.blocks b { queue := q, seq := (queueOf s q).spillSeq, pool := (asRecord u h).pool, writing := true } }))))) ∧
  (∀ (b : Nat) (k : Block) (s : State), trafficOn s = true → mget s.buf.blocks b = some k → k.writing = true →
    exec (.blockWriteComplete b) s = .next (settled s (k.freeing.foldl (fun s h => freePkt h s)
      { s with buf.blocks := mset s.buf.blocks b { k with writing := false, freeing := [] } }))) ∧
  (∀ (q : QId) (b : Nat) (rest : List Nat) (s : State), trafficOn s = true →
    (queueOf s q).spill = b :: rest → (blockOf s b).writing = false →
    headSegs s (queueOf s q) < (poolOf s (qcfgOf s q).pool).refillSeg →
    ((blockOf s b).continues = false → exec (.refill q) s = .next (settled s (freeEmptyFront q (rest.length + 1)
      (modBlock b (fun k => { k with records := [] }) ((blockOf s b).records.foldl (fun s r => refillOne q r s)
        (if (blockOf s b).records.isEmpty then s else readBlock b s)))))) ∧
    (∀ (l : Head) (mids : Nat) (done : List Head) (u : State), (blockOf s b).continues = true → (blockOf s b).records.getLast? = some l →
      done = (blockOf s b).records.dropLast →
      u = modBlock b (fun k => { k with records := [l] }) (done.foldl (fun s r => refillOne q r s) (if done.isEmpty then s else readBlock b s)) →
      (contEnd u rest = none → exec (.refill q) s = .next (settled s u)) ∧
      (contEnd u rest = some mids → exec (.refill q) s = .next (settled s (freeEmptyFront q 1
        ((List.range (mids + 1)).foldl (fun s _ => freeFirstBlock q s) (refillOne q l
          (((if done.isEmpty then [b] else []) ++ rest.take (mids + 1)).foldl (fun s b => readBlock b s) u)))))))) ∧
  (∀ s : State, trafficOn s = true →
    exec .reclaimSweep s = .next (settled s (releaseBlocks ((s.buf.blocks.filter (fun b => b.2.orphan)).map (·.1)) s))) ∧
  (∀ (q : QId) (s : State), trafficOn s = true → qEmpty (queueOf s q) = false →
    exec (.ageScan q) s = .next (settled s (ageScan q s)))

/-- An age scan drops of a queue without spilled packets every packet whose limit ends within 100 µs, and keeps the others in their order. -/
def Obligations.AgeScanKeepsTheYoung : Prop :=
  ∀ (q : QId) (s t : State), trafficOn s = true → qEmpty (queueOf s q) = false → (queueOf s q).spill = [] → (queueOf s q).packed = 0 →
    exec (.ageScan q) s = .next t →
    (∀ h ∈ (queueOf t q).head ++ (queueOf t q).tail, h ∈ (queueOf s q).head ++ (queueOf s q).tail) ∧
    (∀ h ∈ (queueOf t q).head ++ (queueOf t q).tail, s.time.uptime + 100000 ≤ (mgetD s.buf.heads h {}).origin + ageLimit s q)

/-- Dequeue and transmission: what the scheduler of a sector or of an egress target selects leaves its queue, for its VOQ's destination, or for its port, slice or pair; a packet in a fenced bank is dropped and counted. A packet that has passed the last egress stage, its mirror copy sent, is ready, or dropped where it carries a final drop or is longer than MAX_FRAME allows. A ready packet of an enabled port is padded to 60 octets, secured and emitted at its port with its FCS; one of a port disabled meanwhile, or whose transmitter answers a received fault, is counted as flushed (the model's choice, log entry 90). -/
def Obligations.EgressEventsTakeEffect : Prop :=
  (∀ (sector seg : Nat) (q : QId) (path : _) (rest : List Nat) (s u : State), trafficOn s = true → bridgeOn s = true → sector < 8 → isFenced s (resId 0x12 sector) = false →
    selectVoq sector s = (some (q, path), u) → (queueOf u q).head = seg :: rest →
    (destLocal u (voqBindOf u (q.num / 8)) = true ∨ spraySet u ≠ []) →
    exec (.voqDequeue sector) s = .next (settled s (sendFromVoq q.num seg (voqBindOf u (q.num / 8)) (chargePath path (frameLen u seg) u)))) ∧
  (∀ (target seg : Nat) (q : QId) (path : _) (rest : List Nat) (s u v : State), trafficOn s = true → target ≤ 193 → bridgeOn s = true → (target < 193 → dc1Credit s = true) →
    selectEgress target s = (some (q, path), u) → (queueOf u q).head = seg :: rest →
    v = qSettle q (popHead q (monEvent 3 q.num ((chargePath path (frameLen u seg) u).time.uptime -
      (mgetD (chargePath path (frameLen u seg) u).buf.heads seg {}).enq) (chargePath path (frameLen u seg) u))) →
    (inFencedBank v seg = true → exec (.egressDequeue target) s = .next (settled s (bankDrop seg v))) ∧
    (inFencedBank v seg = false → (eqBindOf u (q.num / 8)).kind = 1 →
      exec (.egressDequeue target) s = .next (settled s (toPort (eqBindOf u (q.num / 8)).target q.num seg v))) ∧
    (inFencedBank v seg = false → (eqBindOf u (q.num / 8)).kind = 2 →
      exec (.egressDequeue target) s = .next (settled s (toSlice (eqBindOf u (q.num / 8)).target q.num seg v))) ∧
    (inFencedBank v seg = false → (eqBindOf u (q.num / 8)).kind = 3 →
      exec (.egressDequeue target) s = .next (settled s (toPair (eqBindOf u (q.num / 8)).target q.num seg v)))) ∧
  (∀ (n : Nat) (k : Pkt) (s v : State), mget s.pkts n = some k → trafficOn s = true → k.egress = true → k.ready = false → 8 ≤ k.stage →
    (k.mirror = none ∧ v = s ∨ (bridgeOn s = true → dc0Credit s = true) ∧ (∃ x, k.mirror = some x ∧
      v = { sendDc0 s.nextPkt (egressMirrorPkt x k s) s with nextPkt := s.nextPkt + 1 })) →
    (isFinal k = true → exec (.endOfEgress n) s = .next (settled s (countDrop (12 + k.pipe) (u8 k.meta_ 69) (dropEgress n v)))) ∧
    (isFinal k = false → k.maxFrame < u16 k.meta_ 140 + 4 →
      exec (.endOfEgress n) s = .next (settled s (countDrop (12 + k.pipe) 0x85 (dropEgress n v)))) ∧
    (isFinal k = false → u16 k.meta_ 140 + 4 ≤ k.maxFrame →
      exec (.endOfEgress n) s = .next (settled s { v with pkts := mset v.pkts n { k with ready := true } }))) ∧
  (∀ (n : Nat) (k : Pkt) (s : State), mget s.pkts n = some k → trafficOn s = true → k.egress = true → k.ready = true →
    ((portOf (dropEgress n s) (u16 k.meta_ 128)).enabled = false →
      exec (.transmit n) s = .next (settled s (count 0x02 (u16 k.meta_ 128) 5 1 (dropEgress n s)))) ∧
    ((portOf (dropEgress n s) (u16 k.meta_ 128)).enabled = true → faultAnswer (portOf (dropEgress n s) (u16 k.meta_ 128)) ≠ 3 →
      exec (.transmit n) s = .next (settled s (count 0x02 (u16 k.meta_ 128) 4 1 (dropEgress n s)))) ∧
    (∀ (bytes : List Byte) (secured : Bool) (u : State), (portOf (dropEgress n s) (u16 k.meta_ 128)).enabled = true →
      faultAnswer (portOf (dropEgress n s) (u16 k.meta_ 128)) = 3 →
      macsecTx (u16 k.meta_ 128) (if k.frame.length < 60 then fit 60 k.frame else k.frame) (dropEgress n s) = (some (bytes, secured), u) →
      ∃ t : State, exec (.transmit n) s = .next t ∧ .frame (u16 k.meta_ 128) (withFcs bytes) secured ∈ t.out ∧ t.mem = u.mem ∧ t.tables = u.tables ∧
        t.pkts = u.pkts ∧ t.buf = u.buf ∧ t.sched = u.sched))

/-- Gates and grants: a gate list whose start has come becomes the operational list; the operational entry follows NTIME; a target that may issue grants one to the first requester of the best offset. -/
def Obligations.SchedulingEventsTakeEffect : Prop :=
  (∀ (port : Nat) (l : GateList) (s : State), running s = true → (gateOf s port).admin = some l → l.start ≤ s.time.ntime →
    ∃ t : State, exec (.gateListStart port) s = .next t ∧ (gateOf t port).oper = some l ∧ (gateOf t port).admin = none ∧
      (∀ p, p ≠ port → gateOf t p = gateOf s p) ∧ t.mem = s.mem ∧ t.tables = s.tables) ∧
  (∀ (port : Nat) (s : State), running s = true → (gateOf s port).oper.isSome = true →
    exec (.gateAdvance port) s = .next (settled s (modGate port (gateNow s) s))) ∧
  (∀ (n o best : Nat) (rest : List Nat) (r : Nat × Nat × Nat) (u v : State) (s : State), trafficOn s = true → n < 194 → u = earnCredit n s →
    targetIssues u n = true →
    v = refreshOffsets n (fun o => (targetOf u n).requests.any (fun r => r.2.2 == o)) u →
    (List.range 8).filter (fun o => ((targetOf u n).requests.filter (grantable u n)).any (fun r => r.2.2 == o)) = o :: rest →
    best = rest.foldl (betterOffset v n) o →
    ((targetOf u n).requests.filter (grantable u n)).find? (fun r => r.2.2 == best) = some r →
    exec (.grantIssue n) s = .next (settled s (issueGrant n r v)))

/-! ### Credit, cells and lanes -/

/-- Credit messages from a present device: a new request stands last in the target's list, or is counted as an overflow where the table is full, and its withdrawal takes it out; a grant adds 4,096 octets of credit to its VOQ, and what GSEQ shows lost is answered with LOST; a return, a loss and the grants that the audit writes off are booked as returned; the audited total corrects the returned one by the nearer difference that leaves it at 0 or above (the model's choice, log entry 86). -/
def Obligations.CreditMessagesTakeEffect : Prop :=
  ∀ (m : CreditMsg) (s : State), creditLive m s = true →
    (((targetOf s m.target).requests.contains (m.device, m.voq, m.offset) = false → requestCount s < 262144 →
        exec (.requestOn m) s = .next (settled s (modTarget m.target (fun x => { x with requests := x.requests ++ [(m.device, m.voq, m.offset)] }) s))) ∧
      ((targetOf s m.target).requests.contains (m.device, m.voq, m.offset) = false → 262144 ≤ requestCount s →
        exec (.requestOn m) s = .next (settled s (count 0x0E 0 5 1 s)))) ∧
    exec (.requestOff m) s = .next (settled s
      (modTarget m.target (fun x => { x with requests := x.requests.filter (· != (m.device, m.voq, m.offset)) }) s)) ∧
    (∀ (a : Nat × Nat × Bool) (k : Nat) (u : State), a = mgetD (peerOf s m.device).audit m.target (0, 0, false) →
      k = (bitsOf m.value 28 13 + 2 ^ 16 - a.1) % 2 ^ 16 → k < 2 ^ 15 →
      u = modPeer m.device (fun p => { p with
        audit := mset p.audit m.target ((bitsOf m.value 28 13 + 1) % 2 ^ 16, (a.2.1 + 4096 * k) % 2 ^ 29, true) }) s →
      (k = 0 → exec (.grant m) s = .next (settled s (addGrant m.voq u))) ∧
      (k ≠ 0 → exec (.grant m) s = .next (settled s (addGrant m.voq (sendCredit m.device (creditWord 5 0 m.target 0 (k * 2 ^ 13)) u))))) ∧
    exec (.creditReturn m) s = .next (settled s (book m.target m.device 2 m.value s)) ∧
    exec (.lost m) s = .next (settled s (count 0x10 m.target 3 (bitsOf m.value 28 13)
      (book m.target m.device 2 (4096 * bitsOf m.value 28 13) s))) ∧
    (∀ (next j : Nat) (ahead : List (Nat × Nat)), next = mgetD (targetOf s m.target).gseq m.device 0 →
      ahead = (mgetD (targetOf s m.target).sent m.device []).filter (fun g =>
        decide ((next + 2 ^ 16 - 1 - g.1) % 2 ^ 16 < (next + 2 ^ 16 - bitsOf m.value 28 13) % 2 ^ 16)) →
      j = (ahead.filter (fun g => decide (g.2 + 4000 < s.time.uptime))).length → j ≠ 0 →
      exec (.auditGrant m) s = .next (settled s (count 0x10 m.target 3 j (book m.target m.device 2 (4096 * j)
        (modTarget m.target (fun x => { x with sent := mset x.sent m.device (ahead.filter (fun g => !decide (g.2 + 4000 < s.time.uptime))) }) s))))) ∧
    (∀ (b : Nat × Nat × Nat) (d : Nat), b = mgetD (targetOf s m.target).books m.device (0, 0, 0) →
      d = (m.value % 2 ^ 29 + 2 ^ 29 - b.2.2 % 2 ^ 29) % 2 ^ 29 →
      (d ≠ 0 → (d < 2 ^ 28 ∨ b.2.2 + d < 2 ^ 29) → exec (.auditReturn m) s = .next (settled s (book m.target m.device 2 d s))) ∧
      (2 ^ 28 ≤ d → 2 ^ 29 ≤ b.2.2 + d → exec (.auditReturn m) s = .next (settled s (count 0x10 m.target 2 (2 ^ 64 + d - 2 ^ 29)
        (modTarget m.target (fun x => { x with books := mset x.books m.device (b.1, b.2.1, b.2.2 + d - 2 ^ 29) }) s)))))

/-- The requester's own timers and its cells: the audit of every device with exchanges, the repeated request of a VOQ that still waits, to its own target or its device, and a CREDIT cell of the first eight messages for a device, when eight wait or the oldest has waited 50 ns. A partly filled cell leaves after FILL_NS; one whole cell with an intact header that arrives on an ACTIVE fabric lane is taken; a gap behind which a cell has been held for REORDER_US is declared lost. -/
def Obligations.CreditTimersAndCellsTakeEffect : Prop :=
  (∀ s : State, trafficOn s = true → s.fabric.connected = true → exec .auditSend s = .next (settled s (auditSend s))) ∧
  (∀ (v : Nat) (s : State), trafficOn s = true → v < 1048576 → (queueOf s ⟨false, v⟩).requesting = true → (voqBindOf s (v / 8)).kind ≠ 0 →
    (destLocal s (voqBindOf s (v / 8)) = true → exec (.requestRepeat v) s =
      .next (settled s (addRequest (creditTarget (voqBindOf s (v / 8))) s.fabric.device v (v % 8) s))) ∧
    (destLocal s (voqBindOf s (v / 8)) = false → exec (.requestRepeat v) s =
      .next (settled s (sendCredit (voqBindOf s (v / 8)).device (creditWord 1 v (voqBindOf s (v / 8)).target (v % 8) 0) s)))) ∧
  (∀ (d : Nat) (s : State), trafficOn s = true → s.fabric.connected = true → (peerOf s d).msgs ≠ [] → spraySet s ≠ [] →
    (8 ≤ (peerOf s d).msgs.length ∨ ∃ m, (peerOf s d).msgs.head? = some m ∧ m.2 + 50 ≤ s.time.uptime) →
    exec (.creditCellSend d) s = .next (settled s (sendUnicast d 2 0 none (fit 64 (((peerOf s d).msgs.take 8).map (fun m => beBytes 8 m.1)).flatten)
      (modPeer d (fun p => { p with msgs := p.msgs.drop 8 }) s)))) ∧
  (∀ (d : Nat) (r : PendRec) (s : State), trafficOn s = true → s.fabric.connected = true → (peerOf s d).pend ≠ [] → spraySet s ≠ [] →
    (peerOf s d).pendRecs.head? = some r → r.since + s.fabric.fillNs ≤ s.time.uptime →
    exec (.cellFill d) s = .next (settled s (sendData d (min 256 (peerOf s d).pend.length) s))) ∧
  (∀ (lane crc : Nat) (h : CellHead) (bs : List Byte) (s : State), fabricOn s = true → 192 ≤ lane → lane < 496 → (laneOf s lane).state = 4 →
    readHead bs = some (h, crc) → bs.length = 16 + 16 * (h.paylen + 4) →
    exec (.cellReceive lane bs) s = .next (settled s (takeCell lane h crc (bs.drop 16) s))) ∧
  (∀ (d : Nat) (c : _) (s : State), trafficOn s = true → c ∈ (peerOf s d).held → c.2.at_ + s.fabric.reorderUs * 1000 ≤ s.time.uptime →
    exec (.reorderTimeout d) s = .next (settled s (gapLost d s)))

/-- Presence: a PRESENCE cell of a device is taken as R297 and R298 say, and the device floods its own; a present device not heard for 3 ms, or whose DEVICE_DOWN names its incarnation, is gone; the eight port messages of a PORT_STATUS cell are taken one after the other; the safe state floods DEVICE_DOWN. -/
def Obligations.PresenceEventsTakeEffect : Prop :=
  (∀ (d seq : Nat) (payload : List Byte) (s : State), fabricOn s = true → d < 2048 →
    exec (.presence d seq payload) s = .next (settled s (onPresence d payload s))) ∧
  (∀ s : State, fabricOn s = true → exec .presenceSend s = .next (settled s (floodCell 4 (presencePayload s) s))) ∧
  (∀ (d : Nat) (s : State), fabricOn s = true → (peerOf s d).present = true → (peerOf s d).seen + 3000000 ≤ s.time.uptime →
    exec (.presenceTimeout d) s = .next (settled s (deviceGone d s))) ∧
  (∀ (d seq : Nat) (payload : List Byte) (s : State), fabricOn s = true → d < 2048 →
    exec (.portStatus d seq payload) s = .next (settled s ((List.range 8).foldl (fun s i => portMessage d (slice payload (8 * i) 8) s) s))) ∧
  (∀ (d inc : Nat) (s : State), fabricOn s = true → (peerOf s d).present = true → (peerOf s d).incarnation = inc →
    exec (.deviceDown d inc) s = .next (settled s (deviceGone d s))) ∧
  (∀ s : State, running s = true → s.faults.safe = true → s.fabric.connected = true → exec .deviceDownFlood s = .next (settled s (floodDown s)))

/-- A fabric or pair lane comes up through TRAIN, LOCK and VERIFY: three markers, the last with RECEIVING set, make it ACTIVE; an ACTIVE lane fails with its cause, also at its second marker in a row without RECEIVING, a lane in bring-up for more than 100 ms with the cause it had; a FAILED lane that may be used starts again after RETRY_MS; the pair link takes the width its ACTIVE lanes allow when its bond has retrained, and sends again what was not acknowledged. -/
def Obligations.LaneEventsTakeEffect : Prop :=
  ∀ (l : Nat) (s : State), running s = true →
    ((laneOf s l).state = 1 → exec (.laneTrainingDone l) s = .next (settled s (modLane l (fun x => { x with state := 2, txFrom := s.time.uptime, txMarkers := 0 }) s))) ∧
    ((laneOf s l).state = 2 → exec (.laneLock l) s = .next (settled s (modLane l (fun x => { x with state := 3, markers := 0 }) s))) ∧
    (∀ u : State, u = laneFec l s →
      ((laneOf s l).state = 3 → ∀ d i r, ((laneOf s l).markers < 2 ∨ r = false) →
        exec (.laneMarker l d i r) s = .next (settled s (modLane l (fun x => { x with markers := x.markers + 1 }) u))) ∧
      ((laneOf s l).state = 3 → 2 ≤ (laneOf s l).markers → ∀ d i, exec (.laneMarker l d i true) s = .next (settled s (noteFailed l u
        (laneSettle l (modLane l (fun x => { x with state := 4, since := s.time.uptime, markers := 0, farEnd := 0 }) u))))) ∧
      ((laneOf s l).state = 4 → ∀ d i, exec (.laneMarker l d i true) s = .next (settled s (modLane l (fun x => { x with farEnd := 0 }) u)) ∧
        ((laneOf s l).farEnd = 0 → exec (.laneMarker l d i false) s = .next (settled s (modLane l (fun x => { x with farEnd := 1 }) u))) ∧
        ((laneOf s l).farEnd ≠ 0 → exec (.laneMarker l d i false) s = .next (settled s (noteFailed l u (laneFails l 4 u)))))) ∧
    ((laneOf s l).state = 4 → ∀ cause ∈ [1, 2, 4], exec (.laneFailure l cause) s = .next (settled s (noteFailed l s (laneFails l cause s)))) ∧
    ((laneOf s l).state = 4 → exec (.laneFailure l 3) s = .next (settled s (noteFailed l s (laneFails l 3
      (modLane l (fun x => { x with uncorr := if isPairLane l then 16 else (octetOf s (l / 8)).uncorrLimit }) s))))) ∧
    ((laneOf s l).state = 5 → (laneOf s l).since + laneRetryMs s l * 1000000 ≤ s.time.uptime → laneUsable s l = true →
      exec (.laneRetry l) s = .next (settled s (modLane l (fun x =>
        { x with
          state := if laneTrains s l then 1 else 2, since := s.time.uptime, markers := 0, farEnd := 0, uncorr := 0,
          txFrom := s.time.uptime, txMarkers := 0 }) s))) ∧
    ((laneOf s l).state ∈ [1, 2, 3] → (laneOf s l).since + 100000000 < s.time.uptime →
      exec (.laneBringupTimeout l) s = .next (settled s (noteFailed l s (laneFails l (laneOf s l).cause s)))) ∧
    (s.pair.retrain.isSome = true →
      exec .bondRetrain s = .next (settled s (settleGroups
      (pairResend { s with pair.link := pairWidth s, pair.retrain := none, pair.bond := 0 }))))

/-! ### The pair -/

/-- The pair's heartbeat and its sideband pins. A heartbeat renews the peer's role and state and may change the role, and what was received may then be applied; the member sends its own, the states of its ports with it; its beat toggles; a change of the peer's beat and a level of its ACT are noted, and the fall of ACT makes active a member that has acknowledged a switchover. A peer that neither path hears of is failed, so is one that asks for it; after 10 µs of two ACT outputs the member with PAIR_ID 1 takes role 5; a link that is DOWN while the sideband beats is taken as R323 and R325 say; a peer's dissolution ends the pair. -/
def Obligations.PairSignalsTakeEffect : Prop :=
  (∀ (b : Beat) (s : State), running s = true → s.pair.cfg.enable = true → s.pair.link ≠ 0 →
    exec (.heartbeat b) s = .next (settled s (peerSettle (beatRole b (beatPorts b.ports { newPeer (b.incarnation % 2 ^ 16) s with
      pair.beatAt := some s.time.uptime, pair.peerRole := b.role, pair.peerInc := b.incarnation % 2 ^ 16, pair.peerApplied := b.applied }))))) ∧
  (∀ s : State, running s = true → s.pair.cfg.enable = true → s.pair.link ≠ 0 → exec .heartbeatSend s = .next (settled s
    (pairSend 1 ([s.pair.role, incarnation s, s.journal.head, s.pair.appliedSeq] ++ (List.range 192).map (fun p => (portOf s p).link)) s))) ∧
  (∀ s : State, running s = true → s.pair.cfg.enable = true → s.faults.safe = false → s.boot.restarting = false → (domainOf s 19).on = true →
    exec .pairBeatToggle s = .next (settled s { s with pair.beatOut := !s.pair.beatOut })) ∧
  (∀ (level : Bool) (s : State), level ≠ s.pair.beatIn →
    exec (.pairBeatIn level) s = .next (settled s { s with pair.beatIn := level, pair.sideAt := some s.time.uptime })) ∧
  (∀ s : State, exec (.pairActIn true) s = .next (settled s { s with
    pair.actIn := true, pair.actInSince := if s.pair.actIn then s.pair.actInSince else s.time.uptime })) ∧
  (∀ s : State, (s.pair.role ≠ 3 ∨ s.pair.switching ≠ 2) → exec (.pairActIn false) s = .next (settled s { s with pair.actIn := false })) ∧
  (∀ s : State, running s = true → s.pair.role = 3 → s.pair.switching = 2 → exec (.pairActIn false) s = .next (settled s (becomeActive
    { s with pair.actIn := false, pair.peerRole := 3, pair.syncPoint := some (s.journal.head - 1) }))) ∧
  (∀ s : State, running s = true → s.pair.cfg.enable = true → 2 ≤ s.pair.role → beatLink s = false → beatSide s = false →
    exec .peerFailed s = .next (settled s (peerSettle (peerFailed s)))) ∧
  (∀ s : State, running s = true → s.pair.cfg.enable = true → 2 ≤ s.pair.role → s.pair.link ≠ 0 →
    exec .takeoverRequest s = .next (settled s (peerSettle (peerFailed (pairTaken 3 s))))) ∧
  (∀ s : State, running s = true → s.pair.role = 4 → s.pair.actIn = true → s.pair.actInSince + 10000 ≤ s.time.uptime → s.power.pairId = true →
    exec .splitBrain s = .next (settled s (journalFw 0x0D00 s.pair.peerInc (resId 0x1C 0)
      (fwAbortAll (setRole 5 { s with pair.syncPoint := none, pair.armed := none, pair.switching := 0 }))).2)) ∧
  (∀ s : State, running s = true → s.pair.link = 0 → beatSide s = true →
    (s.pair.role = 4 → exec .pairLinkDown s = .next (settled s (peerSettle
      (peerAway (if s.pair.peerRole = 2 ∨ s.pair.peerRole = 3 then 5 else s.pair.peerRole) s)))) ∧
    (s.pair.role = 3 → s.pair.switching = 2 → exec .pairLinkDown s = .next (settled s (peerSettle (standbyAlone s)))) ∧
    (s.pair.role = 3 → s.pair.switching ≠ 2 → exec .pairLinkDown s = .next (settled s (peerSettle (changeRole 5 5
      { s with pair.received := [], pair.switchHead := none })))) ∧
    (s.pair.role = 2 → exec .pairLinkDown s = .next (settled s (peerSettle (changeRole 5 5
      { s with pair.received := [], pair.snapped := false }))))) ∧
  (∀ s : State, running s = true → s.pair.link ≠ 0 → exec .pairDissolve s = .next (settled s (dissolve s)))

/-- A standby whose peer failed, and that does not see the peer's ACT, takes over: at once where nothing complete is left to apply, ACTIVE, TAKEOVERS one higher, PAIR_ACT_OUT high and one record, the marker, in the journal; while what it received is still being applied it is standby and will take over. One that sees the peer's ACT is ISOLATED. -/
def Obligations.StandbyTakesOver : Prop :=
  ∀ s t : State, running s = true → s.pair.cfg.enable = true → s.pair.role = 3 → beatLink s = false → beatSide s = false →
    exec .peerFailed s = .next t →
    (s.pair.actIn = true → t.pair.role = 5) ∧
    (s.pair.actIn = false → peerBusy s = true → t.pair.role = 3 ∧ t.pair.takingOver = true) ∧
    (s.pair.actIn = false → peerBusy s = false → unitReceived s = false → journalFree s.journal ≠ 0 → t.pair.role = 4 ∧ t.pins.pairActOut = true ∧
      t.pair.takeovers = (s.pair.takeovers + 1) % 2 ^ 16 ∧ t.journal.head = s.journal.head + 1)

/-- Replication. With no commit under way, an active that has no sync point takes the SEQ of its last record as one and sends the snapshot of that instant. A syncing member executes a snapshot's replicated configuration commands as one transaction of the peer. A record in turn joins those received, a commit record is acknowledged, and what is complete is applied. Deltas of pair counters are sent and cleared, and added on the other side to the peer copy, a message that has been received before being acknowledged again and discarded; a redirected frame and a port state of the peer are taken. -/
def Obligations.ReplicationEventsTakeEffect : Prop :=
  (∀ s : State, running s = true → s.pair.role = 4 → (s.pair.peerRole = 2 ∨ s.pair.peerRole = 3) → s.pair.link ≠ 0 → s.pair.syncPoint = none →
    s.mgt.commits = [] →
    exec .syncPoint s = .next (settled s (sendSnapshot { s with pair.syncPoint := some (s.journal.head - 1), pair.peerApplied := s.journal.head - 1 }))) ∧
  (∀ (cmds : List (Nat × Cmd)) (s u : State), mailboxReady s = true → s.faults.safe = false → (s.pair.role = 2 ∨ s.pair.role = 3) → s.pair.link ≠ 0 →
    u = (if s.pair.snapped = true ∨ s.pair.role = 3 ∨ peerBusy s = true then beginSync s.pair.peerInc (pairTaken 4 s) else pairTaken 4 s) →
    exec (.snapshot cmds) s = .next (settled s (applyPeer .snapshot 0x0402
      ((cmds.filter (fun q => match specOf q.1 with | some sp => sp.kind == .c && sp.replicated q.2 | none => false)).map
        (fun q => peerStaged q.1 q.2)) u))) ∧
  (∀ (seq gen op status : Nat) (isCommit : Bool) (c : Cmd) (s u : State), running s = true → s.pair.link ≠ 0 → takes s = true → recordDue seq s = true →
    u = (if isCommit then pairSend 3 [6, seq] (pairTaken 4 s) else pairTaken 4 s) →
    exec (.journalRecord seq gen op status isCommit c) s = .next (settled s
      (peerSettle { u with pair.received := u.pair.received ++ [⟨seq, gen, op, status, isCommit, c⟩] }))) ∧
  (∀ s : State, trafficOn s = true → s.pair.link ≠ 0 → 2 ≤ s.pair.role → deltas s ≠ [] →
    exec .deltaSend s = .next (settled s (pairSend 5 ((deltas s).map (fun d => [d.1, d.2.1, d.2.2.1, d.2.2.2])).flatten
      { s with tables := mmap s.tables (fun _ t => { t with insts := mmap t.insts (fun _ i => { i with
          pairs := mmap i.pairs (fun _ p => { p with deltaPackets := 0, deltaOctets := 0 }) }) }) }))) ∧
  (∀ (n : Nat) (ds : List (Nat × Nat × Nat × Nat)) (s : State), trafficOn s = true → s.pair.link ≠ 0 →
    (n = mgetD s.pair.rxSeq 5 0 → exec (.counterDelta (n, ds)) s = .next (settled s (ds.foldl (fun s d => addDelta d s) (pairTaken 5 s)))) ∧
    (n < mgetD s.pair.rxSeq 5 0 → mgetD s.pair.rxSeq 5 0 < 2 ^ 31 →
      exec (.counterDelta (n, ds)) s = .next (settled s (pairEmit 3 0 [10, 5, n] s)))) ∧
  (∀ (bs : List Byte) (s : State), trafficOn s = true → s.pair.link ≠ 0 →
    exec (.redirectRecord bs) s = .next (settled s (redirectRecord bs s))) ∧
  (∀ (port st change n : Nat) (s : State), running s = true → s.pair.link ≠ 0 → port < 192 →
    n = (change + 256 - mgetD s.pair.changes port 0) % 256 → 1 ≤ n → n ≤ 127 →
    exec (.pairPortMessage port st change) s =
      .next (settled s (applyPairPort port (st % 4) { pairTaken 3 s with pair.changes := mset s.pair.changes port (change % 256) })))

/-- Planned switchover and the pair's common time. At its time, with no commit in progress, the active aborts the open transactions and sends SWITCH with the SEQ of its last record. The standby notes that SEQ and answers once it has applied all before it: at once where nothing received waits and the SEQ is at most the last applied. The active that is answered becomes standby. A follower steps NTIME by an offset above 1,000 ns and slews below. An activation is armed where the standby's own slots meet it, and answered either way; KINDS 0 cancels it. -/
def Obligations.SwitchoverEventsTakeEffect : Prop :=
  (∀ (at_ : Nat) (s : State), running s = true → s.pair.armed = some at_ → s.pair.role = 4 → s.pair.peerRole = 3 → s.pair.link ≠ 0 →
    at_ ≤ s.time.ntime → s.mgt.commits = [] → exec .switchoverStart s = .next (settled s
      (pairSend 3 [4, (fwAbortAll { s with pair.armed := none, pair.switching := 1 }).journal.head - 1]
        (fwAbortAll { s with pair.armed := none, pair.switching := 1 })))) ∧
  (∀ (head : Nat) (s : State), running s = true → s.pair.role = 3 → s.pair.link ≠ 0 →
    exec (.switchMsg head) s = .next (settled s (peerSettle { pairTaken 3 s with pair.switchHead := some head })) ∧
    (s.pair.received = [] → peerBusy s = false → s.pair.takingOver = false → head ≤ s.pair.appliedSeq →
      exec (.switchMsg head) s = .next (settled s (pairSend 3 [5] { pairTaken 3 s with pair.switching := 2, pair.switchHead := none })))) ∧
  (∀ s : State, running s = true → s.pair.role = 4 → s.pair.switching = 1 → s.pair.link ≠ 0 →
    exec .switchoverAck s = .next (settled s (changeRole 3 3 { pairTaken 3 s with
      pair.switching := 0, pair.syncPoint := none, pair.snapped := true, pair.appliedSeq := 0, pair.received := [] }))) ∧
  (∀ (t1 t2 t3 t4 : Nat) (rate off : Int) (steered : Bool) (s : State), running s = true → following s = true →
    off = (((t2 : Int) - t1) - ((t4 : Int) - t3)) / 2 →
    ((1000 < off ∨ off < -1000) → exec (.timeAlign t1 t2 t3 t4 rate steered) s = .next (settled s { pairSend 2 [t1] s with
      time := { s.time with peerOffset := off, steered := s.time.steered || steered,
                            nextStep := addStep s.time 0 off, steps := (s.time.steps + 1) % 2 ^ 16 } })) ∧
    (-1000 ≤ off → off ≤ 1000 → exec (.timeAlign t1 t2 t3 t4 rate steered) s = .next (settled s { pairSend 2 [t1] s with
      time := { s.time with peerOffset := off, steered := s.time.steered || steered, nextRate := some (rate + max (-100000000) (min 100000000 (off * 1000000))) } }))) ∧
  (∀ (kinds at_ : Nat) (expect : List Byte) (s : State), mailboxReady s = true → s.pair.link ≠ 0 → s.faults.safe = false →
    (kinds = 0 → exec (.activationArm kinds at_ expect) s = .next (settled s { s with boot.armed := none })) ∧
    (kinds ≠ 0 → s.pair.role = 3 → activationOk s kinds expect = true → exec (.activationArm kinds at_ expect) s =
      .next (settled s (pairSend 3 [9, 1] { s with
        boot.armed := some { kinds := kinds, at_ := at_, expect := expect, withPeer := true } }))) ∧
    (kinds ≠ 0 → (s.pair.role ≠ 3 ∨ activationOk s kinds expect = false) → exec (.activationArm kinds at_ expect) s =
      .next (settled s (pairSend 3 [9, 0] s))))

/-! ### The host -/

/-- Descriptor rings. A fetch of a ring's next entry, the first by RING_FETCH and each after a wrong phase by FETCH_RETRY, takes an entry with the phase it should have, notes a try where the phase is the other one, and halts the ring with cause 1 at the sixteenth and with cause 2 where the read fails. A doorbell of a running slice whose function is awake moves the index of its ring; a write to ARM arms, a write with bit 63 resets. An armed ring with unreported completions, whose link may be written, sends its message after its coalescing time. -/
def Obligations.RingEventsTakeEffect : Prop :=
  (∀ (sl loc : Nat) (e : Option (List Byte)) (r : Ring) (i : Instr) (s : State), r = dataRing s (dataKey sl loc) → mayFetch s (dataKey sl loc) = true →
    (r.refetches = false ∧ i = Instr.ringFetch sl loc e ∨ r.refetches = true ∧ i = Instr.fetchRetry sl loc e) →
    (∀ bs, e = some bs → u8 bs (r.entrySize - 1) % 2 = 1 - r.nextFetch / r.size % 2 → exec i s = .next (settled s
      (modData (dataKey sl loc) (fun x => { x with
        entries := mset x.entries r.nextFetch (fit x.entrySize bs), tries := mdel x.tries r.nextFetch,
        fetched := if r.nextFetch = x.fetched then (r.nextFetch + 1) % (2 * x.size) else x.fetched }) s))) ∧
    (∀ bs, e = some bs → u8 bs (r.entrySize - 1) % 2 ≠ 1 - r.nextFetch / r.size % 2 → mgetD r.tries r.nextFetch 0 < 15 →
      exec i s = .next (settled s (modData (dataKey sl loc) (fun x => { x with
        tries := mset x.tries r.nextFetch (mgetD x.tries r.nextFetch 0 + 1) }) s))) ∧
    (∀ bs, e = some bs → u8 bs (r.entrySize - 1) % 2 ≠ 1 - r.nextFetch / r.size % 2 → 15 ≤ mgetD r.tries r.nextFetch 0 →
      exec i s = .next (settled s (modData (dataKey sl loc) (fun x => { x with state := 2, haltCause := 1, tries := [] }) s))) ∧
    (e = none → exec i s = .next (settled s (modData (dataKey sl loc) (fun x => { x with state := 2, haltCause := 2, tries := [] }) s)))) ∧
  (∀ (sl loc v : Nat) (s : State), running s = true → (sliceOf s sl).state = 1 → asleep s (pf1Key (sliceOf s sl).link) = false →
    (mget s.host.rings (dataKey sl loc)).isSome = true →
    (bitsOf v 62 17 = 0 → loc < 64 → exec (.submissionDoorbell sl loc v) s = .next (settled s (submitBell (dataKey sl loc) v s))) ∧
    (bitsOf v 62 17 = 0 → 64 ≤ loc → exec (.completionDoorbell sl loc v) s = .next (settled s (consumeBell (dataKey sl loc) v s))) ∧
    (bitsOf (withBit v 16 true) 62 17 = 0 → 64 ≤ loc →
      exec (.arm sl loc v) s = .next (settled s (consumeBell (dataKey sl loc) (withBit v 16 true) s))) ∧
    (bitsOf (withBit v 63 true) 62 17 = 0 → loc < 64 →
      exec (.hostRingReset sl loc v) s = .next (settled s (submitBell (dataKey sl loc) (withBit v 63 true) s)))) ∧
  (∀ (sl loc a : Nat) (r : Ring) (s : State), r = dataRing s (dataKey sl loc) → trafficOn s = true → sliceWrites s sl = true →
    r.armed = true → r.dist r.consumer r.producer ≠ 0 → r.waitFrom = some a → a + r.coalNs ≤ s.time.uptime →
    exec (.coalesceTimeout sl loc) s = .next (settled s (sendMessage (dataKey sl loc) s)))

/-- Frames and jobs. The TX ring whose turn it is has its frame's descriptors dispatched and its data read; a frame with a fault of its own, a fenced pipeline or a failed read ends with status 0x14, 0x70 or 0x90, in the order of the ring's frames, and one of more descriptors than are fetched ahead is passed over. A frame that was read is later injected. The ring whose turn it is has its job accepted by the engine, or ended with such a status, and a job later finishes with what the engine computes, or with the status set for it. A DMA read that fails ends a frame or a job with status 0x90, or halts a ring with cause 2. A quiesce ends when its slice has drained, or by force at its time. -/
def Obligations.FrameAndJobEventsTakeEffect : Prop :=
  (∀ (sl loc k : Nat) (ds : List (List Byte)) (last : Bool) (data : Option (List Byte)) (s u : State), k = dataKey sl loc →
    txDispatchable s k = some (ds, last) → nextTurn s.host.txTurn (s.host.rings.map (·.1)) (fun j => (txDispatchable s j).isSome) = some k →
    u = { s with host.txTurn := k } →
    (last = false ∨ (dataRing s k).passing ≠ none → exec (.txFrameDispatch sl loc data) s = .next (settled s (txPass k ds last u))) ∧
    (last = true → (dataRing s k).passing = none → ∀ f : TxFrame,
      f.len = txLen ds → f.ndesc = ds.length → f.held = ds.length → f.tag = u16 (ds.headD []) 12 →
      f.status = (if txFrameOk ds = false then 0x14 else if isFenced u (resId 0x0C (dataRing u k).pipeline) = true then 0x70 else if data = none then 0x90 else 0) →
      f.bytes = (if f.status = 0 then fit (txLen ds) (data.getD []) else []) →
      exec (.txFrameDispatch sl loc data) s = .next (settled s (txTake k f (dispatchEntries k ds.length u))))) ∧
  (∀ (sl loc : Nat) (s : State), trafficOn s = true → pf1Dma s (sliceOf s sl).link = true → exec (.txFrameComplete sl loc) s =
    .next (settled s (txEnd (dataKey sl loc) (if isFenced s (resId 0x0C (dataRing s (dataKey sl loc)).pipeline) then 0x70 else 0) s))) ∧
  (∀ (e sl loc k : Nat) (src : Option (List Byte)) (d : List Byte) (defs : NMap Nat) (x : Done) (s u : State), 1 ≤ e → e ≤ 3 → k = dataKey sl loc → readyJob s e k = some d →
    drr s e ((s.host.rings.map (·.1)).filter (fun j => (readyJob s e j).isSome))
      (260 * (((s.host.rings.map (·.1)).filter (fun j => (readyJob s e j).isSome)).length + 1)) (mgetD s.host.turn e 0) s.host.deficits = some (k, defs) →
    x = { tag := u16 d 2, ring := k % 128, kind := 3 } →
    u = dispatchEntries k 1 { s with
      host.turn := mput s.host.turn e k, host.deficits := mput defs (deficitKey e k) (mgetD defs (deficitKey e k) 0 - u32 d 16) } →
    (u.faults.fenced.contains (engineUnit e) = true →
      exec (.jobDispatch e sl loc src) s = .next (settled s (finishEntries k 1 { x with status := 0x70 } u))) ∧
    (u.faults.fenced.contains (engineUnit e) = false → jobOk d = false →
      exec (.jobDispatch e sl loc src) s = .next (settled s (finishEntries k 1 { x with status := 0x14 } u))) ∧
    (jobOk d = true → u.faults.fenced.contains (engineUnit e) = false →
      (src = none → exec (.jobDispatch e sl loc src) s = .next (settled s (finishEntries k 1 { x with status := 0x90 } u))) ∧
      (src ≠ none → exec (.jobDispatch e sl loc src) s = .next (settled s (acceptJob e k d src u))))) ∧
  (∀ (e j : Nat) (x : Job) (s : State), trafficOn s = true → j < 2 ^ 32 → mget s.host.jobs (e * 2 ^ 32 + j) = some x →
    pf1Dma s (sliceOf s x.slice).link = true →
    (∀ st, x.preset = some st → exec (.jobComplete e j) s = .next (settled s (finishJob (e * 2 ^ 32 + j) st 0 0 s))) ∧
    (x.preset = none → x.src = none → exec (.jobComplete e j) s = .next (settled s (finishJob (e * 2 ^ 32 + j) 0x90 0 0 s))) ∧
    (∀ bs (r : Nat × State), x.preset = none → x.src = some bs → r = (if u8 x.desc 0 = 2 ∧ u8 x.desc 1 = 2 then draw 8 s else (0, s)) →
      exec (.jobComplete e j) s = .next (settled s (endJob (e * 2 ^ 32 + j) x
        (runJob (mget s.host.sessions (sessKey x.slice (u32 x.desc 4))) (BitVec.ofNat 8 r.1) x.desc bs) r.2)))) ∧
  (∀ (p : Path) (k : Nat) (s : State), running s = true → ringKey p = some k → (mbRing s k).state = 1 → (mbRing s k).resident = false →
    (mbRing s k).posted ≠ 0 → (mbRing s k).executing = false → exec (.dmaReadError (.mailbox p)) s =
      .next (settled s (modRing k (fun r => { r with state := 2, haltCause := 2, tries := 0 }) s))) ∧
  (∀ (sl loc : Nat) (s : State), trafficOn s = true →
    exec (.dmaReadError (.txFrame sl loc)) s = .next (settled s (txEnd (dataKey sl loc) 0x90 s)) ∧
    (mayFetch s (dataKey sl loc) = true → exec (.dmaReadError (.descriptor sl loc)) s =
      .next (settled s (modData (dataKey sl loc) (fun r => { r with state := 2, haltCause := 2, tries := [] }) s)))) ∧
  (∀ (e j : Nat) (x : Job) (s : State), trafficOn s = true → mget s.host.jobs (e * 2 ^ 32 + j % 2 ^ 32) = some x → x.preset = none →
    exec (.dmaReadError (.jobSource e j)) s = .next (settled s (finishJob (e * 2 ^ 32 + j % 2 ^ 32) 0x90 0 0 s))) ∧
  (∀ (sl : Nat) (s : State), running s = true → (sliceOf s sl).quiesce.isSome = true → drained s sl = true →
    exec (.quiesceDrainEnd sl) s = .next (settled s (endQuiesce sl s))) ∧
  (∀ (sl at_ us : Nat) (c : Option Cmd) (f : Bool) (s : State), running s = true → (sliceOf s sl).quiesce = some (c, at_, us, f) →
    at_ + us * 1000 ≤ s.time.uptime →
    exec (.quiesceTimeout sl) s = .next (settled s (settleQuiesce sl (if drained s sl then s else forceSlice sl s))))

/-- PCIe: a function level reset of PF0 resets its rings and one of PF1 the slices of its link, and PF0 with link 0; a hot reset, a loss of the link, PERST_N and a loss of the reference clock reset the slices of the link, and PF0 with link 0, and all but the hot reset take the link down; released PERST_N lets it come up again; a function's power state is kept, and the completions that waited in D3hot are written in D0. -/
def Obligations.PcieEventsTakeEffect : Prop :=
  (∀ s : State, running s = true → exec .pf0Flr s = .next (settled s (resetRecord (pf0Reset s)))) ∧
  (∀ (l : Nat) (s : State), running s = true → linkExists s l = true →
    exec (.pf1Flr l) s = .next (settled s (resetRecord (if l = 0 then pf0Reset (linkSlices l s) else linkSlices l s)))) ∧
  (∀ (l : Nat) (s : State), running s = true → linkExists s l = true → l ∈ s.host.linkUp →
    exec (.hotReset l) s = .next (settled s (linkReset l s)) ∧
    exec (.linkLoss l) s = .next (settled s (dropLink l (linkReset l s)))) ∧
  (∀ (l : Nat) (s : State), running s = true → linkExists s l = true → l ∉ s.host.perst →
    exec (.pciePerst l) s = .next (settled s (dropLink l (linkReset l { s with host.perst := s.host.perst ++ [l] })))) ∧
  (∀ (l : Nat) (s : State), exec (.pciePerstRelease l) s = .next (settled s { s with host.perst := s.host.perst.filter (· != l) })) ∧
  (∀ (l : Nat) (s : State), running s = true → linkExists s l = true → l ∉ s.host.perst → l ∉ s.host.linkUp →
    exec (.pcieLinkUp l) s = .next (settled s { s with host.linkUp := s.host.linkUp ++ [l] })) ∧
  (∀ (l f : Nat) (s : State), (configIds s l f).isSome = true →
    exec (.pciePowerState l f true) s = .next (settled s { s with host.d3hot := s.host.d3hot.filter (· != l * 8 + f) ++ [l * 8 + f] }) ∧
    exec (.pciePowerState l f false) s = .next (settled s (functionWakes l f s))) ∧
  (∀ s : State, running s = true → exec .pcieRefclkLoss s =
    .next (settled s (s.host.linkUp.foldl (fun s l => dropLink l (linkReset l s)) s)))

/-! ### Threads of the packet cores -/

/-- The event and channel instructions of a thread that issues one: the pc moves on by four, rd receives what the instruction answers. WFE takes pending events or waits; a reservation, a write, a commit, a get, a read and a release act on one slot of a channel; the handle that does not match answers the instruction's failure code and changes no slot. -/
def Obligations.EventAndChannelInstructionsRetire : Prop :=
  ∀ (t rd rs1 rs2 imm : Nat) (s u : State), issues s t = true → u = startIssue t (nextCycle s (threadCore t)) s →
    (xreg u t rs1 % 16 = 0 → exec (.wfe t rd rs1) s = .next (settled s (settleResets
      (runIssued t (fun _ => doneX t rd 0 (modThread t (fun x => { x with evpend := x.evpend - 0 }) u)) u)))) ∧
    (∀ p, p = (threadOf u t).evpend &&& (xreg u t rs1 % 16) → p ≠ 0 → exec (.wfe t rd rs1) s = .next (settled s (settleResets
      (runIssued t (fun _ => doneX t rd p (modThread t (fun x => { x with evpend := x.evpend - p }) u)) u)))) ∧
    (xreg u t rs1 % 16 ≠ 0 → (threadOf u t).evpend &&& (xreg u t rs1 % 16) = 0 → exec (.wfe t rd rs1) s = .next (settled s (settleResets
      (runIssued t (fun _ => done t 4 (corePmc t 10 1 (modThread t (fun x => { x with waiting := some (xreg u t rs1 % 16, rd) }) u))) u)))) ∧
    exec (.cyc t rd) s = .next (settled s (runIssued t (fun _ => doneX t rd (cyclesOf u (threadCore t)) u) u)) ∧
    (∀ k i, channelOperand (xreg u t rs1) = some k → (channelOf u k).enable = true → admitsThread (channelOf u k) k t = true →
      reserving (threadOf u t) = false → freeChSlot (channelOf u k) = some i →
      exec (.chRsv t rd rs1) s = .next (settled s (runIssued t (fun _ => doneX t rd (slotHandle k i)
        (modThread t (fun x => { x with resv := some (k, i, false) })
          (modChannel k (fun c => { c with slots := mset c.slots i ⟨1, zeros 64, t, false⟩, order := c.order ++ [i] }) u))) u))) ∧
    (channelOperand (xreg u t rs1) = none → exec (.chRsv t rd rs1) s = .next (settled s
      (runIssued t (fun _ => doneX t rd allOnes (corePmc t 8 1 u)) u))) ∧
    (slotOffset imm = false → exec (.chWr t rs1 rs2 imm) s = .next (settled s (runIssued t (fun _ => illegal u) u)) ∧
      exec (.chRd t rd rs1 imm) s = .next (settled s (runIssued t (fun _ => illegal u) u))) ∧
    (∀ k i, slotOffset imm = true → (threadOf u t).resv = some (k, i, false) → xreg u t rs1 = slotHandle k i →
      exec (.chWr t rs1 rs2 imm) s = .next (settled s (runIssued t (fun _ => done t 4
        (modSlot k i (fun x => { x with data := poke (fit 64 x.data) imm (leBytes 8 (xreg u t rs2)) }) u)) u))) ∧
    (∀ k i, slotOffset imm = true → (threadOf u t).resv = some (k, i, false) → xreg u t rs1 ≠ slotHandle k i →
      exec (.chWr t rs1 rs2 imm) s = .next (settled s (runIssued t (fun _ => done t 4 (setPstat t 1 u)) u))) ∧
    (∀ k i, (threadOf u t).resv = some (k, i, false) → xreg u t rs1 = slotHandle k i →
      exec (.chCmt t rd rs1) s = .next (settled s (runIssued t (fun _ => doneX t rd 0 (corePmc t 9 1 (notifyChannel k
        (modSlot k i (fun x => { x with state := 2 }) (modThread t (fun x => { x with resv := none }) u))))) u))) ∧
    ((threadOf u t).resv = none → exec (.chCmt t rd rs1) s = .next (settled s (runIssued t (fun _ => doneX t rd 2 u) u))) ∧
    (∀ k i rest x, channelOperand (xreg u t rs1) = some k → k / 1024 = threadCluster t → (channelOf (skipVoids k 16 u) k).order = i :: rest →
      mget (channelOf (skipVoids k 16 u) k).slots i = some x → x.state = 2 →
      exec (.chGet t rd rs1) s = .next (settled s (runIssued t (fun _ => doneX t rd (slotHandle k i)
        (modThread t (fun x => { x with taken := x.taken ++ [(k, i)] })
          (modChannel k (fun c => { c with order := c.order.drop 1 }) (modSlot k i (fun x => { x with state := 3, thread := t }) (skipVoids k 16 u))))) u))) ∧
    (∀ k i x, slotOffset imm = true → takenSlot (threadOf u t) (xreg u t rs1) = some (k, i) → mget (channelOf u k).slots i = some x →
      exec (.chRd t rd rs1 imm) s = .next (settled s (runIssued t (fun _ => doneX t rd (u64 x.data imm) u) u))) ∧
    (∀ k i, takenSlot (threadOf u t) (xreg u t rs1) = some (k, i) → exec (.chRel t rd rs1) s = .next (settled s (runIssued t (fun _ =>
      doneX t rd 0 (modThread t (fun x => { x with taken := x.taken.filter (· != (k, i)) }) (clearSlot k i u))) u))) ∧
    (takenSlot (threadOf u t) (xreg u t rs1) = none → exec (.chRel t rd rs1) s = .next (settled s (runIssued t (fun _ => doneX t rd 2 u) u)))

/-- The packet, table and control instructions of a thread that issues one: PLD and PST read and write eight bytes of the packet that the handle names and fail with the first reason there is; PDISP disposes of a packet by the operation of its action word; TBL.GO starts a set of its cluster and waits for it; FENCE.I, TCMP, TSIG and PSTAT act as their registers say. -/
def Obligations.PacketAndControlInstructionsRetire : Prop :=
  ∀ (t rd rs1 rs2 rs3 value : Nat) (s u v : State), issues s t = true → u = startIssue t (nextCycle s (threadCore t)) s → v = corePmc t 7 1 u →
    (handleFails v (threadCluster t) (xreg u t rs1) ≠ none →
      exec (.pld t rd rs1 rs2) s = .next (settled s (runIssued t (fun _ => doneX t rd 0 (setPstat t 1 v)) u)) ∧
      exec (.pst t rd rs1 rs2 rs3) s = .next (settled s (runIssued t (fun _ => doneX t rd 1 v) u))) ∧
    (handleFails v (threadCluster t) (xreg u t rs1) = none → xreg u t rs2 < 16128 → inFencedBank v (xreg u t rs1 % 2 ^ 20) = false →
      exec (.pld t rd rs1 rs2) s = .next (settled s (runIssued t (fun _ => doneX t rd (leNat ((List.range 8).map (fun i =>
        packetByte (mgetD v.buf.heads (xreg u t rs1 % 2 ^ 20) {}) (xreg u t rs2 + i)))) v) u)) ∧
      (pstFails v (mgetD v.buf.heads (xreg u t rs1 % 2 ^ 20) {}) (xreg u t rs2) = none →
        exec (.pst t rd rs1 rs2 rs3) s = .next (settled s (runIssued t (fun _ => doneX t rd 0 (modHead (xreg u t rs1 % 2 ^ 20)
          (fun x => (List.range 8).foldl (fun x i => packetPoke x (xreg u t rs2 + i) ((leBytes 8 (xreg u t rs3)).getD i 0)) { x with thread := some t }) v)) u))) ∧
      (∀ code, pstFails v (mgetD v.buf.heads (xreg u t rs1 % 2 ^ 20) {}) (xreg u t rs2) = some code →
        exec (.pst t rd rs1 rs2 rs3) s = .next (settled s (runIssued t (fun _ => doneX t rd code v) u)))) ∧
    (∀ r, r = dispose t (xreg u t rs1) (xreg u t rs2) v →
      (xreg s t rs2 % 16 = 0 → exec (.pdispRelease t rd rs1 rs2) s = .next (settled s (runIssued t (fun _ => doneX t rd r.1 r.2) u))) ∧
      (xreg s t rs2 % 16 = 1 → exec (.pdispEgress t rd rs1 rs2) s = .next (settled s (runIssued t (fun _ => doneX t rd r.1 r.2) u))) ∧
      (xreg s t rs2 % 16 = 2 → exec (.pdispVoq t rd rs1 rs2) s = .next (settled s (runIssued t (fun _ => doneX t rd r.1 r.2) u))) ∧
      (xreg s t rs2 % 16 = 3 → exec (.pdispReinject t rd rs1 rs2) s = .next (settled s (runIssued t (fun _ => doneX t rd r.1 r.2) u))) ∧
      (xreg s t rs2 % 16 = 4 → exec (.pdispGive t rd rs1 rs2) s = .next (settled s (runIssued t (fun _ => doneX t rd r.1 r.2) u)))) ∧
    (∀ w k, w = corePmc t 14 1 u → k = 8 + 8 * threadCluster t + xreg u t rs1 →
      (7 < xreg u t rs1 → exec (.tblGo t rd rs1 rs2) s = .next (settled s (runIssued t (fun _ => doneX t rd 0x140000 w) u))) ∧
      (xreg u t rs1 ≤ 7 → (setOf w k).busy = false → exec (.tblGo t rd rs1 rs2) s = .next (settled s (runIssued t (fun _ => done t 4
        (modThread t (fun x => { x with blocked := some (k, rd) }) (setCommand k (xreg w t rs2 % 2 ^ 29 + 2 ^ 63) w))) u))) ∧
      (xreg u t rs1 ≤ 7 → (setOf w k).busy = true → exec (.tblGo t rd rs1 rs2) s = .next (settled s (runIssued t (fun _ => doneX t rd allOnes
        (modSet k (fun c => { c with busyWrites := (c.busyWrites + 1) % 256 }) w)) u)))) ∧
    exec (.fenceI t) s = .next (settled s (runIssued t (fun _ => done t 4
      (modCore (threadCore t) (fun c => { c with icache := c.icache.filter (fun l => lockedLine c l.1) }) u)) u)) ∧
    exec (.tcmp t value) s = .next (settled s (runIssued t (fun _ => done t 4 (modThread t (fun x => { x with tcmp := value % 2 ^ 64 }) u)) u)) ∧
    exec (.tsig t value) s = .next (settled s (runIssued t (fun _ => done t 4 (raiseEvent (threadCluster t * 256 + value % 256) evSignal u)) u)) ∧
    exec (.pstatRead t rd) s = .next (settled s (runIssued t (fun _ =>
      doneX t rd (threadOf u t).pstat (modThread t (fun x => { x with pstat := 0 }) u)) u))

/-- RV64IMAC: the instruction at the pc is fetched in halves; four bytes where the two low bits are 11, else two bytes that stand for one of four; an encoding that is not defined raises illegal instruction. -/
def Obligations.BaseInstructionsRun : Prop :=
  ∀ (t lo : Nat) (s u v : State), issues s t = true → u = startIssue t (nextCycle s (threadCore t)) s → fetchHalf t (threadOf u t).pc u = (some lo, v) →
    (∀ hi w, lo % 4 = 3 → fetchHalf t ((threadOf u t).pc + 2) v = (some hi, w) → exec (.rv64imac t) s =
      .next (settled s (settleResets (runIssued t (fun _ => rvExec t (lo + hi * 2 ^ 16) 4 w) u)))) ∧
    (∀ c, lo % 4 ≠ 3 → expandC lo = some c → exec (.rv64imac t) s =
      .next (settled s (settleResets (runIssued t (fun _ => rvExec t c 2 v) u)))) ∧
    (lo % 4 ≠ 3 → expandC lo = none → exec (.rv64imac t) s = .next (settled s (settleResets (runIssued t (fun _ => illegal v) u))))

/-- What issue adds: a metered thread issues in no slot but its own, and an open one takes a spare slot that no thread has a better claim to; an instruction retires, or its exception is taken: mcause, mepc, mtval and mstatus are saved, the thread is in machine mode and goes to mtvec; with mtvec 0, or inside a trap, it is faulted. -/
def Obligations.ExceptionsTrap : Prop :=
  (∀ (t n : Nat) (f : State → Issued) (s : State), n = nextCycle s (threadCore t) → n % 8 ≠ t % 8 → canIssue s t = true →
    ((threadOf s t).metered = true → (n + 1) % 8 ≠ t % 8 → issue t f s = s) ∧
    ((threadOf s t).metered = false → (threadOf s t).busyUntil ≤ n → passesNow s n = true → rivals s t n = [] →
      triggerAction s t 2 (threadOf s t).pc = none → issue t f s = runIssued t f (startIssue t n s))) ∧
  ∀ (t cause tval tv : Nat) (f : State → Issued) (s u : State), f s = (u, some (cause, tval)) → cause < 0x100 → (threadOf u t).inTrap = false →
    tv = mgetD (threadOf u t).csrs 0x305 0 → tv ≠ 0 → ∀ w : State, w = trap t cause tval u → bit (csrOf w t 0x7B0) 2 = false →
    runIssued t f s = w ∧ (threadOf w t).pc = tv / 4 * 4 ∧ (threadOf w t).machine = true ∧ (threadOf w t).inTrap = true ∧
    (threadOf w t).regs = (threadOf u t).regs ∧ (threadOf w t).faulted = (threadOf u t).faulted ∧ w.mem = u.mem

/-- Events of threads and clusters: a timer whose time has come raises TIMER and disarms; a thread whose mask meets an event returns from WFE with it; a reset whose grace ends proceeds; a cluster whose threads all wait without a timer stalls and is reset and reclaimed; a debug access reads or writes; a halted thread that holds a reservation too long loses it. -/
def Obligations.ThreadEventsTakeEffect : Prop :=
  (∀ (t : Nat) (s : State), trafficOn s = true → (threadOf s t).tcmp ≠ 0 → (threadOf s t).tcmp ≤ cyclesOf s (threadCore t) →
    exec (.timer t) s = .next (settled s (raiseEvent t evTimer (modThread t (fun x => { x with tcmp := 0 }) s)))) ∧
  (∀ (t mask rd : Nat) (s : State), trafficOn s = true → (threadOf s t).waiting = some (mask, rd) → (threadOf s t).evpend &&& mask ≠ 0 →
    (threadOf s t).halted = false → (threadOf s t).faulted = false → coreFenced s (threadCore t) = false →
    exec (.wfeReturn t) s = .next (settled s (setX t rd ((threadOf s t).evpend &&& mask) (modThread t (fun x =>
      { x with waiting := none, evpend := x.evpend - ((threadOf s t).evpend &&& mask), runnable := some s.time.uptime }) s)))) ∧
  (∀ (resource : Nat) (r : CoreReset) (s : State), s.tahr.resets.find? (fun r => r.resource == resource) = some r → mailboxReady s = true →
    r.graceUntil ≤ s.time.uptime → exec (.graceExpiry resource) s = .next (settled s (finishCoreReset r s))) ∧
  (∀ (cl : Nat) (s : State), trafficOn s = true → (clusterOf s cl).stalled = false → stalls s cl = true → exec (.stall cl) s =
    .next (settled s (report 16 (resId 0x11 cl) [] (modCluster cl (fun x => { x with stalls := (x.stalls + 1) % 2 ^ 16, stalled := true }) s)))) ∧
  (∀ (cl : Nat) (u s : State), mailboxReady s = true → s.faults.safe = false → (clusterOf s cl).stalled = true →
    u = modCluster cl (fun x => { x with stalled := false }) s →
    exec (.stallRecovery cl) s = .next (settled s (finishCoreReset
      { cmd := none, resource := resId 0x11 cl, cores := liveCores u cl, graceUntil := 0, reclaim := true, cause := 2 }
      (journalFw 0x0E04 0 (resId 0x11 cl) u).2))) ∧
  (∀ (cl addr data : Nat) (s : State), running s = true → cl < 2 → addr < 128 →
    exec (.dmiAccess cl true addr data) s = .next (settled s (settleResets (dmiWrite cl addr (data % 2 ^ 32) s))) ∧
    exec (.dmiAccess cl false addr data) s = .next (settled s (emit (.data (dmiRead cl addr s).1) (dmiRead cl addr s).2))) ∧
  (∀ (t : Nat) (s : State), mailboxReady s = true → (clusterOf s (threadCluster t)).holdTimeout ≠ 0 → (threadOf s t).halted = true →
    reserving (threadOf s t) = true → (threadOf s t).haltSince + (clusterOf s (threadCluster t)).holdTimeout * 1000 ≤ s.time.uptime →
    exec (.holdTimeout t) s = .next (settled s (journalFw 0x1702 t (resId 0x09 (threadCore t)) (voidReservation t s)).2))

/-- A cluster dump that is due writes the 32 core records of the period into its slot of the ring, 4,096 bytes, and no other byte of memory; one that finds its memory lost counts MISSED. -/
def Obligations.ClusterDumpsStayInTheirSlot : Prop :=
  ∀ (cl base : Nat) (x : Cluster) (s : State), trafficOn s = true → cl < 2 → x = clusterOf s cl → x.dumpDest ≠ 0 →
    x.dumpAt + (x.dumpNext + 1) * x.dumpPeriod * 1000 ≤ s.time.uptime → base = dumpRange cl x + x.dumpNext % x.dumpDepth * 4096 →
    ((if x.dumpDest = 1 then isFenced s (resId 0x11 cl) else someLost s base 4096) = true → exec (.tahrDump cl) s =
      .next (settled s (modCluster cl (fun x => { x with dumpNext := x.dumpNext + 1, missed := (x.missed + 1) % 2 ^ 16 }) s))) ∧
    ((if x.dumpDest = 1 then isFenced s (resId 0x11 cl) else someLost s base 4096) = false → ∃ t : State, exec (.tahrDump cl) s = .next t ∧
      t.mem = Memory.writes s.mem base (((List.range 32).map (fun i => coreRecord s x.dumpNext (i + cl * 32))).flatten) ∧
      (∀ a, a < base ∨ base + 4096 ≤ a → Memory.read t.mem a = Memory.read s.mem a) ∧
      (clusterOf t cl).dumpNext = x.dumpNext + 1 ∧ (clusterOf t cl).lastSeq = x.dumpNext % 2 ^ 32 ∧ t.buf = s.buf ∧ t.tables = s.tables)

/-! ### Tables -/

/-- The five operations of a register set: a set that takes a command and need not wait runs it, holds its result and is busy; when its time is over it shows the result, is not busy, and the thread that waits for it goes on. -/
def Obligations.TableSetsRun : Prop :=
  (∀ (n v : Nat) (s : State), setTakes n s = true → ∀ p ∈ [(Instr.tblCmdRead n v, 1), (.tblCmdSearch n v, 2), (.tblCmdInsert n v, 3),
      (.tblCmdUpdate n v, 4), (.tblCmdDelete n v, 5)], ∀ (w : Nat) (c : CmdSet), w = withBits v 2 0 p.2 ||| 2 ^ 63 → c = setWritten n w s →
    c.cmd % 8 = p.2 ∧
    (setWaits n c s = false → exec p.1 s = .next (settled s (modSet n (fun _ =>
      { c with busy := true, waiting := false, result := some (setRun n c s).1 }) (setRun n c s).2))) ∧
    (setWaits n c s = true → exec p.1 s = .next (settled s (modSet n (fun _ => { c with busy := true, waiting := true, result := none }) s)))) ∧
  (∀ (n : Nat) (s : State), running s = true → s.faults.stagHeld = false → (setOf s n).busy = true → ∀ v,
    exec (.tblCmdInsert n v) s = .next (settled s (modSet n (fun c => { c with busyWrites := (c.busyWrites + 1) % 256 }) s))) ∧
  (∀ (n : Nat) (r : _) (s : State), (setOf s n).busy = true → (setOf s n).waiting = false → (setOf s n).result = some r →
    exec (.tblCmdBusyClear n) s = .next (settled s (deliverSet n (modSet n (fun c => { c with
      busy := false, waiting := false, result := none, status := r.status, evicted := r.evicted, found := r.found,
      relocations := r.relocations, handle := r.handle, key := r.key, data := r.data }) s))))

/-- The table engine's own events: the relocation buffer of an instance clears 250 or 1,000 ns after the move; the parts of a prefix table's old tries are freed 2 µs after the write that replaced them; a learn event of a known key sets its HIT, one of a new key inserts it or counts that it could not, and a standby that does not learn only counts it; a sweep starts when its period is over, and each visit passes by a STATIC entry, clears HIT, marks, or removes the entry that stayed without. A table that is out of reach is neither learned into nor swept; one in whose stacks an uncorrectable burst stands is left out here (log entry 64). -/
def Obligations.TableEventsTakeEffect : Prop :=
  (∀ (t i at_ : Nat) (m : _) (x : Table) (s : State), tableOf s t = some x → (instOf x i).rel = some (m, at_) →
    at_ + (if x.memory = 0 then 250 else 1000) ≤ s.time.uptime →
    exec (.relClear t i) s = .next (settled s (modInst t i (fun n => { n with rel := none }) s))) ∧
  (∀ (t : Nat) (x : Table) (s : State), tableOf s t = some x → (x.kind = 1 ∨ x.kind = 2) →
    exec (.trieFree t) s = .next (settled s (modInst t 0 (fun n => { n with trie := trieSweep s.time.uptime n.trie }) s))) ∧
  (∀ (t i : Nat) (x : Table) (key data : List Byte) (rest : List (List Byte × List Byte)) (u s : State), tableOf s t = some x → x.kind = 0 →
    (instOf x i).learnQ = (key, data) :: rest → trafficOn s = true → (instOf x i).held = false → learningPaused s = false →
    (tableDown s x = true → exec (.learnEvent t i) s = .next (settled s s)) ∧ (tableDown s x = false → tableBurst s x = false →
    u = modInst t i (fun n => { n with learnQ := rest }) s →
    (onStandby u = true → u.pair.cfg.standbyLearn = false → exec (.learnEvent t i) s = .next (settled s (count 0x11 0 0 1 u))) ∧
    ((onStandby u = true → u.pair.cfg.standbyLearn = true) → (findEntry x (instOf x i) key).isSome = true →
      exec (.learnEvent t i) s = .next (settled s (modInst t i (onKey key (fun e => { e with hit := true })) u))) ∧
    (∀ y d, (onStandby u = true → u.pair.cfg.standbyLearn = true) → findEntry x (instOf x i) key = none → tableOf u t = some y →
      insertExact t i y key data { replace := false, learned := true } u = .ok d →
      exec (.learnEvent t i) s = .next (settled s (batchInsert t i (instResource y i) y key data d.evicted d.s))) ∧
    (∀ y f, (onStandby u = true → u.pair.cfg.standbyLearn = true) → findEntry x (instOf x i) key = none → tableOf u t = some y →
      insertExact t i y key data { replace := false, learned := true } u = .error f →
      exec (.learnEvent t i) s = .next (settled s (count 0x06 t 0 1 (count 0x06 t 2 1 u)))))) ∧
  (∀ (t i : Nat) (x : Table) (s : State), tableOf s t = some x → x.kind = 0 → x.policy.ageMs ≠ 0 → (instOf x i).sweeping = false →
    (∀ a, (instOf x i).sweepAt = some a → a + x.policy.ageMs * 1000000 ≤ unpausedIn (instOf x i) s) → learningPaused s = false →
    (instOf x i).held = false → trafficOn s = true → onStandby s = false →
    exec (.sweepStart t i) s = .next (settled s (modInst t i (fun n =>
      { n with sweeping := true, sweepPos := 0, sweepAt := some (unpausedIn (instOf x i) s), sweepMs := x.policy.ageMs }) s))) ∧
  (∀ (t i : Nat) (x : Table) (s : State), tableOf s t = some x → x.kind = 0 → (instOf x i).sweeping = true → learningPaused s = false →
    (instOf x i).held = false → trafficOn s = true → onStandby s = false → (tableDown s x = true → exec (.sweepVisit t i) s = .next (settled s s)) ∧
    (tableDown s x = false → tableBurst s x = false →
    (nextPosition x (instOf x i) = none → exec (.sweepVisit t i) s = .next (settled s (modInst t i (fun n =>
      { n with sweeping := false, sweepPos := 0, sweeps := (n.sweeps + 1) % 2 ^ 16 }) s))) ∧
    (∀ p e u, nextPosition x (instOf x i) = some (p, e) → u = modInst t i (fun n => { n with sweepPos := p + 1 }) s →
      (e.static = true → exec (.sweepVisit t i) s = .next (settled s u)) ∧
      (e.static = false → e.hit = true → exec (.sweepVisit t i) s =
        .next (settled s (modInst t i (onKey e.key (fun e => { e with hit := false, clearSeen := false })) u))) ∧
      (e.static = false → e.hit = false → e.clearSeen = false → exec (.sweepVisit t i) s =
        .next (settled s (modInst t i (onKey e.key (fun e => { e with clearSeen := true })) u))) ∧
      (e.static = false → e.hit = false → e.clearSeen = true → exec (.sweepVisit t i) s = .next (settled s
        (batchChange t i (instResource x i) true (batchEntry x e.key [] false) (count 0x06 t 3 1
          (modInst t i (removeKey x e.key u.time.uptime) u))))))))

/-! ### HBM -/

/-- Refresh and training of HBM. A temperature reading sets the refresh step and the maximum, and above 105 °C makes a report. A refresh window of a pseudo-channel, when the one before it is over, takes the threshold that is set and the length of the refresh step and frees its counts, and the first whole window of START-UP and RECOVERY ends that mode; before that it does not start. In service an activation counts its row and at the threshold queues a refresh of its neighbours; in the other modes, for the self-test's in TEST too, one in 256, by a free value, queues it; a bank performs the oldest; a bank with four queued, or with that of the row queued in service, takes no activation. Admission is held within 400 ns before the pause of a pseudo-channel of H0 or H1, at the latest from the pause; a pseudo-channel pauses, and goes on when its microsecond is over, with a report where its training failed. A stack is ready when its initialisation ends. -/
def Obligations.HbmEventsTakeEffect : Prop :=
  (∀ (n : Nat) (t : Int) (s u : State), running s = true → n < 6 → (domainOf s (if n < 2 then 12 else 16)).on = true →
    u = modHbm n (fun x => { x with temp := t, step := refreshStep x.step t, maxTemp := max x.maxTemp t }) s →
    (t ≤ 105 → exec (.hbmTempRead n t) s = .next (settled s u)) ∧
    (105 < t → exec (.hbmTempRead n t) s = .next (settled s (report 22 (resId 0x13 n) [] u)))) ∧
  (∀ (p rh now ns : Nat) (s : State), running s = true → p < 192 → (hbmOf s (p / 32)).ready = true →
    rh = (hbmOf s (p / 32)).rh → now = s.time.uptime → ns = 32000000 / 2 ^ (hbmOf s (p / 32)).step →
    ((∀ a, (pchanOf s p).windowAt = some a → a + (pchanOf s p).windowNs ≤ now) → exec (.refreshWindow p) s = .next (settled s (modPchan p (fun x =>
      if x.mode = 0 ∨ x.mode = 2 then
        (if x.window = true then { x with rhNow := rh, act := [], windowAt := some now, windowNs := ns, mode := 3, window := false }
        else { x with rhNow := rh, act := [], windowAt := some now, windowNs := ns, window := true })
      else { x with rhNow := rh, act := [], windowAt := some now, windowNs := ns }) s))) ∧
    (∀ a, (pchanOf s p).windowAt = some a → now < a + (pchanOf s p).windowNs → exec (.refreshWindow p) s = .next (settled s s))) ∧
  (∀ (p bank row : Nat) (s : State), bankHolds (pchanOf s p) bank row = true → exec (.hbmActivate p bank row) s = .next (settled s s)) ∧
  (∀ (p bank row : Nat) (e : Nat × Nat) (s : State), pcServes s p = true → bank < 48 → row < 16384 → bankHolds (pchanOf s p) bank row = false →
    (pchanOf s p).mode = 3 → e = actEntry (mgetD (pchanOf s p).act bank []) row →
    ((pchanOf s p).rhNow ≤ e.2 → exec (.hbmActivate p bank row) s = .next (settled s (modPchan p (fun x =>
      queueRefresh bank row { x with act := mset x.act bank (mdel (mgetD (pchanOf s p).act bank []) e.1) }) s))) ∧
    (e.2 < (pchanOf s p).rhNow → exec (.hbmActivate p bank row) s = .next (settled s (modPchan p (fun x =>
      { x with act := mset x.act bank (mset (mgetD (pchanOf s p).act bank []) e.1 (row, e.2)) }) s)))) ∧
  (∀ (p bank row : Nat) (s : State), pcServes s p = true → bank < 48 → row < 16384 → bankHolds (pchanOf s p) bank row = false →
    (pchanOf s p).mode ≠ 3 → exec (.hbmActivate p bank row) s = .next (settled s
      (if (drawBelow 256 s).1 = 0 then modPchan p (queueRefresh bank row) (drawBelow 256 s).2 else (drawBelow 256 s).2))) ∧
  (∀ (p bank row : Nat) (rest : List Nat) (s : State), pcServes s p = true → mgetD (pchanOf s p).queue bank [] = row :: rest →
    exec (.neighbourRefresh p bank) s = .next (settled s (modPchan p (fun x => { x with
      nrr := (x.nrr + 1) % 2 ^ 32, queue := if rest.isEmpty then mdel x.queue bank else mset x.queue bank rest }) s))) ∧
  (∀ (p : Nat) (s : State), running s = true → p < 64 → (hbmOf s (p / 32)).ready = true → s.retrainHold = none → pausePhase s p 400 < 400 →
    exec (.retrainHold p) s = .next (settled s { s with retrainHold := some s.time.uptime })) ∧
  (∀ (p : Nat) (s : State), running s = true → p < 192 → (hbmOf s (p / 32)).ready = true → pausePhase s p 0 < 1000 →
    exec (.retrainPause p) s = .next (settled s (holdAtPause p (modPchan p (fun x => { x with paused := true }) s)))) ∧
  (∀ (p : Nat) (s u : State), running s = true → 1000 ≤ pausePhase s p 0 →
    u = modPchan p (fun x => { x with paused := false }) (if holdsFor s p then releaseHold s else s) →
    ((pchanOf s p).paused = true → exec (.retrainEnd p true) s = .next (settled s u) ∧
      exec (.retrainEnd p false) s = .next (settled s (report 21 (resId 0x0D p) [] u))) ∧
    ((pchanOf s p).paused = false → holdsFor s p = true → ∀ pass, exec (.retrainEnd p pass) s = .next (settled s u))) ∧
  (∀ (n : Nat) (s : State), running s = true → n < 6 → (domainOf s (if n < 2 then 12 else 16)).on = true → (hbmOf s n).ready = false →
    exec (.hbmInitComplete n) s = .next (settled s (modHbm n (fun x => { x with ready := true }) s)))

/-! ### Faults -/

/-- A fault report crosses the bridge and its burst is counted. One of a fatal source, or of a core in the forms that are fatal, takes the block to the safe state; in the safe state another leaves its record only, and none in the clock of the fatal event; one of a contained source without a window fences its targets where not all are fenced, and ends their self-tests as failed; where all are fenced it leaves a record, but not in the clock in which an Nth count fenced them. A pending record is written to the log with the next SEQ and raises the alert, where the journal has room for its record. Unequal copies of the collector are fatal, equal ones change nothing. A self-test that passed ends the fence of its unit; one that failed does not, and its pseudo-channels leave TEST; a waiting command completes. -/
def Obligations.FaultEventsTakeEffect : Prop :=
  (∀ (src resource : Nat) (detail : List Byte) (s v : State), running s = true → resKind resource = sourceKind src → resValid resource = true →
    (src = 3 → 192 ≤ resIndex resource ∧ resIndex resource < 496) → v = countBurst src resource (reportCross resource s) →
    ((sourceClass src = some 2 ∨ src = 23 ∧ u8 detail 0 ∈ [0, 1, 14, 15]) →
      exec (.faultReport src resource detail) s = .next (settled s (fatal src resource detail v))) ∧
    (∀ cls, sourceClass src = some cls → cls ≠ 2 → (src = 23 → u8 detail 0 ∉ [0, 1, 14, 15]) → s.faults.safe = true →
      (s.faults.fatalAt ≠ some s.time.uptime →
        exec (.faultReport src resource detail) s = .next (settled s (pendRecord (mkRecord v src resource cls 0 0 0 detail) v))) ∧
      (s.faults.fatalAt = some s.time.uptime → exec (.faultReport src resource detail) s = .next (settled s v))) ∧
    (∀ ts, sourceClass src = some 1 → (src = 23 → u8 detail 0 ∉ [0, 1, 14, 15]) → s.faults.safe = false → sourceWindow src = none →
      reportTargets src resource detail = some ts → ts.all (isFenced v) = false → exec (.faultReport src resource detail) s =
        .next (settled s (fenceReport src resource 0 ts detail (ts.foldl (fun s r => failTests r s) v)))) ∧
    (∀ ts w, sourceClass src = some 1 → (src = 23 → u8 detail 0 ∉ [0, 1, 14, 15]) → s.faults.safe = false → sourceWindow src = none →
      reportTargets src resource detail = some ts → ts ≠ [] → ts.all (isFenced v) = true → w = ts.foldl (fun s r => failTests r s) v →
      (sameFence w ts true false = true → exec (.faultReport src resource detail) s = .next (settled s w)) ∧
      (sameFence w ts true false = false →
        exec (.faultReport src resource detail) s = .next (settled s (pendRecord (mkRecord w src resource 1 6 0 0 detail) w))))) ∧
  (∀ (r : FRec) (rest : List FRec) (s : State), s.faults.pending = r :: rest → running s = true → s.boot.restarting = false →
    s.faults.stagHeld = false → 2 ≤ s.boot.phase → (journalFree s.journal ≠ 0 ∨ s.faults.safe = true) → ∃ t : State, exec .faultRecord s = .next t ∧
      t.faults.pending = rest ∧ t.faults.next = s.faults.next + 1 ∧ t.faults.alert = true ∧ t.pins.smbAlertN = false ∧ t.mem = s.mem ∧
      t.tables = s.tables ∧ (∃ j, t.faults.log.getLast? = some { r with seq := s.faults.next, journalSeq := j })) ∧
  (∀ s u : State, running s = true → u = bridgeCross 7 1 (bridgeCross 6 1 { s with faults.comparedAt := some s.time.uptime }) →
    exec (.collectorCompare false) s = .next (settled s (fatal 31 (resId 0x18 0) [] u)) ∧
    exec (.collectorCompare true) s = .next (settled s u)) ∧
  (∀ (unit : Nat) (x : SelfTest) (s u v w : State), s.faults.tests.find? (fun t => t.unit == unit && t.trial.isNone) = some x → mailboxReady s = true →
    u = { s with faults.tests := s.faults.tests.filter (fun y => y.unit != x.unit) } →
    v = pendRecord (mkRecord (unfence x.unit u) 0 x.unit 0 4 0 x.unit []) (unfence x.unit u) →
    w = (pchansNamed x.unit).foldl (fun s p => if (pchanOf s p).mode = 1 then enterMode 3 p s else s)
      (pendRecord (mkRecord u 0 x.unit 0 5 0 0 []) u) →
    (x.failed = false → (x.cmd = none → exec (.selfTestComplete unit true) s = .next (settled s v)) ∧
      (∀ c, x.cmd = some c → exec (.selfTestComplete unit true) s = .next (settled s (completeLong c 0x1402 x.unit [] v)))) ∧
    (∀ pass, (pass = false ∨ x.failed = true) → (x.cmd = none → exec (.selfTestComplete unit pass) s = .next (settled s w)) ∧
      (∀ c, x.cmd = some c → exec (.selfTestComplete unit pass) s = .next (settled s (refuse c 0x1402 (failWith St.fenced) w)))))

/-- A fatal event latches the safe state with its cause: FAULT_N falls with the step, a device that was safe already keeps its first cause. -/
def Obligations.FatalEventsLatchTheirCause : Prop :=
  ∀ (src resource : Nat) (detail : List Byte) (s t : State), running s = true → resKind resource = sourceKind src → resValid resource = true →
    sourceClass src = some 2 → exec (.faultReport src resource detail) s = .next t →
    t.faults.safe = true ∧ t.pins.faultN = false ∧ t.mem = s.mem ∧ t.counters = s.counters ∧ t.tables = s.tables ∧ t.ports = s.ports ∧
    (s.faults.safe = false → t.faults.causeSource = src ∧ t.faults.causeResource = resource ∧ t.faults.causeValid = true) ∧
    (s.faults.safe = true → t.faults.causeSource = s.faults.causeSource ∧ t.faults.causeResource = s.faults.causeResource)

/-- In the safe state nothing is forwarded: the rows of the packet path, the queues, the credit and cell machinery and the host's rings leave the state as it was. -/
def Obligations.TheSafeStateForwardsNothing : Prop :=
  ∀ (a b : Nat) (q : QId) (m : CreditMsg) (bs : List Byte) (s : State), s.faults.safe = true →
    ∀ i ∈ [Instr.parserEntry a b, .stageVisit a, .endOfIngress a, .voqEnqueue, .reserveRefill, .packing q, .refill q, .reclaimSweep, .ageScan q,
      .voqDequeue a, .egressDequeue a, .endOfEgress a, .transmit a, .grantIssue a, .requestOn m, .requestOff m, .grant m, .creditReturn m,
      .lost m, .auditGrant m, .auditReturn m, .auditSend, .requestRepeat a, .creditCellSend a, .cellFill a, .cellReceive a bs, .reorderTimeout a,
      .presenceSend, .txFrameComplete a b, .jobComplete a b, .coalesceTimeout a b, .learnEvent a b, .sweepStart a b, .sweepVisit a b, .timer a,
      .stall a, .tahrDump a, .dumpCapture a, .bridgeDepthSample a b, .counterDelta (0, []), .redirectRecord bs],
    exec i s = .next (settled s s)

/-! ### Observation, time and dumps -/

/-- The observation window, the registers and the outputs of the time base: an aligned read answers its word, a write is dropped and counted; a reserved range of BAR 0 reads zero and counts a write, and so the recovery window outside recovery boot reads zero and discards one; a write of the firmware acts by the register's type, one to the collector's registers is fatal; PPS_OUT rises at its edge time and falls after its width, an edge of PPS_IN is captured or counted as a glitch; a bridge depth is sampled; the alert response ends the alert. -/
def Obligations.ObservationAndTimeEventsTakeEffect : Prop :=
  (∀ (off : Nat) (s : State), pf0Answers s = true → off % 8 = 0 → exec (.observationRead off 8) s =
    .next (settled s (emit (.data ((windowWordAt off s).1 % 2 ^ 64)) (windowWordAt off s).2))) ∧
  (∀ (off size : Nat) (s : State), pf0Answers s = true →
    exec (.observationWrite off size) s = .next (settled s { s with host.writeDrops := (s.host.writeDrops + 1) % 2 ^ 16 })) ∧
  (∀ (addr v : Nat) (s : State), running s = true →
    (pf0Answers s = true → addr < 0x2000 → exec (.registerWrite addr v) s =
      .next (settled s { s with mgt.page := Memory.writes s.mgt.page addr (leBytes 8 v) })) ∧
    (pf0Answers s = true → (0x2100 ≤ addr ∧ addr < 0x20000 ∨ 0x30008 ≤ addr ∧ addr < 0x800000) → barRead s addr = 0 ∧
      exec (.registerWrite addr v) s = .next (settled s { s with host.writeDrops := (s.host.writeDrops + 1) % 2 ^ 16 })) ∧
    (pf0Answers s = true → 0x800000 ≤ addr → addr < 0x1000000 → s.boot.rcvState = 0 → barRead s addr = 0 ∧
      exec (.registerWrite addr v) s = .next (settled s s)) ∧
    (addr = 0x80000000 + 8 * 2 ^ 26 → exec (.registerWrite addr v) s = .next (settled s { s with pair.takeovers := bitsOf v 47 32 })) ∧
    (∀ o < 2 ^ 23, addr = 0x80000000 + 14 * 2 ^ 26 + 8 * o → exec (.registerWrite addr v) s = .next (settled s (fatal 31 (resId 0x18 0) [] s)))) ∧
  (∀ s : State, running s = true → s.time.ppsOutOn = true → s.time.ppsNext ≤ s.time.ntime → ∃ t : State, exec .ppsOutRise s = .next t ∧
    t.pins.ppsOut = true ∧ t.time.ppsFallAt = s.time.uptime + s.time.ppsWidth ∧ t.time.ppsNext = edgeAfter s.time.ppsPhase s.time.ntime ∧
    sameDevice { s with time := t.time } t) ∧
  (∀ s : State, s.time.ppsHigh = true → s.time.ppsFallAt ≤ s.time.uptime → ∃ t : State, exec .ppsOutFall s = .next t ∧
    t = settled s { s with time.ppsHigh := false } ∧ t.pins.ppsOut = false) ∧
  (∀ (rising : Bool) (s : State), running s = true → s.time.ppsInOn = true → rising ≠ s.time.ppsFalling →
    (s.time.ppsInCount ≠ 0 → s.time.uptime < s.time.ppsInUptime + 1000 → exec (.ppsIn rising) s =
      .next (settled s { s with time.ppsGlitch := (s.time.ppsGlitch + 1) % 2 ^ 32 })) ∧
    (s.time.ppsInUptime + 1000 ≤ s.time.uptime → exec (.ppsIn rising) s = .next (settled s { s with time := { s.time with
      ppsInNtime := s.time.ntime, ppsInUptime := s.time.uptime, ppsInCount := (s.time.ppsInCount + 1) % 2 ^ 64 } }))) ∧
  (∀ (cls depth : Nat) (s : State), trafficOn s = true → cls < 6 →
    exec (.bridgeDepthSample cls depth) s = .next (settled s (monEvent 10 cls depth s))) ∧
  (∀ s : State, running s = true → s.faults.alert = true → ∃ t : State, exec .smbusAlertResponse s = .next t ∧
    t.faults.alert = false ∧ t.pins.smbAlertN = true ∧ .data (0x58 + s.power.smbAddr) ∈ t.out ∧ sameDevice s t)

/-- A rate outside the range is refused with BAD_FIELD; one inside it waits for the next tick and is the rate from that tick on. -/
def Obligations.RatesApplyFromTheNextTick : Prop :=
  ∀ (c : Cmd) (s : State) (v : Int), v = signed 64 (c.at 0 8) →
    timeSetRateSpec.kind = .o ∧ timeSetRateSpec.layout c = .ok { len := 8, rsvd := [] } ∧
    ((v < -500000000 ∨ 500000000 < v) → c.txnId = 0 → c.resource = 0 → fieldsFail timeSetRateSpec c s = some (badField 0) ∧
      (refusedWith 0x1103 c (badField 0) s = true → exec (.timeSetRate c) s = .next (settled s (refuse c 0x1103 (badField 0) (dispatched c s))))) ∧
    (-500000000 ≤ v → v ≤ 500000000 → c.txnId = 0 → c.resource = 0 → fieldsFail timeSetRateSpec c s = none ∧
      (following s = false → ∃ r, timeSetRateSpec.run c s = .ok r ∧ r.s.time.nextRate = some v ∧ r.s.time.rate = s.time.rate)) ∧
    (s.time.nextRate = some v → s.power.porst = false → s.power.brownout = false → s.power.refclkLost = false →
      (tick s).time.rate = v ∧ (tick s).time.nextRate = none ∧ (tick s).time.uptime = s.time.uptime + 1)

/-- A dump frame is captured into its slot of the ring, header and content, and into no other byte of memory; its SEQ is written when the frame is; a frame that is due while the last is being written, or whose memory is lost or whose host does not answer, counts MISSED. A stream to host memory writes the same bytes there and no byte of the device's. -/
def Obligations.DumpFramesStayInTheirSlot : Prop :=
  (∀ (n addr : Nat) (d : Dump) (s : State), trafficOn s = true → d = mgetD s.dumps n {} → d.dest ≠ 0 → d.start + (d.next + 1) * d.period * 1000 ≤ s.time.uptime →
    addr = d.base + d.next % d.depth * dumpFrame n d.sections →
    (d.writing = none → d.dest = 1 → frameLost s n d = false → ∃ t : State, exec (.dumpCapture n) s = .next t ∧
      t.mem = Memory.writes (Memory.writes s.mem addr (frameHeader s n (2 ^ 64 - 1) d (64 + (frameContent s n d.sections).length)))
        (addr + 64) (frameContent s n d.sections) ∧
      (∀ a, a < addr ∨ addr + 64 + (frameContent s n d.sections).length ≤ a → Memory.read t.mem a = Memory.read s.mem a) ∧
      mget t.dumps n = some { d with next := d.next + 1, writing := some d.next } ∧ t.tables = s.tables ∧ t.ports = s.ports) ∧
    (d.writing = none → d.dest = 2 → asleep s 0 = false → ∃ t : State, exec (.dumpCapture n) s = .next t ∧ t.mem = s.mem ∧
      .dma none addr (frameHeader s n (2 ^ 64 - 1) d (64 + (frameContent s n d.sections).length)) ∈ t.out ∧
      .dma none (addr + 64) (frameContent s n d.sections) ∈ t.out ∧
      mget t.dumps n = some { d with next := d.next + 1, writing := some d.next } ∧ t.tables = s.tables ∧ t.ports = s.ports) ∧
    ((d.writing.isSome = true ∨ d.dest = 1 ∧ frameLost s n d = true ∨ d.dest = 2 ∧ asleep s 0 = true) →
      exec (.dumpCapture n) s = .next (settled s { s with
        dumps := mset s.dumps n { d with next := d.next + 1, missed := (d.missed + 1) % 2 ^ 16 } }))) ∧
  (∀ (n p addr : Nat) (d : Dump) (s : State), trafficOn s = true → d = mgetD s.dumps n {} → d.writing = some p →
    addr = d.base + p % d.depth * dumpFrame n d.sections → ∃ t : State, exec (.dumpFrameWritten n) s = .next t ∧
      mget t.dumps n = some { d with lastSeq := p % 2 ^ 32, writing := none } ∧ t.tables = s.tables ∧ t.ports = s.ports ∧
      (d.dest = 1 → t.mem = Memory.writes s.mem (addr + 8) (leBytes 8 p) ∧ (∀ a, a < addr + 8 ∨ addr + 16 ≤ a → Memory.read t.mem a = Memory.read s.mem a)) ∧
      (d.dest = 2 → asleep s 0 = false → t.mem = s.mem ∧ .dma none (addr + 8) (leBytes 8 p) ∈ t.out))

/-- Device memory keeps its canonical form, holds what was written to it and nothing else, and two memories that read alike are equal. -/
def Obligations.MemoryHoldsWhatIsWritten : Prop :=
  (∀ (m : List Host.Cell) (a : Nat) (bs : List Byte), Memory.wf m = true →
    Memory.wf (Memory.writes m a bs) = true ∧ Memory.reads (Memory.writes m a bs) a bs.length = bs ∧
    ∀ k, k < a ∨ a + bs.length ≤ k → Memory.read (Memory.writes m a bs) k = Memory.read m k) ∧
  (∀ m n : List Host.Cell, Memory.wf m = true → Memory.wf n = true → (∀ k, Memory.read m k = Memory.read n k) → m = n)

/-! ### Power and reset -/

/-- Power: a supply sample counts, at each hundredth the sensors are read, and ten in a row below 10.5 V are a brown-out, which empties memory, tables and journal. A regulator fault switches its domain off and holds it off, takes its HBM stacks down, refuses a trial that waits for it, lets the next domain follow, and is reported as PWR_REG. A domain in regulation is on where something wants it, its trials' self-tests start and its enabled octets begin their bring-up. After a reset the domains power up in turn, the first alone ramping, within 500 µs. The loss of REFCLK is fatal once; the loss of a lane clock is reported for each enabled octet that it feeds. -/
def Obligations.PowerEventsTakeEffect : Prop :=
  (∀ (mv : Nat) (s u : State), mv ≤ 14500 →
    u = (if s.power.samples = 99 then senseAll mv { s with power := supplyCounts mv s.power }
      else { s with power := { supplyCounts mv s.power with samples := s.power.samples + 1 } }) →
    ((u.power.lowUs < 10 ∨ u.power.porst = true ∨ u.power.brownout = true) → exec (.supplySample mv) s = .next (settled s u)) ∧
    (10 ≤ u.power.lowUs → u.power.porst = false → u.power.brownout = false → ∃ t : State, exec (.supplySample mv) s = .next t ∧
      t.power.brownout = true ∧ t.power.brownouts = (u.power.brownouts + 1) % 2 ^ 16 ∧ t.power.lastReset = 2 ∧ t.pins.faultN = false ∧
      t.mem = [] ∧ t.tables = [] ∧ t.journal = State.reset.journal)) ∧
  (∀ (d : Nat) (s u : State), running s = true → ((domainOf s d).on = true ∨ (domainOf s d).ramping = true) →
    u = stacksDown d { modDomain d (fun x => { x with on := false, ramping := false, heldOff := true, faults := (x.faults + 1) % 2 ^ 16 }) s with
      faults.tests := s.faults.tests.filter (fun t => t.trial != some d) } →
    exec (.regulatorFault d) s = .next (settled s (report 23 (resId 0x18 0) (leBytes 16 d)
      (rampOver d ((trialsOf d s).foldl (fun s t => match t.cmd with | some c => refuse c 0x1402 (failWith St.wrongState) s | none => s) u))))) ∧
  (∀ (d : Nat) (s u v w : State), running s = true → (domainOf s d).ramping = true →
    u = rampOver d (modDomain d (fun x => { x with on := domainWanted s d, ramping := false, heldOff := false }) s) →
    v = { u with faults.tests := u.faults.tests.map (fun t => if t.trial == some d then { t with trial := none } else t) } →
    w = (trialsOf d u).foldl (fun s t => startTest t.unit s) v →
    ((domainOf w d).on = true → exec (.domainInRegulation d) s = .next (settled s ((enabledOctets w d).foldl (fun s o => startOctet o s) w))) ∧
    ((domainOf w d).on = false → exec (.domainInRegulation d) s = .next (settled s w))) ∧
  (∀ (d : Nat) (rest : List Nat) (s : State), running s = true → s.power.bringUp = d :: rest → s.power.bringAt ≤ s.time.uptime →
    (domainOf s d).on = false → (domainOf s d).heldOff = false → (∀ e, (domainOf s e).ramping = true → e = d) →
    (∀ e, (domainOf (powerTick s) e).ramping = true → e = d) ∧
    ((domainOf s d).ramping = false → (domainOf (powerTick s) d).ramping = true ∧ (domainOf (powerTick s) d).on = false ∧
      (powerTick s).power.bringAt ≤ s.time.uptime + 500000) ∧
    ((domainOf s d).ramping = true → (domainOf (powerTick s) d).on = true ∧ (domainOf (powerTick s) d).ramping = false ∧ (powerTick s).power.bringUp = rest)) ∧
  (∀ s : State, running s = true → s.power.refclkLost = false →
    exec .refclkLoss s = .next (settled s (fatal 25 (resId 0x18 0) [] { s with power.refclkLost := true }))) ∧
  (∀ (n : Nat) (s : State), running s = true → exec (.laneRefclkLoss n) s = .next (settled s
    ((((List.range 4).map (· + 4 * n)).filter (octetEnabled s)).foldl (fun s o => report 2 (resId 0x08 o) [] s) s)))

/-- Reset and boot: PORST_N low for 1 µs holds the device, its release boots it, as the end of a brown-out does, each unless the other still holds it; WARM_RST_N low for 1 µs, or the time of a DEVICE_RESET, starts a warm reset and its release, 2 ms or more later, boots from what it left; the boot watchdog tries the next slot, or ends a restart that hangs by going back; an armed activation starts at its time with the directory rewritten; GO in the recovery window starts the verification of the artefact. -/
def Obligations.ResetEventsTakeEffect : Prop :=
  (∀ (ns : Nat) (s : State), 1000 ≤ ns → exec (.porstAssert ns) s = .next (settled s (porReset { s with power.porst := true }))) ∧
  (∀ (ns : Nat) (s : State), ns < 1000 → exec (.porstAssert ns) s = .next (settled s s)) ∧
  (∀ (b : BootInput) (s : State), s.power.porst = true →
    (s.power.brownout = false → exec (.porstRelease b) s = .next (settled s (bootDevice false b { s with power.porst := false }))) ∧
    (s.power.brownout = true → exec (.porstRelease b) s = .next (settled s { s with power.porst := false }))) ∧
  (∀ (b : BootInput) (s : State), s.power.brownout = true → 10000 ≤ s.power.backUs →
    (s.power.porst = false → exec (.brownOutEnd b) s = .next (settled s (bootDevice false b { s with power.brownout := false }))) ∧
    (s.power.porst = true → exec (.brownOutEnd b) s = .next (settled s { s with power.brownout := false }))) ∧
  (∀ (ns : Nat) (s : State), 1000 ≤ ns → running s = true → ∃ t : State, exec (.warmRstN ns) s = .next t ∧ t.power.warm = true ∧
    t.power.warmLow = true ∧ t.power.lastReset = 4 ∧ t.power.warmCount = (s.power.warmCount + 1) % 2 ^ 16 ∧ t.pins.pairActOut = false) ∧
  (∀ (a : Nat) (s : State), s.mgt.resetAt = some a → a ≤ s.time.uptime → exec .warmResetStart s = .next (settled s (startWarm 3 s))) ∧
  (∀ (b : BootInput) (s : State), s.power.warm = true → s.power.porst = false → s.power.brownout = false → s.power.warmAt + 2000000 ≤ s.time.uptime →
    exec (.warmResetRelease b) s = .next (settled s (bootDevice true b (warmState s)))) ∧
  (∀ (b : BootInput) (a : Nat) (s : State), s.boot.watch = some a → running s = true → a + 1000000000 ≤ s.time.uptime →
    (s.boot.restarting = true → exec (.bootWatchdog b) s = .next (settled s (restartReverts s))) ∧
    (s.boot.restarting = false → exec (.bootWatchdog b) s = .next (settled s (selectFirmware b { s with
      boot.watch := none, boot.recovery := false, boot.input := some b, boot.bootAt := s.time.uptime
      boot.failedSlots := s.boot.failedSlots ++ [s.boot.entered] })))) ∧
  (∀ (a : _) (hangs : Bool) (s : State), s.boot.armed = some a → mailboxReady s = true → (a.at_ = 0 ∨ a.at_ ≤ s.time.ntime) →
    s.boot.stage = 0 → s.boot.activating = none →
    exec (.activationStart hangs) s = .next (settled s (switchDirectory a.kinds { s with
      boot.armed := none
      boot.activating := some { outcome := a.kinds, oldProgram := mgetD s.boot.active 3 0, step := if bit a.kinds 0 then 2 else 4, hangs := hangs } }))) ∧
  (∀ (b : BootInput) (s u : State), running s = true → (s.boot.rcvState = 1 ∨ s.boot.rcvState = 3) →
    u = { s with boot.rcvState := 2, boot.rcvFail := 0, boot.input := some b, boot.bootAt := s.time.uptime } →
    exec (.recoveryGo b) s = .next (settled s (nextStage 12 u)))

/-- While a power-on reset holds the block no command of the mailbox does anything: there is no firmware that takes it. -/
def Obligations.ResetHoldsTheMailbox : Prop :=
  ∀ (i : Instr) (op : Nat) (c : Cmd) (s : State), s.power.porst = true →
    (readRow i = some (op, c) ∨ configRow i = some (op, c) ∨ operateRow i = some (op, c) ∨ (i = .txnCommit c ∧ op = 0x0402)) →
    exec i s = .next (settled s s)

/-- Buckets of a monitor: below 4 the scaled value itself, from there four buckets for each power of two, and 63 from 2^17 on; the range of values of each bucket; a value is counted in its bucket and in no other. An instance that has recorded an event of a clock counts the others of that clock in SKIPPED. -/
def Obligations.ValuesFallInTheirBucket : Prop :=
  ∀ (shift v x : Nat), x = v / 2 ^ shift →
    (x < 4 → bucketOf shift v = x) ∧
    (∀ e, 4 ≤ x → x < 2 ^ 17 → 2 ^ e ≤ x → x < 2 ^ (e + 1) → bucketOf shift v = 4 * (e - 1) + x / 2 ^ (e - 2) % 4) ∧
    (2 ^ 17 ≤ x → bucketOf shift v = 63) ∧
    (∀ b, x < 2 ^ 17 → 4 ≤ b → b ≤ 63 →
      (bucketOf shift v = b ↔ (4 + b % 4) * 2 ^ (b / 4 + 1 - 2) ≤ x ∧ x ≤ (5 + b % 4) * 2 ^ (b / 4 + 1 - 2) - 1)) ∧
    (∀ m : Monitor, m.shift = shift →
      mgetD (m.record v).buckets (bucketOf shift v) 0 = Nat.min (mgetD m.buckets (bucketOf shift v) 0 + 1) 0xFFFFFFFF ∧
      ∀ b, b ≠ bucketOf shift v → mgetD (m.record v).buckets b 0 = mgetD m.buckets b 0) ∧
    (∀ (clock : Nat) (m : Monitor), (m.last ≠ some clock → ∀ same, m.take clock same v = { m.record v with last := some clock }) ∧
      (m.last = some clock → m.take clock true v = { m with skipped := Nat.min (m.skipped + 1) 0xFFFFFFFF }))

end BlockStatements
end

