-- ==== Sys2Proof/Laws/State.lean ====
section
/-! SUPPORT. What each update of the state leaves: one lemma per update, one equation per field, so that no proof unfolds a record update. -/

namespace Sys2Proof.Machine

/-! ### Folds and sparse maps -/

/-- What each step of a fold keeps, the fold keeps. -/
theorem foldl_keeps {α β γ : Type} (π : β → γ) (f : β → α → β) (h : ∀ b a, π (f b a) = π b) (l : List α) (b : β) :
    π (l.foldl f b) = π b := by
  induction l generalizing b with
  | nil => rfl
  | cons a l ih => rw [List.foldl_cons, ih, h]

theorem mget_mset {β : Type} (m : NMap β) (k j : Nat) (v : β) : mget (mset m k v) j = if k = j then some v else mget m j := by
  induction m with
  | nil => simp [mset, mget]
  | cons p m ih =>
    obtain ⟨a, w⟩ := p
    unfold mset
    split
    · simp [mget]
    · split
      · rename_i h; subst h; simp only [mget]; split <;> simp_all
      · simp only [mget, ih]; split <;> simp_all

@[simp] theorem mget_mset_self {β : Type} (m : NMap β) (k : Nat) (v : β) : mget (mset m k v) k = some v := by simp [mget_mset]

theorem mget_mset_other {β : Type} (m : NMap β) {k j : Nat} (v : β) (h : k ≠ j) : mget (mset m k v) j = mget m j := by
  simp [mget_mset, h]

@[simp] theorem mgetD_mset_self {β : Type} (m : NMap β) (k : Nat) (v d : β) : mgetD (mset m k v) k d = v := by simp [mgetD]

theorem mgetD_mset_other {β : Type} (m : NMap β) {k j : Nat} (v d : β) (h : k ≠ j) : mgetD (mset m k v) j d = mgetD m j d := by
  simp [mgetD, mget_mset, h]

theorem mget_mdel_other {β : Type} (m : NMap β) {k j : Nat} (h : k ≠ j) : mget (mdel m k) j = mget m j := by
  induction m with
  | nil => rfl
  | cons p m ih =>
    obtain ⟨a, w⟩ := p
    unfold mdel
    split
    · rename_i ha; subst ha; simp [mget, h]
    · simp only [mget, ih]

/-! ### Record updates -/

/-- A record update: what it leaves (log entry 6). -/
@[simp] theorem emit_frame (o : Out) (s : State) :
    (emit o s).pending = s.pending ∧ (emit o s).mgt = s.mgt ∧ (emit o s).journal = s.journal ∧ (emit o s).time = s.time ∧
    (emit o s).ports = s.ports ∧ (emit o s).lines = s.lines ∧ (emit o s).groups = s.groups ∧ (emit o s).staging = s.staging ∧
    (emit o s).bank = s.bank ∧ (emit o s).bankOld = s.bankOld ∧ (emit o s).buckets = s.buckets ∧ (emit o s).mirrors = s.mirrors ∧
    (emit o s).samplers = s.samplers ∧ (emit o s).allowance = s.allowance ∧ (emit o s).allowAt = s.allowAt ∧ (emit o s).holdClocks = s.holdClocks ∧
    (emit o s).retrainHold = s.retrainHold ∧ (emit o s).limit = s.limit ∧ (emit o s).tables = s.tables ∧ (emit o s).ruleGroups = s.ruleGroups ∧
    (emit o s).sets = s.sets ∧ (emit o s).pkts = s.pkts ∧ (emit o s).nextPkt = s.nextPkt ∧ (emit o s).hdrSlot = s.hdrSlot ∧ (emit o s).dc0 = s.dc0 ∧
    (emit o s).dc1 = s.dc1 ∧ (emit o s).bridgeTx = s.bridgeTx ∧ (emit o s).bridgeRx = s.bridgeRx ∧ (emit o s).buf = s.buf ∧
    (emit o s).sched = s.sched ∧ (emit o s).fabric = s.fabric ∧ (emit o s).pair = s.pair ∧ (emit o s).tahr = s.tahr ∧ (emit o s).host = s.host ∧
    (emit o s).monitors = s.monitors ∧ (emit o s).dumps = s.dumps ∧ (emit o s).counters = s.counters ∧ (emit o s).hbm = s.hbm ∧
    (emit o s).pchans = s.pchans ∧ (emit o s).faults = s.faults ∧ (emit o s).boot = s.boot ∧ (emit o s).power = s.power ∧ (emit o s).mem = s.mem ∧
    (emit o s).pins = s.pins ∧ (emit o s).freeCtr = s.freeCtr := by
  and_intros <;> rfl

@[simp] theorem draw_frame (w : Nat) (s : State) :
    (draw w s).2.pending = s.pending ∧ (draw w s).2.mgt = s.mgt ∧ (draw w s).2.journal = s.journal ∧ (draw w s).2.time = s.time ∧
    (draw w s).2.ports = s.ports ∧ (draw w s).2.lines = s.lines ∧ (draw w s).2.groups = s.groups ∧ (draw w s).2.staging = s.staging ∧
    (draw w s).2.bank = s.bank ∧ (draw w s).2.bankOld = s.bankOld ∧ (draw w s).2.buckets = s.buckets ∧ (draw w s).2.mirrors = s.mirrors ∧
    (draw w s).2.samplers = s.samplers ∧ (draw w s).2.allowance = s.allowance ∧ (draw w s).2.allowAt = s.allowAt ∧
    (draw w s).2.holdClocks = s.holdClocks ∧ (draw w s).2.retrainHold = s.retrainHold ∧ (draw w s).2.limit = s.limit ∧
    (draw w s).2.tables = s.tables ∧ (draw w s).2.ruleGroups = s.ruleGroups ∧ (draw w s).2.sets = s.sets ∧ (draw w s).2.pkts = s.pkts ∧
    (draw w s).2.nextPkt = s.nextPkt ∧ (draw w s).2.hdrSlot = s.hdrSlot ∧ (draw w s).2.dc0 = s.dc0 ∧ (draw w s).2.dc1 = s.dc1 ∧
    (draw w s).2.bridgeTx = s.bridgeTx ∧ (draw w s).2.bridgeRx = s.bridgeRx ∧ (draw w s).2.buf = s.buf ∧ (draw w s).2.sched = s.sched ∧
    (draw w s).2.fabric = s.fabric ∧ (draw w s).2.pair = s.pair ∧ (draw w s).2.tahr = s.tahr ∧ (draw w s).2.host = s.host ∧
    (draw w s).2.monitors = s.monitors ∧ (draw w s).2.dumps = s.dumps ∧ (draw w s).2.counters = s.counters ∧ (draw w s).2.hbm = s.hbm ∧
    (draw w s).2.pchans = s.pchans ∧ (draw w s).2.faults = s.faults ∧ (draw w s).2.boot = s.boot ∧ (draw w s).2.power = s.power ∧
    (draw w s).2.mem = s.mem ∧ (draw w s).2.pins = s.pins ∧ (draw w s).2.out = s.out := by
  and_intros <;> rfl

@[simp] theorem modPool_frame (p : Nat) (f : Pool → Pool) (s : State) :
    (modPool p f s).pending = s.pending ∧ (modPool p f s).mgt = s.mgt ∧ (modPool p f s).journal = s.journal ∧ (modPool p f s).time = s.time ∧
    (modPool p f s).ports = s.ports ∧ (modPool p f s).lines = s.lines ∧ (modPool p f s).groups = s.groups ∧ (modPool p f s).staging = s.staging ∧
    (modPool p f s).bank = s.bank ∧ (modPool p f s).bankOld = s.bankOld ∧ (modPool p f s).buckets = s.buckets ∧ (modPool p f s).mirrors = s.mirrors ∧
    (modPool p f s).samplers = s.samplers ∧ (modPool p f s).allowance = s.allowance ∧ (modPool p f s).allowAt = s.allowAt ∧
    (modPool p f s).holdClocks = s.holdClocks ∧ (modPool p f s).retrainHold = s.retrainHold ∧ (modPool p f s).limit = s.limit ∧
    (modPool p f s).tables = s.tables ∧ (modPool p f s).ruleGroups = s.ruleGroups ∧ (modPool p f s).sets = s.sets ∧ (modPool p f s).pkts = s.pkts ∧
    (modPool p f s).nextPkt = s.nextPkt ∧ (modPool p f s).hdrSlot = s.hdrSlot ∧ (modPool p f s).dc0 = s.dc0 ∧ (modPool p f s).dc1 = s.dc1 ∧
    (modPool p f s).bridgeTx = s.bridgeTx ∧ (modPool p f s).bridgeRx = s.bridgeRx ∧ (modPool p f s).sched = s.sched ∧
    (modPool p f s).fabric = s.fabric ∧ (modPool p f s).pair = s.pair ∧ (modPool p f s).tahr = s.tahr ∧ (modPool p f s).host = s.host ∧
    (modPool p f s).monitors = s.monitors ∧ (modPool p f s).dumps = s.dumps ∧ (modPool p f s).counters = s.counters ∧ (modPool p f s).hbm = s.hbm ∧
    (modPool p f s).pchans = s.pchans ∧ (modPool p f s).faults = s.faults ∧ (modPool p f s).boot = s.boot ∧ (modPool p f s).power = s.power ∧
    (modPool p f s).mem = s.mem ∧ (modPool p f s).pins = s.pins ∧ (modPool p f s).out = s.out ∧ (modPool p f s).freeCtr = s.freeCtr := by
  and_intros <;> rfl

@[simp] theorem modPort_frame (p : Nat) (f : Port → Port) (s : State) :
    (modPort p f s).pending = s.pending ∧ (modPort p f s).mgt = s.mgt ∧ (modPort p f s).journal = s.journal ∧ (modPort p f s).time = s.time ∧
    (modPort p f s).lines = s.lines ∧ (modPort p f s).groups = s.groups ∧ (modPort p f s).staging = s.staging ∧ (modPort p f s).bank = s.bank ∧
    (modPort p f s).bankOld = s.bankOld ∧ (modPort p f s).buckets = s.buckets ∧ (modPort p f s).mirrors = s.mirrors ∧
    (modPort p f s).samplers = s.samplers ∧ (modPort p f s).allowance = s.allowance ∧ (modPort p f s).allowAt = s.allowAt ∧
    (modPort p f s).holdClocks = s.holdClocks ∧ (modPort p f s).retrainHold = s.retrainHold ∧ (modPort p f s).limit = s.limit ∧
    (modPort p f s).tables = s.tables ∧ (modPort p f s).ruleGroups = s.ruleGroups ∧ (modPort p f s).sets = s.sets ∧ (modPort p f s).pkts = s.pkts ∧
    (modPort p f s).nextPkt = s.nextPkt ∧ (modPort p f s).hdrSlot = s.hdrSlot ∧ (modPort p f s).dc0 = s.dc0 ∧ (modPort p f s).dc1 = s.dc1 ∧
    (modPort p f s).bridgeTx = s.bridgeTx ∧ (modPort p f s).bridgeRx = s.bridgeRx ∧ (modPort p f s).buf = s.buf ∧ (modPort p f s).sched = s.sched ∧
    (modPort p f s).fabric = s.fabric ∧ (modPort p f s).pair = s.pair ∧ (modPort p f s).tahr = s.tahr ∧ (modPort p f s).host = s.host ∧
    (modPort p f s).monitors = s.monitors ∧ (modPort p f s).dumps = s.dumps ∧ (modPort p f s).counters = s.counters ∧ (modPort p f s).hbm = s.hbm ∧
    (modPort p f s).pchans = s.pchans ∧ (modPort p f s).faults = s.faults ∧ (modPort p f s).boot = s.boot ∧ (modPort p f s).power = s.power ∧
    (modPort p f s).mem = s.mem ∧ (modPort p f s).pins = s.pins ∧ (modPort p f s).out = s.out ∧ (modPort p f s).freeCtr = s.freeCtr := by
  and_intros <;> rfl

@[simp] theorem modAcct_frame (a : Nat) (f : Account → Account) (s : State) :
    (modAcct a f s).pending = s.pending ∧ (modAcct a f s).mgt = s.mgt ∧ (modAcct a f s).journal = s.journal ∧ (modAcct a f s).time = s.time ∧
    (modAcct a f s).ports = s.ports ∧ (modAcct a f s).lines = s.lines ∧ (modAcct a f s).groups = s.groups ∧ (modAcct a f s).staging = s.staging ∧
    (modAcct a f s).bank = s.bank ∧ (modAcct a f s).bankOld = s.bankOld ∧ (modAcct a f s).buckets = s.buckets ∧ (modAcct a f s).mirrors = s.mirrors ∧
    (modAcct a f s).samplers = s.samplers ∧ (modAcct a f s).allowance = s.allowance ∧ (modAcct a f s).allowAt = s.allowAt ∧
    (modAcct a f s).holdClocks = s.holdClocks ∧ (modAcct a f s).retrainHold = s.retrainHold ∧ (modAcct a f s).limit = s.limit ∧
    (modAcct a f s).tables = s.tables ∧ (modAcct a f s).ruleGroups = s.ruleGroups ∧ (modAcct a f s).sets = s.sets ∧ (modAcct a f s).pkts = s.pkts ∧
    (modAcct a f s).nextPkt = s.nextPkt ∧ (modAcct a f s).hdrSlot = s.hdrSlot ∧ (modAcct a f s).dc0 = s.dc0 ∧ (modAcct a f s).dc1 = s.dc1 ∧
    (modAcct a f s).bridgeTx = s.bridgeTx ∧ (modAcct a f s).bridgeRx = s.bridgeRx ∧ (modAcct a f s).sched = s.sched ∧
    (modAcct a f s).fabric = s.fabric ∧ (modAcct a f s).pair = s.pair ∧ (modAcct a f s).tahr = s.tahr ∧ (modAcct a f s).host = s.host ∧
    (modAcct a f s).monitors = s.monitors ∧ (modAcct a f s).dumps = s.dumps ∧ (modAcct a f s).counters = s.counters ∧ (modAcct a f s).hbm = s.hbm ∧
    (modAcct a f s).pchans = s.pchans ∧ (modAcct a f s).faults = s.faults ∧ (modAcct a f s).boot = s.boot ∧ (modAcct a f s).power = s.power ∧
    (modAcct a f s).mem = s.mem ∧ (modAcct a f s).pins = s.pins ∧ (modAcct a f s).out = s.out ∧ (modAcct a f s).freeCtr = s.freeCtr := by
  and_intros <;> rfl

@[simp] theorem modLane_frame (l : Nat) (f : Lane → Lane) (s : State) :
    (modLane l f s).pending = s.pending ∧ (modLane l f s).mgt = s.mgt ∧ (modLane l f s).journal = s.journal ∧ (modLane l f s).time = s.time ∧
    (modLane l f s).ports = s.ports ∧ (modLane l f s).lines = s.lines ∧ (modLane l f s).groups = s.groups ∧ (modLane l f s).staging = s.staging ∧
    (modLane l f s).bank = s.bank ∧ (modLane l f s).bankOld = s.bankOld ∧ (modLane l f s).buckets = s.buckets ∧ (modLane l f s).mirrors = s.mirrors ∧
    (modLane l f s).samplers = s.samplers ∧ (modLane l f s).allowance = s.allowance ∧ (modLane l f s).allowAt = s.allowAt ∧
    (modLane l f s).holdClocks = s.holdClocks ∧ (modLane l f s).retrainHold = s.retrainHold ∧ (modLane l f s).limit = s.limit ∧
    (modLane l f s).tables = s.tables ∧ (modLane l f s).ruleGroups = s.ruleGroups ∧ (modLane l f s).sets = s.sets ∧ (modLane l f s).pkts = s.pkts ∧
    (modLane l f s).nextPkt = s.nextPkt ∧ (modLane l f s).hdrSlot = s.hdrSlot ∧ (modLane l f s).dc0 = s.dc0 ∧ (modLane l f s).dc1 = s.dc1 ∧
    (modLane l f s).bridgeTx = s.bridgeTx ∧ (modLane l f s).bridgeRx = s.bridgeRx ∧ (modLane l f s).buf = s.buf ∧ (modLane l f s).sched = s.sched ∧
    (modLane l f s).pair = s.pair ∧ (modLane l f s).tahr = s.tahr ∧ (modLane l f s).host = s.host ∧ (modLane l f s).monitors = s.monitors ∧
    (modLane l f s).dumps = s.dumps ∧ (modLane l f s).counters = s.counters ∧ (modLane l f s).hbm = s.hbm ∧ (modLane l f s).pchans = s.pchans ∧
    (modLane l f s).faults = s.faults ∧ (modLane l f s).boot = s.boot ∧ (modLane l f s).power = s.power ∧ (modLane l f s).mem = s.mem ∧
    (modLane l f s).pins = s.pins ∧ (modLane l f s).out = s.out ∧ (modLane l f s).freeCtr = s.freeCtr := by
  and_intros <;> rfl

@[simp] theorem modThread_frame (t : Nat) (f : Thread → Thread) (s : State) :
    (modThread t f s).pending = s.pending ∧ (modThread t f s).mgt = s.mgt ∧ (modThread t f s).journal = s.journal ∧ (modThread t f s).time = s.time ∧
    (modThread t f s).ports = s.ports ∧ (modThread t f s).lines = s.lines ∧ (modThread t f s).groups = s.groups ∧
    (modThread t f s).staging = s.staging ∧ (modThread t f s).bank = s.bank ∧ (modThread t f s).bankOld = s.bankOld ∧
    (modThread t f s).buckets = s.buckets ∧ (modThread t f s).mirrors = s.mirrors ∧ (modThread t f s).samplers = s.samplers ∧
    (modThread t f s).allowance = s.allowance ∧ (modThread t f s).allowAt = s.allowAt ∧ (modThread t f s).holdClocks = s.holdClocks ∧
    (modThread t f s).retrainHold = s.retrainHold ∧ (modThread t f s).limit = s.limit ∧ (modThread t f s).tables = s.tables ∧
    (modThread t f s).ruleGroups = s.ruleGroups ∧ (modThread t f s).sets = s.sets ∧ (modThread t f s).pkts = s.pkts ∧
    (modThread t f s).nextPkt = s.nextPkt ∧ (modThread t f s).hdrSlot = s.hdrSlot ∧ (modThread t f s).dc0 = s.dc0 ∧ (modThread t f s).dc1 = s.dc1 ∧
    (modThread t f s).bridgeTx = s.bridgeTx ∧ (modThread t f s).bridgeRx = s.bridgeRx ∧ (modThread t f s).buf = s.buf ∧
    (modThread t f s).sched = s.sched ∧ (modThread t f s).fabric = s.fabric ∧ (modThread t f s).pair = s.pair ∧ (modThread t f s).host = s.host ∧
    (modThread t f s).monitors = s.monitors ∧ (modThread t f s).dumps = s.dumps ∧ (modThread t f s).counters = s.counters ∧
    (modThread t f s).hbm = s.hbm ∧ (modThread t f s).pchans = s.pchans ∧ (modThread t f s).faults = s.faults ∧ (modThread t f s).boot = s.boot ∧
    (modThread t f s).power = s.power ∧ (modThread t f s).mem = s.mem ∧ (modThread t f s).pins = s.pins ∧ (modThread t f s).out = s.out ∧
    (modThread t f s).freeCtr = s.freeCtr := by
  and_intros <;> rfl

@[simp] theorem modCore_frame (c : Nat) (f : Core → Core) (s : State) :
    (modCore c f s).pending = s.pending ∧ (modCore c f s).mgt = s.mgt ∧ (modCore c f s).journal = s.journal ∧ (modCore c f s).time = s.time ∧
    (modCore c f s).ports = s.ports ∧ (modCore c f s).lines = s.lines ∧ (modCore c f s).groups = s.groups ∧ (modCore c f s).staging = s.staging ∧
    (modCore c f s).bank = s.bank ∧ (modCore c f s).bankOld = s.bankOld ∧ (modCore c f s).buckets = s.buckets ∧ (modCore c f s).mirrors = s.mirrors ∧
    (modCore c f s).samplers = s.samplers ∧ (modCore c f s).allowance = s.allowance ∧ (modCore c f s).allowAt = s.allowAt ∧
    (modCore c f s).holdClocks = s.holdClocks ∧ (modCore c f s).retrainHold = s.retrainHold ∧ (modCore c f s).limit = s.limit ∧
    (modCore c f s).tables = s.tables ∧ (modCore c f s).ruleGroups = s.ruleGroups ∧ (modCore c f s).sets = s.sets ∧ (modCore c f s).pkts = s.pkts ∧
    (modCore c f s).nextPkt = s.nextPkt ∧ (modCore c f s).hdrSlot = s.hdrSlot ∧ (modCore c f s).dc0 = s.dc0 ∧ (modCore c f s).dc1 = s.dc1 ∧
    (modCore c f s).bridgeTx = s.bridgeTx ∧ (modCore c f s).bridgeRx = s.bridgeRx ∧ (modCore c f s).buf = s.buf ∧ (modCore c f s).sched = s.sched ∧
    (modCore c f s).fabric = s.fabric ∧ (modCore c f s).pair = s.pair ∧ (modCore c f s).host = s.host ∧ (modCore c f s).monitors = s.monitors ∧
    (modCore c f s).dumps = s.dumps ∧ (modCore c f s).counters = s.counters ∧ (modCore c f s).hbm = s.hbm ∧ (modCore c f s).pchans = s.pchans ∧
    (modCore c f s).faults = s.faults ∧ (modCore c f s).boot = s.boot ∧ (modCore c f s).power = s.power ∧ (modCore c f s).mem = s.mem ∧
    (modCore c f s).pins = s.pins ∧ (modCore c f s).out = s.out ∧ (modCore c f s).freeCtr = s.freeCtr := by
  and_intros <;> rfl

@[simp] theorem modCluster_frame (c : Nat) (f : Cluster → Cluster) (s : State) :
    (modCluster c f s).pending = s.pending ∧ (modCluster c f s).mgt = s.mgt ∧ (modCluster c f s).journal = s.journal ∧
    (modCluster c f s).time = s.time ∧ (modCluster c f s).ports = s.ports ∧ (modCluster c f s).lines = s.lines ∧
    (modCluster c f s).groups = s.groups ∧ (modCluster c f s).staging = s.staging ∧ (modCluster c f s).bank = s.bank ∧
    (modCluster c f s).bankOld = s.bankOld ∧ (modCluster c f s).buckets = s.buckets ∧ (modCluster c f s).mirrors = s.mirrors ∧
    (modCluster c f s).samplers = s.samplers ∧ (modCluster c f s).allowance = s.allowance ∧ (modCluster c f s).allowAt = s.allowAt ∧
    (modCluster c f s).holdClocks = s.holdClocks ∧ (modCluster c f s).retrainHold = s.retrainHold ∧ (modCluster c f s).limit = s.limit ∧
    (modCluster c f s).tables = s.tables ∧ (modCluster c f s).ruleGroups = s.ruleGroups ∧ (modCluster c f s).sets = s.sets ∧
    (modCluster c f s).pkts = s.pkts ∧ (modCluster c f s).nextPkt = s.nextPkt ∧ (modCluster c f s).hdrSlot = s.hdrSlot ∧
    (modCluster c f s).dc0 = s.dc0 ∧ (modCluster c f s).dc1 = s.dc1 ∧ (modCluster c f s).bridgeTx = s.bridgeTx ∧
    (modCluster c f s).bridgeRx = s.bridgeRx ∧ (modCluster c f s).buf = s.buf ∧ (modCluster c f s).sched = s.sched ∧
    (modCluster c f s).fabric = s.fabric ∧ (modCluster c f s).pair = s.pair ∧ (modCluster c f s).host = s.host ∧
    (modCluster c f s).monitors = s.monitors ∧ (modCluster c f s).dumps = s.dumps ∧ (modCluster c f s).counters = s.counters ∧
    (modCluster c f s).hbm = s.hbm ∧ (modCluster c f s).pchans = s.pchans ∧ (modCluster c f s).faults = s.faults ∧ (modCluster c f s).boot = s.boot ∧
    (modCluster c f s).power = s.power ∧ (modCluster c f s).mem = s.mem ∧ (modCluster c f s).pins = s.pins ∧ (modCluster c f s).out = s.out ∧
    (modCluster c f s).freeCtr = s.freeCtr := by
  and_intros <;> rfl

@[simp] theorem modChannel_frame (k : Nat) (f : Channel → Channel) (s : State) :
    (modChannel k f s).pending = s.pending ∧ (modChannel k f s).mgt = s.mgt ∧ (modChannel k f s).journal = s.journal ∧
    (modChannel k f s).time = s.time ∧ (modChannel k f s).ports = s.ports ∧ (modChannel k f s).lines = s.lines ∧
    (modChannel k f s).groups = s.groups ∧ (modChannel k f s).staging = s.staging ∧ (modChannel k f s).bank = s.bank ∧
    (modChannel k f s).bankOld = s.bankOld ∧ (modChannel k f s).buckets = s.buckets ∧ (modChannel k f s).mirrors = s.mirrors ∧
    (modChannel k f s).samplers = s.samplers ∧ (modChannel k f s).allowance = s.allowance ∧ (modChannel k f s).allowAt = s.allowAt ∧
    (modChannel k f s).holdClocks = s.holdClocks ∧ (modChannel k f s).retrainHold = s.retrainHold ∧ (modChannel k f s).limit = s.limit ∧
    (modChannel k f s).tables = s.tables ∧ (modChannel k f s).ruleGroups = s.ruleGroups ∧ (modChannel k f s).sets = s.sets ∧
    (modChannel k f s).pkts = s.pkts ∧ (modChannel k f s).nextPkt = s.nextPkt ∧ (modChannel k f s).hdrSlot = s.hdrSlot ∧
    (modChannel k f s).dc0 = s.dc0 ∧ (modChannel k f s).dc1 = s.dc1 ∧ (modChannel k f s).bridgeTx = s.bridgeTx ∧
    (modChannel k f s).bridgeRx = s.bridgeRx ∧ (modChannel k f s).buf = s.buf ∧ (modChannel k f s).sched = s.sched ∧
    (modChannel k f s).fabric = s.fabric ∧ (modChannel k f s).pair = s.pair ∧ (modChannel k f s).host = s.host ∧
    (modChannel k f s).monitors = s.monitors ∧ (modChannel k f s).dumps = s.dumps ∧ (modChannel k f s).counters = s.counters ∧
    (modChannel k f s).hbm = s.hbm ∧ (modChannel k f s).pchans = s.pchans ∧ (modChannel k f s).faults = s.faults ∧ (modChannel k f s).boot = s.boot ∧
    (modChannel k f s).power = s.power ∧ (modChannel k f s).mem = s.mem ∧ (modChannel k f s).pins = s.pins ∧ (modChannel k f s).out = s.out ∧
    (modChannel k f s).freeCtr = s.freeCtr := by
  and_intros <;> rfl

@[simp] theorem modHbm_frame (n : Nat) (f : Stack → Stack) (s : State) :
    (modHbm n f s).pending = s.pending ∧ (modHbm n f s).mgt = s.mgt ∧ (modHbm n f s).journal = s.journal ∧ (modHbm n f s).time = s.time ∧
    (modHbm n f s).ports = s.ports ∧ (modHbm n f s).lines = s.lines ∧ (modHbm n f s).groups = s.groups ∧ (modHbm n f s).staging = s.staging ∧
    (modHbm n f s).bank = s.bank ∧ (modHbm n f s).bankOld = s.bankOld ∧ (modHbm n f s).buckets = s.buckets ∧ (modHbm n f s).mirrors = s.mirrors ∧
    (modHbm n f s).samplers = s.samplers ∧ (modHbm n f s).allowance = s.allowance ∧ (modHbm n f s).allowAt = s.allowAt ∧
    (modHbm n f s).holdClocks = s.holdClocks ∧ (modHbm n f s).retrainHold = s.retrainHold ∧ (modHbm n f s).limit = s.limit ∧
    (modHbm n f s).tables = s.tables ∧ (modHbm n f s).ruleGroups = s.ruleGroups ∧ (modHbm n f s).sets = s.sets ∧ (modHbm n f s).pkts = s.pkts ∧
    (modHbm n f s).nextPkt = s.nextPkt ∧ (modHbm n f s).hdrSlot = s.hdrSlot ∧ (modHbm n f s).dc0 = s.dc0 ∧ (modHbm n f s).dc1 = s.dc1 ∧
    (modHbm n f s).bridgeTx = s.bridgeTx ∧ (modHbm n f s).bridgeRx = s.bridgeRx ∧ (modHbm n f s).buf = s.buf ∧ (modHbm n f s).sched = s.sched ∧
    (modHbm n f s).fabric = s.fabric ∧ (modHbm n f s).pair = s.pair ∧ (modHbm n f s).tahr = s.tahr ∧ (modHbm n f s).host = s.host ∧
    (modHbm n f s).monitors = s.monitors ∧ (modHbm n f s).dumps = s.dumps ∧ (modHbm n f s).counters = s.counters ∧ (modHbm n f s).pchans = s.pchans ∧
    (modHbm n f s).faults = s.faults ∧ (modHbm n f s).boot = s.boot ∧ (modHbm n f s).power = s.power ∧ (modHbm n f s).mem = s.mem ∧
    (modHbm n f s).pins = s.pins ∧ (modHbm n f s).out = s.out ∧ (modHbm n f s).freeCtr = s.freeCtr := by
  and_intros <;> rfl

@[simp] theorem modPchan_frame (p : Nat) (f : PChan → PChan) (s : State) :
    (modPchan p f s).pending = s.pending ∧ (modPchan p f s).mgt = s.mgt ∧ (modPchan p f s).journal = s.journal ∧ (modPchan p f s).time = s.time ∧
    (modPchan p f s).ports = s.ports ∧ (modPchan p f s).lines = s.lines ∧ (modPchan p f s).groups = s.groups ∧ (modPchan p f s).staging = s.staging ∧
    (modPchan p f s).bank = s.bank ∧ (modPchan p f s).bankOld = s.bankOld ∧ (modPchan p f s).buckets = s.buckets ∧
    (modPchan p f s).mirrors = s.mirrors ∧ (modPchan p f s).samplers = s.samplers ∧ (modPchan p f s).allowance = s.allowance ∧
    (modPchan p f s).allowAt = s.allowAt ∧ (modPchan p f s).holdClocks = s.holdClocks ∧ (modPchan p f s).retrainHold = s.retrainHold ∧
    (modPchan p f s).limit = s.limit ∧ (modPchan p f s).tables = s.tables ∧ (modPchan p f s).ruleGroups = s.ruleGroups ∧
    (modPchan p f s).sets = s.sets ∧ (modPchan p f s).pkts = s.pkts ∧ (modPchan p f s).nextPkt = s.nextPkt ∧ (modPchan p f s).hdrSlot = s.hdrSlot ∧
    (modPchan p f s).dc0 = s.dc0 ∧ (modPchan p f s).dc1 = s.dc1 ∧ (modPchan p f s).bridgeTx = s.bridgeTx ∧ (modPchan p f s).bridgeRx = s.bridgeRx ∧
    (modPchan p f s).buf = s.buf ∧ (modPchan p f s).sched = s.sched ∧ (modPchan p f s).fabric = s.fabric ∧ (modPchan p f s).pair = s.pair ∧
    (modPchan p f s).tahr = s.tahr ∧ (modPchan p f s).host = s.host ∧ (modPchan p f s).monitors = s.monitors ∧ (modPchan p f s).dumps = s.dumps ∧
    (modPchan p f s).counters = s.counters ∧ (modPchan p f s).hbm = s.hbm ∧ (modPchan p f s).faults = s.faults ∧ (modPchan p f s).boot = s.boot ∧
    (modPchan p f s).power = s.power ∧ (modPchan p f s).mem = s.mem ∧ (modPchan p f s).pins = s.pins ∧ (modPchan p f s).out = s.out ∧
    (modPchan p f s).freeCtr = s.freeCtr := by
  and_intros <;> rfl

@[simp] theorem modDomain_frame (d : Nat) (f : Domain → Domain) (s : State) :
    (modDomain d f s).pending = s.pending ∧ (modDomain d f s).mgt = s.mgt ∧ (modDomain d f s).journal = s.journal ∧ (modDomain d f s).time = s.time ∧
    (modDomain d f s).ports = s.ports ∧ (modDomain d f s).lines = s.lines ∧ (modDomain d f s).groups = s.groups ∧
    (modDomain d f s).staging = s.staging ∧ (modDomain d f s).bank = s.bank ∧ (modDomain d f s).bankOld = s.bankOld ∧
    (modDomain d f s).buckets = s.buckets ∧ (modDomain d f s).mirrors = s.mirrors ∧ (modDomain d f s).samplers = s.samplers ∧
    (modDomain d f s).allowance = s.allowance ∧ (modDomain d f s).allowAt = s.allowAt ∧ (modDomain d f s).holdClocks = s.holdClocks ∧
    (modDomain d f s).retrainHold = s.retrainHold ∧ (modDomain d f s).limit = s.limit ∧ (modDomain d f s).tables = s.tables ∧
    (modDomain d f s).ruleGroups = s.ruleGroups ∧ (modDomain d f s).sets = s.sets ∧ (modDomain d f s).pkts = s.pkts ∧
    (modDomain d f s).nextPkt = s.nextPkt ∧ (modDomain d f s).hdrSlot = s.hdrSlot ∧ (modDomain d f s).dc0 = s.dc0 ∧ (modDomain d f s).dc1 = s.dc1 ∧
    (modDomain d f s).bridgeTx = s.bridgeTx ∧ (modDomain d f s).bridgeRx = s.bridgeRx ∧ (modDomain d f s).buf = s.buf ∧
    (modDomain d f s).sched = s.sched ∧ (modDomain d f s).fabric = s.fabric ∧ (modDomain d f s).pair = s.pair ∧ (modDomain d f s).tahr = s.tahr ∧
    (modDomain d f s).host = s.host ∧ (modDomain d f s).monitors = s.monitors ∧ (modDomain d f s).dumps = s.dumps ∧
    (modDomain d f s).counters = s.counters ∧ (modDomain d f s).hbm = s.hbm ∧ (modDomain d f s).pchans = s.pchans ∧
    (modDomain d f s).faults = s.faults ∧ (modDomain d f s).boot = s.boot ∧ (modDomain d f s).mem = s.mem ∧ (modDomain d f s).pins = s.pins ∧
    (modDomain d f s).out = s.out ∧ (modDomain d f s).freeCtr = s.freeCtr := by
  and_intros <;> rfl

@[simp] theorem modRing_frame (k : Nat) (f : MbRing → MbRing) (s : State) :
    (modRing k f s).pending = s.pending ∧ (modRing k f s).journal = s.journal ∧ (modRing k f s).time = s.time ∧ (modRing k f s).ports = s.ports ∧
    (modRing k f s).lines = s.lines ∧ (modRing k f s).groups = s.groups ∧ (modRing k f s).staging = s.staging ∧ (modRing k f s).bank = s.bank ∧
    (modRing k f s).bankOld = s.bankOld ∧ (modRing k f s).buckets = s.buckets ∧ (modRing k f s).mirrors = s.mirrors ∧
    (modRing k f s).samplers = s.samplers ∧ (modRing k f s).allowance = s.allowance ∧ (modRing k f s).allowAt = s.allowAt ∧
    (modRing k f s).holdClocks = s.holdClocks ∧ (modRing k f s).retrainHold = s.retrainHold ∧ (modRing k f s).limit = s.limit ∧
    (modRing k f s).tables = s.tables ∧ (modRing k f s).ruleGroups = s.ruleGroups ∧ (modRing k f s).sets = s.sets ∧ (modRing k f s).pkts = s.pkts ∧
    (modRing k f s).nextPkt = s.nextPkt ∧ (modRing k f s).hdrSlot = s.hdrSlot ∧ (modRing k f s).dc0 = s.dc0 ∧ (modRing k f s).dc1 = s.dc1 ∧
    (modRing k f s).bridgeTx = s.bridgeTx ∧ (modRing k f s).bridgeRx = s.bridgeRx ∧ (modRing k f s).buf = s.buf ∧ (modRing k f s).sched = s.sched ∧
    (modRing k f s).fabric = s.fabric ∧ (modRing k f s).pair = s.pair ∧ (modRing k f s).tahr = s.tahr ∧ (modRing k f s).host = s.host ∧
    (modRing k f s).monitors = s.monitors ∧ (modRing k f s).dumps = s.dumps ∧ (modRing k f s).counters = s.counters ∧ (modRing k f s).hbm = s.hbm ∧
    (modRing k f s).pchans = s.pchans ∧ (modRing k f s).faults = s.faults ∧ (modRing k f s).boot = s.boot ∧ (modRing k f s).power = s.power ∧
    (modRing k f s).mem = s.mem ∧ (modRing k f s).pins = s.pins ∧ (modRing k f s).out = s.out ∧ (modRing k f s).freeCtr = s.freeCtr := by
  and_intros <;> rfl

@[simp] theorem modTarget_frame (t : Nat) (f : Target → Target) (s : State) :
    (modTarget t f s).pending = s.pending ∧ (modTarget t f s).mgt = s.mgt ∧ (modTarget t f s).journal = s.journal ∧ (modTarget t f s).time = s.time ∧
    (modTarget t f s).ports = s.ports ∧ (modTarget t f s).lines = s.lines ∧ (modTarget t f s).groups = s.groups ∧
    (modTarget t f s).staging = s.staging ∧ (modTarget t f s).bank = s.bank ∧ (modTarget t f s).bankOld = s.bankOld ∧
    (modTarget t f s).buckets = s.buckets ∧ (modTarget t f s).mirrors = s.mirrors ∧ (modTarget t f s).samplers = s.samplers ∧
    (modTarget t f s).allowance = s.allowance ∧ (modTarget t f s).allowAt = s.allowAt ∧ (modTarget t f s).holdClocks = s.holdClocks ∧
    (modTarget t f s).retrainHold = s.retrainHold ∧ (modTarget t f s).limit = s.limit ∧ (modTarget t f s).tables = s.tables ∧
    (modTarget t f s).ruleGroups = s.ruleGroups ∧ (modTarget t f s).sets = s.sets ∧ (modTarget t f s).pkts = s.pkts ∧
    (modTarget t f s).nextPkt = s.nextPkt ∧ (modTarget t f s).hdrSlot = s.hdrSlot ∧ (modTarget t f s).dc0 = s.dc0 ∧ (modTarget t f s).dc1 = s.dc1 ∧
    (modTarget t f s).bridgeTx = s.bridgeTx ∧ (modTarget t f s).bridgeRx = s.bridgeRx ∧ (modTarget t f s).buf = s.buf ∧
    (modTarget t f s).fabric = s.fabric ∧ (modTarget t f s).pair = s.pair ∧ (modTarget t f s).tahr = s.tahr ∧ (modTarget t f s).host = s.host ∧
    (modTarget t f s).monitors = s.monitors ∧ (modTarget t f s).dumps = s.dumps ∧ (modTarget t f s).counters = s.counters ∧
    (modTarget t f s).hbm = s.hbm ∧ (modTarget t f s).pchans = s.pchans ∧ (modTarget t f s).faults = s.faults ∧ (modTarget t f s).boot = s.boot ∧
    (modTarget t f s).power = s.power ∧ (modTarget t f s).mem = s.mem ∧ (modTarget t f s).pins = s.pins ∧ (modTarget t f s).out = s.out ∧
    (modTarget t f s).freeCtr = s.freeCtr := by
  and_intros <;> rfl

@[simp] theorem modPeer_frame (d : Nat) (f : Peer → Peer) (s : State) :
    (modPeer d f s).pending = s.pending ∧ (modPeer d f s).mgt = s.mgt ∧ (modPeer d f s).journal = s.journal ∧ (modPeer d f s).time = s.time ∧
    (modPeer d f s).ports = s.ports ∧ (modPeer d f s).lines = s.lines ∧ (modPeer d f s).groups = s.groups ∧ (modPeer d f s).staging = s.staging ∧
    (modPeer d f s).bank = s.bank ∧ (modPeer d f s).bankOld = s.bankOld ∧ (modPeer d f s).buckets = s.buckets ∧ (modPeer d f s).mirrors = s.mirrors ∧
    (modPeer d f s).samplers = s.samplers ∧ (modPeer d f s).allowance = s.allowance ∧ (modPeer d f s).allowAt = s.allowAt ∧
    (modPeer d f s).holdClocks = s.holdClocks ∧ (modPeer d f s).retrainHold = s.retrainHold ∧ (modPeer d f s).limit = s.limit ∧
    (modPeer d f s).tables = s.tables ∧ (modPeer d f s).ruleGroups = s.ruleGroups ∧ (modPeer d f s).sets = s.sets ∧ (modPeer d f s).pkts = s.pkts ∧
    (modPeer d f s).nextPkt = s.nextPkt ∧ (modPeer d f s).hdrSlot = s.hdrSlot ∧ (modPeer d f s).dc0 = s.dc0 ∧ (modPeer d f s).dc1 = s.dc1 ∧
    (modPeer d f s).bridgeTx = s.bridgeTx ∧ (modPeer d f s).bridgeRx = s.bridgeRx ∧ (modPeer d f s).buf = s.buf ∧ (modPeer d f s).sched = s.sched ∧
    (modPeer d f s).pair = s.pair ∧ (modPeer d f s).tahr = s.tahr ∧ (modPeer d f s).host = s.host ∧ (modPeer d f s).monitors = s.monitors ∧
    (modPeer d f s).dumps = s.dumps ∧ (modPeer d f s).counters = s.counters ∧ (modPeer d f s).hbm = s.hbm ∧ (modPeer d f s).pchans = s.pchans ∧
    (modPeer d f s).faults = s.faults ∧ (modPeer d f s).boot = s.boot ∧ (modPeer d f s).power = s.power ∧ (modPeer d f s).mem = s.mem ∧
    (modPeer d f s).pins = s.pins ∧ (modPeer d f s).out = s.out ∧ (modPeer d f s).freeCtr = s.freeCtr := by
  and_intros <;> rfl

@[simp] theorem modNode_frame (n : Nat) (f : Node → Node) (s : State) :
    (modNode n f s).pending = s.pending ∧ (modNode n f s).mgt = s.mgt ∧ (modNode n f s).journal = s.journal ∧ (modNode n f s).time = s.time ∧
    (modNode n f s).ports = s.ports ∧ (modNode n f s).lines = s.lines ∧ (modNode n f s).groups = s.groups ∧ (modNode n f s).staging = s.staging ∧
    (modNode n f s).bank = s.bank ∧ (modNode n f s).bankOld = s.bankOld ∧ (modNode n f s).buckets = s.buckets ∧ (modNode n f s).mirrors = s.mirrors ∧
    (modNode n f s).samplers = s.samplers ∧ (modNode n f s).allowance = s.allowance ∧ (modNode n f s).allowAt = s.allowAt ∧
    (modNode n f s).holdClocks = s.holdClocks ∧ (modNode n f s).retrainHold = s.retrainHold ∧ (modNode n f s).limit = s.limit ∧
    (modNode n f s).tables = s.tables ∧ (modNode n f s).ruleGroups = s.ruleGroups ∧ (modNode n f s).sets = s.sets ∧ (modNode n f s).pkts = s.pkts ∧
    (modNode n f s).nextPkt = s.nextPkt ∧ (modNode n f s).hdrSlot = s.hdrSlot ∧ (modNode n f s).dc0 = s.dc0 ∧ (modNode n f s).dc1 = s.dc1 ∧
    (modNode n f s).bridgeTx = s.bridgeTx ∧ (modNode n f s).bridgeRx = s.bridgeRx ∧ (modNode n f s).buf = s.buf ∧ (modNode n f s).fabric = s.fabric ∧
    (modNode n f s).pair = s.pair ∧ (modNode n f s).tahr = s.tahr ∧ (modNode n f s).host = s.host ∧ (modNode n f s).monitors = s.monitors ∧
    (modNode n f s).dumps = s.dumps ∧ (modNode n f s).counters = s.counters ∧ (modNode n f s).hbm = s.hbm ∧ (modNode n f s).pchans = s.pchans ∧
    (modNode n f s).faults = s.faults ∧ (modNode n f s).boot = s.boot ∧ (modNode n f s).power = s.power ∧ (modNode n f s).mem = s.mem ∧
    (modNode n f s).pins = s.pins ∧ (modNode n f s).out = s.out ∧ (modNode n f s).freeCtr = s.freeCtr := by
  and_intros <;> rfl

@[simp] theorem modGate_frame (p : Nat) (f : Gate → Gate) (s : State) :
    (modGate p f s).pending = s.pending ∧ (modGate p f s).mgt = s.mgt ∧ (modGate p f s).journal = s.journal ∧ (modGate p f s).time = s.time ∧
    (modGate p f s).ports = s.ports ∧ (modGate p f s).lines = s.lines ∧ (modGate p f s).groups = s.groups ∧ (modGate p f s).staging = s.staging ∧
    (modGate p f s).bank = s.bank ∧ (modGate p f s).bankOld = s.bankOld ∧ (modGate p f s).buckets = s.buckets ∧ (modGate p f s).mirrors = s.mirrors ∧
    (modGate p f s).samplers = s.samplers ∧ (modGate p f s).allowance = s.allowance ∧ (modGate p f s).allowAt = s.allowAt ∧
    (modGate p f s).holdClocks = s.holdClocks ∧ (modGate p f s).retrainHold = s.retrainHold ∧ (modGate p f s).limit = s.limit ∧
    (modGate p f s).tables = s.tables ∧ (modGate p f s).ruleGroups = s.ruleGroups ∧ (modGate p f s).sets = s.sets ∧ (modGate p f s).pkts = s.pkts ∧
    (modGate p f s).nextPkt = s.nextPkt ∧ (modGate p f s).hdrSlot = s.hdrSlot ∧ (modGate p f s).dc0 = s.dc0 ∧ (modGate p f s).dc1 = s.dc1 ∧
    (modGate p f s).bridgeTx = s.bridgeTx ∧ (modGate p f s).bridgeRx = s.bridgeRx ∧ (modGate p f s).buf = s.buf ∧ (modGate p f s).fabric = s.fabric ∧
    (modGate p f s).pair = s.pair ∧ (modGate p f s).tahr = s.tahr ∧ (modGate p f s).host = s.host ∧ (modGate p f s).monitors = s.monitors ∧
    (modGate p f s).dumps = s.dumps ∧ (modGate p f s).counters = s.counters ∧ (modGate p f s).hbm = s.hbm ∧ (modGate p f s).pchans = s.pchans ∧
    (modGate p f s).faults = s.faults ∧ (modGate p f s).boot = s.boot ∧ (modGate p f s).power = s.power ∧ (modGate p f s).mem = s.mem ∧
    (modGate p f s).pins = s.pins ∧ (modGate p f s).out = s.out ∧ (modGate p f s).freeCtr = s.freeCtr := by
  and_intros <;> rfl

@[simp] theorem modSet_frame (n : Nat) (f : CmdSet → CmdSet) (s : State) :
    (modSet n f s).pending = s.pending ∧ (modSet n f s).mgt = s.mgt ∧ (modSet n f s).journal = s.journal ∧ (modSet n f s).time = s.time ∧
    (modSet n f s).ports = s.ports ∧ (modSet n f s).lines = s.lines ∧ (modSet n f s).groups = s.groups ∧ (modSet n f s).staging = s.staging ∧
    (modSet n f s).bank = s.bank ∧ (modSet n f s).bankOld = s.bankOld ∧ (modSet n f s).buckets = s.buckets ∧ (modSet n f s).mirrors = s.mirrors ∧
    (modSet n f s).samplers = s.samplers ∧ (modSet n f s).allowance = s.allowance ∧ (modSet n f s).allowAt = s.allowAt ∧
    (modSet n f s).holdClocks = s.holdClocks ∧ (modSet n f s).retrainHold = s.retrainHold ∧ (modSet n f s).limit = s.limit ∧
    (modSet n f s).tables = s.tables ∧ (modSet n f s).ruleGroups = s.ruleGroups ∧ (modSet n f s).pkts = s.pkts ∧ (modSet n f s).nextPkt = s.nextPkt ∧
    (modSet n f s).hdrSlot = s.hdrSlot ∧ (modSet n f s).dc0 = s.dc0 ∧ (modSet n f s).dc1 = s.dc1 ∧ (modSet n f s).bridgeTx = s.bridgeTx ∧
    (modSet n f s).bridgeRx = s.bridgeRx ∧ (modSet n f s).buf = s.buf ∧ (modSet n f s).sched = s.sched ∧ (modSet n f s).fabric = s.fabric ∧
    (modSet n f s).pair = s.pair ∧ (modSet n f s).tahr = s.tahr ∧ (modSet n f s).host = s.host ∧ (modSet n f s).monitors = s.monitors ∧
    (modSet n f s).dumps = s.dumps ∧ (modSet n f s).counters = s.counters ∧ (modSet n f s).hbm = s.hbm ∧ (modSet n f s).pchans = s.pchans ∧
    (modSet n f s).faults = s.faults ∧ (modSet n f s).boot = s.boot ∧ (modSet n f s).power = s.power ∧ (modSet n f s).mem = s.mem ∧
    (modSet n f s).pins = s.pins ∧ (modSet n f s).out = s.out ∧ (modSet n f s).freeCtr = s.freeCtr := by
  and_intros <;> rfl

/-- What a fatal event overrides (R437). -/
@[simp] theorem overrideClock_frame (s : State) :
    (overrideClock s).pending = s.pending ∧ (overrideClock s).mgt = s.mgt ∧ (overrideClock s).journal = s.journal ∧ (overrideClock s).time = s.time ∧
    (overrideClock s).ports = s.ports ∧ (overrideClock s).lines = s.lines ∧ (overrideClock s).groups = s.groups ∧
    (overrideClock s).staging = s.staging ∧ (overrideClock s).bank = s.bank ∧ (overrideClock s).bankOld = s.bankOld ∧
    (overrideClock s).buckets = s.buckets ∧ (overrideClock s).mirrors = s.mirrors ∧ (overrideClock s).samplers = s.samplers ∧
    (overrideClock s).allowance = s.allowance ∧ (overrideClock s).allowAt = s.allowAt ∧ (overrideClock s).holdClocks = s.holdClocks ∧
    (overrideClock s).retrainHold = s.retrainHold ∧ (overrideClock s).limit = s.limit ∧ (overrideClock s).tables = s.tables ∧
    (overrideClock s).ruleGroups = s.ruleGroups ∧ (overrideClock s).sets = s.sets ∧ (overrideClock s).pkts = s.pkts ∧
    (overrideClock s).nextPkt = s.nextPkt ∧ (overrideClock s).hdrSlot = s.hdrSlot ∧ (overrideClock s).dc0 = s.dc0 ∧ (overrideClock s).dc1 = s.dc1 ∧
    (overrideClock s).bridgeTx = s.bridgeTx ∧ (overrideClock s).bridgeRx = s.bridgeRx ∧ (overrideClock s).buf = s.buf ∧
    (overrideClock s).sched = s.sched ∧ (overrideClock s).fabric = s.fabric ∧ (overrideClock s).pair = s.pair ∧ (overrideClock s).tahr = s.tahr ∧
    (overrideClock s).host = s.host ∧ (overrideClock s).monitors = s.monitors ∧ (overrideClock s).dumps = s.dumps ∧
    (overrideClock s).counters = s.counters ∧ (overrideClock s).hbm = s.hbm ∧ (overrideClock s).pchans = s.pchans ∧ (overrideClock s).boot = s.boot ∧
    (overrideClock s).power = s.power ∧ (overrideClock s).mem = s.mem ∧ (overrideClock s).pins = s.pins ∧ (overrideClock s).out = s.out ∧
    (overrideClock s).freeCtr = s.freeCtr := by
  and_intros <;> rfl

@[simp] theorem learnDrop_frame (s : State) :
    (learnDrop s).pending = s.pending ∧ (learnDrop s).mgt = s.mgt ∧ (learnDrop s).time = s.time ∧ (learnDrop s).ports = s.ports ∧
    (learnDrop s).lines = s.lines ∧ (learnDrop s).groups = s.groups ∧ (learnDrop s).staging = s.staging ∧ (learnDrop s).bank = s.bank ∧
    (learnDrop s).bankOld = s.bankOld ∧ (learnDrop s).buckets = s.buckets ∧ (learnDrop s).mirrors = s.mirrors ∧ (learnDrop s).samplers = s.samplers ∧
    (learnDrop s).allowance = s.allowance ∧ (learnDrop s).allowAt = s.allowAt ∧ (learnDrop s).holdClocks = s.holdClocks ∧
    (learnDrop s).retrainHold = s.retrainHold ∧ (learnDrop s).limit = s.limit ∧ (learnDrop s).tables = s.tables ∧
    (learnDrop s).ruleGroups = s.ruleGroups ∧ (learnDrop s).sets = s.sets ∧ (learnDrop s).pkts = s.pkts ∧ (learnDrop s).nextPkt = s.nextPkt ∧
    (learnDrop s).hdrSlot = s.hdrSlot ∧ (learnDrop s).dc0 = s.dc0 ∧ (learnDrop s).dc1 = s.dc1 ∧ (learnDrop s).bridgeTx = s.bridgeTx ∧
    (learnDrop s).bridgeRx = s.bridgeRx ∧ (learnDrop s).buf = s.buf ∧ (learnDrop s).sched = s.sched ∧ (learnDrop s).fabric = s.fabric ∧
    (learnDrop s).pair = s.pair ∧ (learnDrop s).tahr = s.tahr ∧ (learnDrop s).host = s.host ∧ (learnDrop s).monitors = s.monitors ∧
    (learnDrop s).dumps = s.dumps ∧ (learnDrop s).counters = s.counters ∧ (learnDrop s).hbm = s.hbm ∧ (learnDrop s).pchans = s.pchans ∧
    (learnDrop s).faults = s.faults ∧ (learnDrop s).boot = s.boot ∧ (learnDrop s).power = s.power ∧ (learnDrop s).mem = s.mem ∧
    (learnDrop s).pins = s.pins ∧ (learnDrop s).out = s.out ∧ (learnDrop s).freeCtr = s.freeCtr := by
  and_intros <;> rfl

@[simp] theorem monUpdate_frame (point ident : Nat) (f : Monitor → Monitor) (s : State) :
    (monUpdate point ident f s).pending = s.pending ∧ (monUpdate point ident f s).mgt = s.mgt ∧ (monUpdate point ident f s).journal = s.journal ∧
    (monUpdate point ident f s).time = s.time ∧ (monUpdate point ident f s).ports = s.ports ∧ (monUpdate point ident f s).lines = s.lines ∧
    (monUpdate point ident f s).groups = s.groups ∧ (monUpdate point ident f s).staging = s.staging ∧ (monUpdate point ident f s).bank = s.bank ∧
    (monUpdate point ident f s).bankOld = s.bankOld ∧ (monUpdate point ident f s).buckets = s.buckets ∧
    (monUpdate point ident f s).mirrors = s.mirrors ∧ (monUpdate point ident f s).samplers = s.samplers ∧
    (monUpdate point ident f s).allowance = s.allowance ∧ (monUpdate point ident f s).allowAt = s.allowAt ∧
    (monUpdate point ident f s).holdClocks = s.holdClocks ∧ (monUpdate point ident f s).retrainHold = s.retrainHold ∧
    (monUpdate point ident f s).limit = s.limit ∧ (monUpdate point ident f s).tables = s.tables ∧
    (monUpdate point ident f s).ruleGroups = s.ruleGroups ∧ (monUpdate point ident f s).sets = s.sets ∧ (monUpdate point ident f s).pkts = s.pkts ∧
    (monUpdate point ident f s).nextPkt = s.nextPkt ∧ (monUpdate point ident f s).hdrSlot = s.hdrSlot ∧ (monUpdate point ident f s).dc0 = s.dc0 ∧
    (monUpdate point ident f s).dc1 = s.dc1 ∧ (monUpdate point ident f s).bridgeTx = s.bridgeTx ∧ (monUpdate point ident f s).bridgeRx = s.bridgeRx ∧
    (monUpdate point ident f s).buf = s.buf ∧ (monUpdate point ident f s).sched = s.sched ∧ (monUpdate point ident f s).fabric = s.fabric ∧
    (monUpdate point ident f s).pair = s.pair ∧ (monUpdate point ident f s).tahr = s.tahr ∧ (monUpdate point ident f s).host = s.host ∧
    (monUpdate point ident f s).dumps = s.dumps ∧ (monUpdate point ident f s).counters = s.counters ∧ (monUpdate point ident f s).hbm = s.hbm ∧
    (monUpdate point ident f s).pchans = s.pchans ∧ (monUpdate point ident f s).faults = s.faults ∧ (monUpdate point ident f s).boot = s.boot ∧
    (monUpdate point ident f s).power = s.power ∧ (monUpdate point ident f s).mem = s.mem ∧ (monUpdate point ident f s).pins = s.pins ∧
    (monUpdate point ident f s).out = s.out ∧ (monUpdate point ident f s).freeCtr = s.freeCtr := by
  and_intros <;> rfl

@[simp] theorem modQueue_frame (q : QId) (f : Queue → Queue) (s : State) :
    (modQueue q f s).pending = s.pending ∧ (modQueue q f s).mgt = s.mgt ∧ (modQueue q f s).journal = s.journal ∧ (modQueue q f s).time = s.time ∧
    (modQueue q f s).ports = s.ports ∧ (modQueue q f s).lines = s.lines ∧ (modQueue q f s).groups = s.groups ∧ (modQueue q f s).staging = s.staging ∧
    (modQueue q f s).bank = s.bank ∧ (modQueue q f s).bankOld = s.bankOld ∧ (modQueue q f s).buckets = s.buckets ∧
    (modQueue q f s).mirrors = s.mirrors ∧ (modQueue q f s).samplers = s.samplers ∧ (modQueue q f s).allowance = s.allowance ∧
    (modQueue q f s).allowAt = s.allowAt ∧ (modQueue q f s).holdClocks = s.holdClocks ∧ (modQueue q f s).retrainHold = s.retrainHold ∧
    (modQueue q f s).limit = s.limit ∧ (modQueue q f s).tables = s.tables ∧ (modQueue q f s).ruleGroups = s.ruleGroups ∧
    (modQueue q f s).sets = s.sets ∧ (modQueue q f s).pkts = s.pkts ∧ (modQueue q f s).nextPkt = s.nextPkt ∧ (modQueue q f s).hdrSlot = s.hdrSlot ∧
    (modQueue q f s).dc0 = s.dc0 ∧ (modQueue q f s).dc1 = s.dc1 ∧ (modQueue q f s).bridgeTx = s.bridgeTx ∧ (modQueue q f s).bridgeRx = s.bridgeRx ∧
    (modQueue q f s).buf = s.buf ∧ (modQueue q f s).fabric = s.fabric ∧ (modQueue q f s).pair = s.pair ∧ (modQueue q f s).tahr = s.tahr ∧
    (modQueue q f s).host = s.host ∧ (modQueue q f s).monitors = s.monitors ∧ (modQueue q f s).dumps = s.dumps ∧
    (modQueue q f s).counters = s.counters ∧ (modQueue q f s).hbm = s.hbm ∧ (modQueue q f s).pchans = s.pchans ∧ (modQueue q f s).faults = s.faults ∧
    (modQueue q f s).boot = s.boot ∧ (modQueue q f s).power = s.power ∧ (modQueue q f s).mem = s.mem ∧ (modQueue q f s).pins = s.pins ∧
    (modQueue q f s).out = s.out ∧ (modQueue q f s).freeCtr = s.freeCtr := by
  unfold modQueue; (repeat' split) <;> simp

@[simp] theorem modData_frame (k : Nat) (f : Ring → Ring) (s : State) :
    (modData k f s).pending = s.pending ∧ (modData k f s).mgt = s.mgt ∧ (modData k f s).journal = s.journal ∧ (modData k f s).time = s.time ∧
    (modData k f s).ports = s.ports ∧ (modData k f s).lines = s.lines ∧ (modData k f s).groups = s.groups ∧ (modData k f s).staging = s.staging ∧
    (modData k f s).bank = s.bank ∧ (modData k f s).bankOld = s.bankOld ∧ (modData k f s).buckets = s.buckets ∧ (modData k f s).mirrors = s.mirrors ∧
    (modData k f s).samplers = s.samplers ∧ (modData k f s).allowance = s.allowance ∧ (modData k f s).allowAt = s.allowAt ∧
    (modData k f s).holdClocks = s.holdClocks ∧ (modData k f s).retrainHold = s.retrainHold ∧ (modData k f s).limit = s.limit ∧
    (modData k f s).tables = s.tables ∧ (modData k f s).ruleGroups = s.ruleGroups ∧ (modData k f s).sets = s.sets ∧ (modData k f s).pkts = s.pkts ∧
    (modData k f s).nextPkt = s.nextPkt ∧ (modData k f s).hdrSlot = s.hdrSlot ∧ (modData k f s).dc0 = s.dc0 ∧ (modData k f s).dc1 = s.dc1 ∧
    (modData k f s).bridgeTx = s.bridgeTx ∧ (modData k f s).bridgeRx = s.bridgeRx ∧ (modData k f s).buf = s.buf ∧ (modData k f s).sched = s.sched ∧
    (modData k f s).fabric = s.fabric ∧ (modData k f s).pair = s.pair ∧ (modData k f s).tahr = s.tahr ∧ (modData k f s).monitors = s.monitors ∧
    (modData k f s).dumps = s.dumps ∧ (modData k f s).counters = s.counters ∧ (modData k f s).hbm = s.hbm ∧ (modData k f s).pchans = s.pchans ∧
    (modData k f s).faults = s.faults ∧ (modData k f s).boot = s.boot ∧ (modData k f s).power = s.power ∧ (modData k f s).mem = s.mem ∧
    (modData k f s).pins = s.pins ∧ (modData k f s).out = s.out ∧ (modData k f s).freeCtr = s.freeCtr := by
  unfold modData; (repeat' split) <;> simp

@[simp] theorem modSlice_frame (n : Nat) (f : Slice → Slice) (s : State) :
    (modSlice n f s).pending = s.pending ∧ (modSlice n f s).mgt = s.mgt ∧ (modSlice n f s).journal = s.journal ∧ (modSlice n f s).time = s.time ∧
    (modSlice n f s).ports = s.ports ∧ (modSlice n f s).lines = s.lines ∧ (modSlice n f s).groups = s.groups ∧ (modSlice n f s).staging = s.staging ∧
    (modSlice n f s).bank = s.bank ∧ (modSlice n f s).bankOld = s.bankOld ∧ (modSlice n f s).buckets = s.buckets ∧
    (modSlice n f s).mirrors = s.mirrors ∧ (modSlice n f s).samplers = s.samplers ∧ (modSlice n f s).allowance = s.allowance ∧
    (modSlice n f s).allowAt = s.allowAt ∧ (modSlice n f s).holdClocks = s.holdClocks ∧ (modSlice n f s).retrainHold = s.retrainHold ∧
    (modSlice n f s).limit = s.limit ∧ (modSlice n f s).tables = s.tables ∧ (modSlice n f s).ruleGroups = s.ruleGroups ∧
    (modSlice n f s).sets = s.sets ∧ (modSlice n f s).pkts = s.pkts ∧ (modSlice n f s).nextPkt = s.nextPkt ∧ (modSlice n f s).hdrSlot = s.hdrSlot ∧
    (modSlice n f s).dc0 = s.dc0 ∧ (modSlice n f s).dc1 = s.dc1 ∧ (modSlice n f s).bridgeTx = s.bridgeTx ∧ (modSlice n f s).bridgeRx = s.bridgeRx ∧
    (modSlice n f s).buf = s.buf ∧ (modSlice n f s).sched = s.sched ∧ (modSlice n f s).fabric = s.fabric ∧ (modSlice n f s).pair = s.pair ∧
    (modSlice n f s).tahr = s.tahr ∧ (modSlice n f s).monitors = s.monitors ∧ (modSlice n f s).dumps = s.dumps ∧
    (modSlice n f s).counters = s.counters ∧ (modSlice n f s).hbm = s.hbm ∧ (modSlice n f s).pchans = s.pchans ∧ (modSlice n f s).faults = s.faults ∧
    (modSlice n f s).boot = s.boot ∧ (modSlice n f s).power = s.power ∧ (modSlice n f s).mem = s.mem ∧ (modSlice n f s).pins = s.pins ∧
    (modSlice n f s).out = s.out ∧ (modSlice n f s).freeCtr = s.freeCtr := by
  unfold modSlice; (repeat' split) <;> simp

@[simp] theorem modTable_frame (t : Nat) (f : Table → Table) (s : State) :
    (modTable t f s).pending = s.pending ∧ (modTable t f s).mgt = s.mgt ∧ (modTable t f s).journal = s.journal ∧ (modTable t f s).time = s.time ∧
    (modTable t f s).ports = s.ports ∧ (modTable t f s).lines = s.lines ∧ (modTable t f s).groups = s.groups ∧ (modTable t f s).staging = s.staging ∧
    (modTable t f s).bank = s.bank ∧ (modTable t f s).bankOld = s.bankOld ∧ (modTable t f s).buckets = s.buckets ∧
    (modTable t f s).mirrors = s.mirrors ∧ (modTable t f s).samplers = s.samplers ∧ (modTable t f s).allowance = s.allowance ∧
    (modTable t f s).allowAt = s.allowAt ∧ (modTable t f s).holdClocks = s.holdClocks ∧ (modTable t f s).retrainHold = s.retrainHold ∧
    (modTable t f s).limit = s.limit ∧ (modTable t f s).ruleGroups = s.ruleGroups ∧ (modTable t f s).sets = s.sets ∧ (modTable t f s).pkts = s.pkts ∧
    (modTable t f s).nextPkt = s.nextPkt ∧ (modTable t f s).hdrSlot = s.hdrSlot ∧ (modTable t f s).dc0 = s.dc0 ∧ (modTable t f s).dc1 = s.dc1 ∧
    (modTable t f s).bridgeTx = s.bridgeTx ∧ (modTable t f s).bridgeRx = s.bridgeRx ∧ (modTable t f s).buf = s.buf ∧
    (modTable t f s).sched = s.sched ∧ (modTable t f s).fabric = s.fabric ∧ (modTable t f s).pair = s.pair ∧ (modTable t f s).tahr = s.tahr ∧
    (modTable t f s).host = s.host ∧ (modTable t f s).monitors = s.monitors ∧ (modTable t f s).dumps = s.dumps ∧
    (modTable t f s).counters = s.counters ∧ (modTable t f s).hbm = s.hbm ∧ (modTable t f s).pchans = s.pchans ∧ (modTable t f s).faults = s.faults ∧
    (modTable t f s).boot = s.boot ∧ (modTable t f s).power = s.power ∧ (modTable t f s).mem = s.mem ∧ (modTable t f s).pins = s.pins ∧
    (modTable t f s).out = s.out ∧ (modTable t f s).freeCtr = s.freeCtr := by
  unfold modTable; (repeat' split) <;> simp

@[simp] theorem modHead_frame (g : Nat) (f : Head → Head) (s : State) :
    (modHead g f s).pending = s.pending ∧ (modHead g f s).mgt = s.mgt ∧ (modHead g f s).journal = s.journal ∧ (modHead g f s).time = s.time ∧
    (modHead g f s).ports = s.ports ∧ (modHead g f s).lines = s.lines ∧ (modHead g f s).groups = s.groups ∧ (modHead g f s).staging = s.staging ∧
    (modHead g f s).bank = s.bank ∧ (modHead g f s).bankOld = s.bankOld ∧ (modHead g f s).buckets = s.buckets ∧ (modHead g f s).mirrors = s.mirrors ∧
    (modHead g f s).samplers = s.samplers ∧ (modHead g f s).allowance = s.allowance ∧ (modHead g f s).allowAt = s.allowAt ∧
    (modHead g f s).holdClocks = s.holdClocks ∧ (modHead g f s).retrainHold = s.retrainHold ∧ (modHead g f s).limit = s.limit ∧
    (modHead g f s).tables = s.tables ∧ (modHead g f s).ruleGroups = s.ruleGroups ∧ (modHead g f s).sets = s.sets ∧ (modHead g f s).pkts = s.pkts ∧
    (modHead g f s).nextPkt = s.nextPkt ∧ (modHead g f s).hdrSlot = s.hdrSlot ∧ (modHead g f s).dc0 = s.dc0 ∧ (modHead g f s).dc1 = s.dc1 ∧
    (modHead g f s).bridgeTx = s.bridgeTx ∧ (modHead g f s).bridgeRx = s.bridgeRx ∧ (modHead g f s).sched = s.sched ∧
    (modHead g f s).fabric = s.fabric ∧ (modHead g f s).pair = s.pair ∧ (modHead g f s).tahr = s.tahr ∧ (modHead g f s).host = s.host ∧
    (modHead g f s).monitors = s.monitors ∧ (modHead g f s).dumps = s.dumps ∧ (modHead g f s).counters = s.counters ∧ (modHead g f s).hbm = s.hbm ∧
    (modHead g f s).pchans = s.pchans ∧ (modHead g f s).faults = s.faults ∧ (modHead g f s).boot = s.boot ∧ (modHead g f s).power = s.power ∧
    (modHead g f s).mem = s.mem ∧ (modHead g f s).pins = s.pins ∧ (modHead g f s).out = s.out ∧ (modHead g f s).freeCtr = s.freeCtr := by
  unfold modHead; (repeat' split) <;> simp

/-- Counters: nothing else changes, and nothing at all in the safe state (R444). -/
@[simp] theorem count_frame (sec elem pos n : Nat) (s : State) :
    (count sec elem pos n s).pending = s.pending ∧ (count sec elem pos n s).mgt = s.mgt ∧ (count sec elem pos n s).journal = s.journal ∧
    (count sec elem pos n s).time = s.time ∧ (count sec elem pos n s).ports = s.ports ∧ (count sec elem pos n s).lines = s.lines ∧
    (count sec elem pos n s).groups = s.groups ∧ (count sec elem pos n s).staging = s.staging ∧ (count sec elem pos n s).bank = s.bank ∧
    (count sec elem pos n s).bankOld = s.bankOld ∧ (count sec elem pos n s).buckets = s.buckets ∧ (count sec elem pos n s).mirrors = s.mirrors ∧
    (count sec elem pos n s).samplers = s.samplers ∧ (count sec elem pos n s).allowance = s.allowance ∧
    (count sec elem pos n s).allowAt = s.allowAt ∧ (count sec elem pos n s).holdClocks = s.holdClocks ∧
    (count sec elem pos n s).retrainHold = s.retrainHold ∧ (count sec elem pos n s).limit = s.limit ∧ (count sec elem pos n s).tables = s.tables ∧
    (count sec elem pos n s).ruleGroups = s.ruleGroups ∧ (count sec elem pos n s).sets = s.sets ∧ (count sec elem pos n s).pkts = s.pkts ∧
    (count sec elem pos n s).nextPkt = s.nextPkt ∧ (count sec elem pos n s).hdrSlot = s.hdrSlot ∧ (count sec elem pos n s).dc0 = s.dc0 ∧
    (count sec elem pos n s).dc1 = s.dc1 ∧ (count sec elem pos n s).bridgeTx = s.bridgeTx ∧ (count sec elem pos n s).bridgeRx = s.bridgeRx ∧
    (count sec elem pos n s).buf = s.buf ∧ (count sec elem pos n s).sched = s.sched ∧ (count sec elem pos n s).fabric = s.fabric ∧
    (count sec elem pos n s).pair = s.pair ∧ (count sec elem pos n s).tahr = s.tahr ∧ (count sec elem pos n s).host = s.host ∧
    (count sec elem pos n s).monitors = s.monitors ∧ (count sec elem pos n s).dumps = s.dumps ∧ (count sec elem pos n s).hbm = s.hbm ∧
    (count sec elem pos n s).pchans = s.pchans ∧ (count sec elem pos n s).faults = s.faults ∧ (count sec elem pos n s).boot = s.boot ∧
    (count sec elem pos n s).power = s.power ∧ (count sec elem pos n s).mem = s.mem ∧ (count sec elem pos n s).pins = s.pins ∧
    (count sec elem pos n s).out = s.out ∧ (count sec elem pos n s).freeCtr = s.freeCtr := by
  unfold count; (repeat' split) <;> simp

@[simp] theorem notePause_frame (s : State) :
    (notePause s).pending = s.pending ∧ (notePause s).mgt = s.mgt ∧ (notePause s).time = s.time ∧ (notePause s).ports = s.ports ∧
    (notePause s).lines = s.lines ∧ (notePause s).groups = s.groups ∧ (notePause s).staging = s.staging ∧ (notePause s).bank = s.bank ∧
    (notePause s).bankOld = s.bankOld ∧ (notePause s).buckets = s.buckets ∧ (notePause s).mirrors = s.mirrors ∧ (notePause s).samplers = s.samplers ∧
    (notePause s).allowance = s.allowance ∧ (notePause s).allowAt = s.allowAt ∧ (notePause s).holdClocks = s.holdClocks ∧
    (notePause s).retrainHold = s.retrainHold ∧ (notePause s).limit = s.limit ∧ (notePause s).tables = s.tables ∧
    (notePause s).ruleGroups = s.ruleGroups ∧ (notePause s).sets = s.sets ∧ (notePause s).pkts = s.pkts ∧ (notePause s).nextPkt = s.nextPkt ∧
    (notePause s).hdrSlot = s.hdrSlot ∧ (notePause s).dc0 = s.dc0 ∧ (notePause s).dc1 = s.dc1 ∧ (notePause s).bridgeTx = s.bridgeTx ∧
    (notePause s).bridgeRx = s.bridgeRx ∧ (notePause s).buf = s.buf ∧ (notePause s).sched = s.sched ∧ (notePause s).fabric = s.fabric ∧
    (notePause s).pair = s.pair ∧ (notePause s).tahr = s.tahr ∧ (notePause s).host = s.host ∧ (notePause s).monitors = s.monitors ∧
    (notePause s).dumps = s.dumps ∧ (notePause s).counters = s.counters ∧ (notePause s).hbm = s.hbm ∧ (notePause s).pchans = s.pchans ∧
    (notePause s).faults = s.faults ∧ (notePause s).boot = s.boot ∧ (notePause s).power = s.power ∧ (notePause s).mem = s.mem ∧
    (notePause s).pins = s.pins ∧ (notePause s).out = s.out ∧ (notePause s).freeCtr = s.freeCtr := by
  unfold notePause; (repeat' split) <;> simp

/-- The time of a transaction's last command (R78). -/
@[simp] theorem touchTxn_frame (c : Cmd) (s : State) :
    (touchTxn c s).pending = s.pending ∧ (touchTxn c s).journal = s.journal ∧ (touchTxn c s).time = s.time ∧ (touchTxn c s).ports = s.ports ∧
    (touchTxn c s).lines = s.lines ∧ (touchTxn c s).groups = s.groups ∧ (touchTxn c s).staging = s.staging ∧ (touchTxn c s).bank = s.bank ∧
    (touchTxn c s).bankOld = s.bankOld ∧ (touchTxn c s).buckets = s.buckets ∧ (touchTxn c s).mirrors = s.mirrors ∧
    (touchTxn c s).samplers = s.samplers ∧ (touchTxn c s).allowance = s.allowance ∧ (touchTxn c s).allowAt = s.allowAt ∧
    (touchTxn c s).holdClocks = s.holdClocks ∧ (touchTxn c s).retrainHold = s.retrainHold ∧ (touchTxn c s).limit = s.limit ∧
    (touchTxn c s).tables = s.tables ∧ (touchTxn c s).ruleGroups = s.ruleGroups ∧ (touchTxn c s).sets = s.sets ∧ (touchTxn c s).pkts = s.pkts ∧
    (touchTxn c s).nextPkt = s.nextPkt ∧ (touchTxn c s).hdrSlot = s.hdrSlot ∧ (touchTxn c s).dc0 = s.dc0 ∧ (touchTxn c s).dc1 = s.dc1 ∧
    (touchTxn c s).bridgeTx = s.bridgeTx ∧ (touchTxn c s).bridgeRx = s.bridgeRx ∧ (touchTxn c s).buf = s.buf ∧ (touchTxn c s).sched = s.sched ∧
    (touchTxn c s).fabric = s.fabric ∧ (touchTxn c s).pair = s.pair ∧ (touchTxn c s).tahr = s.tahr ∧ (touchTxn c s).host = s.host ∧
    (touchTxn c s).monitors = s.monitors ∧ (touchTxn c s).dumps = s.dumps ∧ (touchTxn c s).counters = s.counters ∧ (touchTxn c s).hbm = s.hbm ∧
    (touchTxn c s).pchans = s.pchans ∧ (touchTxn c s).faults = s.faults ∧ (touchTxn c s).boot = s.boot ∧ (touchTxn c s).power = s.power ∧
    (touchTxn c s).mem = s.mem ∧ (touchTxn c s).pins = s.pins ∧ (touchTxn c s).out = s.out ∧ (touchTxn c s).freeCtr = s.freeCtr := by
  unfold touchTxn; (repeat' split) <;> simp

/-- Arbitration (R44). -/
@[simp] theorem noteDispatch_frame (p : Path) (s : State) :
    (noteDispatch p s).pending = s.pending ∧ (noteDispatch p s).journal = s.journal ∧ (noteDispatch p s).time = s.time ∧
    (noteDispatch p s).ports = s.ports ∧ (noteDispatch p s).lines = s.lines ∧ (noteDispatch p s).groups = s.groups ∧
    (noteDispatch p s).staging = s.staging ∧ (noteDispatch p s).bank = s.bank ∧ (noteDispatch p s).bankOld = s.bankOld ∧
    (noteDispatch p s).buckets = s.buckets ∧ (noteDispatch p s).mirrors = s.mirrors ∧ (noteDispatch p s).samplers = s.samplers ∧
    (noteDispatch p s).allowance = s.allowance ∧ (noteDispatch p s).allowAt = s.allowAt ∧ (noteDispatch p s).holdClocks = s.holdClocks ∧
    (noteDispatch p s).retrainHold = s.retrainHold ∧ (noteDispatch p s).limit = s.limit ∧ (noteDispatch p s).tables = s.tables ∧
    (noteDispatch p s).ruleGroups = s.ruleGroups ∧ (noteDispatch p s).sets = s.sets ∧ (noteDispatch p s).pkts = s.pkts ∧
    (noteDispatch p s).nextPkt = s.nextPkt ∧ (noteDispatch p s).hdrSlot = s.hdrSlot ∧ (noteDispatch p s).dc0 = s.dc0 ∧
    (noteDispatch p s).dc1 = s.dc1 ∧ (noteDispatch p s).bridgeTx = s.bridgeTx ∧ (noteDispatch p s).bridgeRx = s.bridgeRx ∧
    (noteDispatch p s).buf = s.buf ∧ (noteDispatch p s).sched = s.sched ∧ (noteDispatch p s).fabric = s.fabric ∧ (noteDispatch p s).pair = s.pair ∧
    (noteDispatch p s).tahr = s.tahr ∧ (noteDispatch p s).host = s.host ∧ (noteDispatch p s).monitors = s.monitors ∧
    (noteDispatch p s).dumps = s.dumps ∧ (noteDispatch p s).counters = s.counters ∧ (noteDispatch p s).hbm = s.hbm ∧
    (noteDispatch p s).pchans = s.pchans ∧ (noteDispatch p s).faults = s.faults ∧ (noteDispatch p s).boot = s.boot ∧
    (noteDispatch p s).power = s.power ∧ (noteDispatch p s).mem = s.mem ∧ (noteDispatch p s).pins = s.pins ∧ (noteDispatch p s).out = s.out ∧
    (noteDispatch p s).freeCtr = s.freeCtr := by
  unfold noteDispatch; (repeat' split) <;> simp

/-- The pair role and what announces it (R312). -/
@[simp] theorem setRole_frame (r : Nat) (s : State) :
    (setRole r s).pending = s.pending ∧ (setRole r s).mgt = s.mgt ∧ (setRole r s).journal = s.journal ∧ (setRole r s).time = s.time ∧
    (setRole r s).ports = s.ports ∧ (setRole r s).lines = s.lines ∧ (setRole r s).groups = s.groups ∧ (setRole r s).staging = s.staging ∧
    (setRole r s).bank = s.bank ∧ (setRole r s).bankOld = s.bankOld ∧ (setRole r s).buckets = s.buckets ∧ (setRole r s).mirrors = s.mirrors ∧
    (setRole r s).samplers = s.samplers ∧ (setRole r s).allowance = s.allowance ∧ (setRole r s).allowAt = s.allowAt ∧
    (setRole r s).holdClocks = s.holdClocks ∧ (setRole r s).retrainHold = s.retrainHold ∧ (setRole r s).limit = s.limit ∧
    (setRole r s).tables = s.tables ∧ (setRole r s).ruleGroups = s.ruleGroups ∧ (setRole r s).sets = s.sets ∧ (setRole r s).pkts = s.pkts ∧
    (setRole r s).nextPkt = s.nextPkt ∧ (setRole r s).hdrSlot = s.hdrSlot ∧ (setRole r s).dc0 = s.dc0 ∧ (setRole r s).dc1 = s.dc1 ∧
    (setRole r s).bridgeTx = s.bridgeTx ∧ (setRole r s).bridgeRx = s.bridgeRx ∧ (setRole r s).buf = s.buf ∧ (setRole r s).sched = s.sched ∧
    (setRole r s).fabric = s.fabric ∧ (setRole r s).tahr = s.tahr ∧ (setRole r s).host = s.host ∧ (setRole r s).monitors = s.monitors ∧
    (setRole r s).dumps = s.dumps ∧ (setRole r s).counters = s.counters ∧ (setRole r s).hbm = s.hbm ∧ (setRole r s).pchans = s.pchans ∧
    (setRole r s).faults = s.faults ∧ (setRole r s).boot = s.boot ∧ (setRole r s).power = s.power ∧ (setRole r s).mem = s.mem ∧
    (setRole r s).pins = s.pins ∧ (setRole r s).freeCtr = s.freeCtr := by
  unfold setRole; (repeat' split) <;> simp

/-- A pending fault record (R433). -/
@[simp] theorem pendRecord_frame (r : FRec) (s : State) :
    (pendRecord r s).pending = s.pending ∧ (pendRecord r s).mgt = s.mgt ∧ (pendRecord r s).journal = s.journal ∧ (pendRecord r s).time = s.time ∧
    (pendRecord r s).ports = s.ports ∧ (pendRecord r s).lines = s.lines ∧ (pendRecord r s).groups = s.groups ∧ (pendRecord r s).staging = s.staging ∧
    (pendRecord r s).bank = s.bank ∧ (pendRecord r s).bankOld = s.bankOld ∧ (pendRecord r s).buckets = s.buckets ∧
    (pendRecord r s).mirrors = s.mirrors ∧ (pendRecord r s).samplers = s.samplers ∧ (pendRecord r s).allowance = s.allowance ∧
    (pendRecord r s).allowAt = s.allowAt ∧ (pendRecord r s).holdClocks = s.holdClocks ∧ (pendRecord r s).retrainHold = s.retrainHold ∧
    (pendRecord r s).limit = s.limit ∧ (pendRecord r s).tables = s.tables ∧ (pendRecord r s).ruleGroups = s.ruleGroups ∧
    (pendRecord r s).sets = s.sets ∧ (pendRecord r s).pkts = s.pkts ∧ (pendRecord r s).nextPkt = s.nextPkt ∧ (pendRecord r s).hdrSlot = s.hdrSlot ∧
    (pendRecord r s).dc0 = s.dc0 ∧ (pendRecord r s).dc1 = s.dc1 ∧ (pendRecord r s).bridgeTx = s.bridgeTx ∧ (pendRecord r s).bridgeRx = s.bridgeRx ∧
    (pendRecord r s).buf = s.buf ∧ (pendRecord r s).sched = s.sched ∧ (pendRecord r s).fabric = s.fabric ∧ (pendRecord r s).pair = s.pair ∧
    (pendRecord r s).tahr = s.tahr ∧ (pendRecord r s).host = s.host ∧ (pendRecord r s).monitors = s.monitors ∧ (pendRecord r s).dumps = s.dumps ∧
    (pendRecord r s).counters = s.counters ∧ (pendRecord r s).hbm = s.hbm ∧ (pendRecord r s).pchans = s.pchans ∧ (pendRecord r s).boot = s.boot ∧
    (pendRecord r s).power = s.power ∧ (pendRecord r s).mem = s.mem ∧ (pendRecord r s).pins = s.pins ∧ (pendRecord r s).out = s.out ∧
    (pendRecord r s).freeCtr = s.freeCtr := by
  unfold pendRecord; (repeat' split) <;> simp

end Sys2Proof.Machine
end

