-- ==== Sys2Proof/Laws/Ops.lean ====
section
/-! SUPPORT. What each shared operation can do: the parts of the state that it leaves as they were. The parts that are not named are those its definition changes. -/

namespace Sys2Proof.Machine

@[simp] theorem emits_frame (os : List Out) (s : State) :
    (emits os s).pending = s.pending ∧ (emits os s).mgt = s.mgt ∧ (emits os s).journal = s.journal ∧ (emits os s).time = s.time ∧
    (emits os s).ports = s.ports ∧ (emits os s).lines = s.lines ∧ (emits os s).groups = s.groups ∧ (emits os s).staging = s.staging ∧
    (emits os s).bank = s.bank ∧ (emits os s).bankOld = s.bankOld ∧ (emits os s).buckets = s.buckets ∧ (emits os s).mirrors = s.mirrors ∧
    (emits os s).samplers = s.samplers ∧ (emits os s).allowance = s.allowance ∧ (emits os s).allowAt = s.allowAt ∧
    (emits os s).holdClocks = s.holdClocks ∧ (emits os s).retrainHold = s.retrainHold ∧ (emits os s).limit = s.limit ∧
    (emits os s).tables = s.tables ∧ (emits os s).ruleGroups = s.ruleGroups ∧ (emits os s).sets = s.sets ∧ (emits os s).pkts = s.pkts ∧
    (emits os s).nextPkt = s.nextPkt ∧ (emits os s).hdrSlot = s.hdrSlot ∧ (emits os s).dc0 = s.dc0 ∧ (emits os s).dc1 = s.dc1 ∧
    (emits os s).bridgeTx = s.bridgeTx ∧
    (emits os s).bridgeRx = s.bridgeRx ∧ (emits os s).buf = s.buf ∧ (emits os s).sched = s.sched ∧ (emits os s).fabric = s.fabric ∧
    (emits os s).pair = s.pair ∧ (emits os s).tahr = s.tahr ∧ (emits os s).host = s.host ∧ (emits os s).monitors = s.monitors ∧
    (emits os s).dumps = s.dumps ∧ (emits os s).counters = s.counters ∧ (emits os s).hbm = s.hbm ∧ (emits os s).pchans = s.pchans ∧
    (emits os s).faults = s.faults ∧ (emits os s).boot = s.boot ∧ (emits os s).power = s.power ∧ (emits os s).mem = s.mem ∧
    (emits os s).pins = s.pins ∧ (emits os s).freeCtr = s.freeCtr := by
  unfold emits; induction os generalizing s <;> simp_all

@[simp] theorem drawBelow_frame (n : Nat) (s : State) :
    (drawBelow n s).2.pending = s.pending ∧ (drawBelow n s).2.mgt = s.mgt ∧ (drawBelow n s).2.journal = s.journal ∧ (drawBelow n s).2.time = s.time ∧
    (drawBelow n s).2.ports = s.ports ∧ (drawBelow n s).2.lines = s.lines ∧ (drawBelow n s).2.groups = s.groups ∧
    (drawBelow n s).2.staging = s.staging ∧ (drawBelow n s).2.bank = s.bank ∧ (drawBelow n s).2.bankOld = s.bankOld ∧
    (drawBelow n s).2.buckets = s.buckets ∧ (drawBelow n s).2.mirrors = s.mirrors ∧ (drawBelow n s).2.samplers = s.samplers ∧
    (drawBelow n s).2.allowance = s.allowance ∧ (drawBelow n s).2.allowAt = s.allowAt ∧ (drawBelow n s).2.holdClocks = s.holdClocks ∧
    (drawBelow n s).2.retrainHold = s.retrainHold ∧ (drawBelow n s).2.limit = s.limit ∧ (drawBelow n s).2.tables = s.tables ∧
    (drawBelow n s).2.ruleGroups = s.ruleGroups ∧ (drawBelow n s).2.sets = s.sets ∧ (drawBelow n s).2.pkts = s.pkts ∧
    (drawBelow n s).2.nextPkt = s.nextPkt ∧ (drawBelow n s).2.hdrSlot = s.hdrSlot ∧ (drawBelow n s).2.dc0 = s.dc0 ∧ (drawBelow n s).2.dc1 = s.dc1 ∧
    (drawBelow n s).2.bridgeTx = s.bridgeTx ∧ (drawBelow n s).2.bridgeRx = s.bridgeRx ∧ (drawBelow n s).2.buf = s.buf ∧
    (drawBelow n s).2.sched = s.sched ∧ (drawBelow n s).2.fabric = s.fabric ∧ (drawBelow n s).2.pair = s.pair ∧ (drawBelow n s).2.tahr = s.tahr ∧
    (drawBelow n s).2.host = s.host ∧ (drawBelow n s).2.monitors = s.monitors ∧ (drawBelow n s).2.dumps = s.dumps ∧
    (drawBelow n s).2.counters = s.counters ∧ (drawBelow n s).2.hbm = s.hbm ∧ (drawBelow n s).2.pchans = s.pchans ∧
    (drawBelow n s).2.faults = s.faults ∧ (drawBelow n s).2.boot = s.boot ∧ (drawBelow n s).2.power = s.power ∧ (drawBelow n s).2.mem = s.mem ∧
    (drawBelow n s).2.pins = s.pins ∧ (drawBelow n s).2.out = s.out := by
  simp [drawBelow]

@[simp] theorem drawBytes_frame (n : Nat) (s : State) :
    (drawBytes n s).2.pending = s.pending ∧ (drawBytes n s).2.mgt = s.mgt ∧ (drawBytes n s).2.journal = s.journal ∧ (drawBytes n s).2.time = s.time ∧
    (drawBytes n s).2.ports = s.ports ∧ (drawBytes n s).2.lines = s.lines ∧ (drawBytes n s).2.groups = s.groups ∧
    (drawBytes n s).2.staging = s.staging ∧ (drawBytes n s).2.bank = s.bank ∧ (drawBytes n s).2.bankOld = s.bankOld ∧
    (drawBytes n s).2.buckets = s.buckets ∧ (drawBytes n s).2.mirrors = s.mirrors ∧ (drawBytes n s).2.samplers = s.samplers ∧
    (drawBytes n s).2.allowance = s.allowance ∧ (drawBytes n s).2.allowAt = s.allowAt ∧ (drawBytes n s).2.holdClocks = s.holdClocks ∧
    (drawBytes n s).2.retrainHold = s.retrainHold ∧ (drawBytes n s).2.limit = s.limit ∧ (drawBytes n s).2.tables = s.tables ∧
    (drawBytes n s).2.ruleGroups = s.ruleGroups ∧ (drawBytes n s).2.sets = s.sets ∧ (drawBytes n s).2.pkts = s.pkts ∧
    (drawBytes n s).2.nextPkt = s.nextPkt ∧ (drawBytes n s).2.hdrSlot = s.hdrSlot ∧ (drawBytes n s).2.dc0 = s.dc0 ∧ (drawBytes n s).2.dc1 = s.dc1 ∧
    (drawBytes n s).2.bridgeTx = s.bridgeTx ∧ (drawBytes n s).2.bridgeRx = s.bridgeRx ∧ (drawBytes n s).2.buf = s.buf ∧
    (drawBytes n s).2.sched = s.sched ∧ (drawBytes n s).2.fabric = s.fabric ∧ (drawBytes n s).2.pair = s.pair ∧ (drawBytes n s).2.tahr = s.tahr ∧
    (drawBytes n s).2.host = s.host ∧ (drawBytes n s).2.monitors = s.monitors ∧ (drawBytes n s).2.dumps = s.dumps ∧
    (drawBytes n s).2.counters = s.counters ∧ (drawBytes n s).2.hbm = s.hbm ∧ (drawBytes n s).2.pchans = s.pchans ∧
    (drawBytes n s).2.faults = s.faults ∧ (drawBytes n s).2.boot = s.boot ∧ (drawBytes n s).2.power = s.power ∧ (drawBytes n s).2.mem = s.mem ∧
    (drawBytes n s).2.pins = s.pins ∧ (drawBytes n s).2.out = s.out := by
  simp [drawBytes]

/-- Pause frames (R125). -/
@[simp] theorem sendPause_frame (port : Nat) (prio : Option Nat) (q : Nat) (s : State) :
    (sendPause port prio q s).pending = s.pending ∧ (sendPause port prio q s).mgt = s.mgt ∧ (sendPause port prio q s).journal = s.journal ∧
    (sendPause port prio q s).time = s.time ∧ (sendPause port prio q s).lines = s.lines ∧ (sendPause port prio q s).groups = s.groups ∧
    (sendPause port prio q s).staging = s.staging ∧ (sendPause port prio q s).bank = s.bank ∧ (sendPause port prio q s).bankOld = s.bankOld ∧
    (sendPause port prio q s).buckets = s.buckets ∧ (sendPause port prio q s).mirrors = s.mirrors ∧ (sendPause port prio q s).samplers = s.samplers ∧
    (sendPause port prio q s).allowance = s.allowance ∧ (sendPause port prio q s).allowAt = s.allowAt ∧
    (sendPause port prio q s).holdClocks = s.holdClocks ∧ (sendPause port prio q s).retrainHold = s.retrainHold ∧
    (sendPause port prio q s).limit = s.limit ∧ (sendPause port prio q s).tables = s.tables ∧ (sendPause port prio q s).ruleGroups = s.ruleGroups ∧
    (sendPause port prio q s).sets = s.sets ∧ (sendPause port prio q s).pkts = s.pkts ∧ (sendPause port prio q s).nextPkt = s.nextPkt ∧
    (sendPause port prio q s).hdrSlot = s.hdrSlot ∧ (sendPause port prio q s).dc0 = s.dc0 ∧ (sendPause port prio q s).dc1 = s.dc1 ∧
    (sendPause port prio q s).bridgeTx = s.bridgeTx ∧
    (sendPause port prio q s).bridgeRx = s.bridgeRx ∧ (sendPause port prio q s).buf = s.buf ∧ (sendPause port prio q s).sched = s.sched ∧
    (sendPause port prio q s).fabric = s.fabric ∧ (sendPause port prio q s).pair = s.pair ∧ (sendPause port prio q s).tahr = s.tahr ∧
    (sendPause port prio q s).host = s.host ∧ (sendPause port prio q s).monitors = s.monitors ∧ (sendPause port prio q s).dumps = s.dumps ∧
    (sendPause port prio q s).hbm = s.hbm ∧ (sendPause port prio q s).pchans = s.pchans ∧ (sendPause port prio q s).faults = s.faults ∧
    (sendPause port prio q s).boot = s.boot ∧ (sendPause port prio q s).power = s.power ∧ (sendPause port prio q s).mem = s.mem ∧
    (sendPause port prio q s).pins = s.pins ∧ (sendPause port prio q s).freeCtr = s.freeCtr := by
  by_cases h1 : (portOf s port).link = 1 <;> by_cases h2 : trafficOn s = true <;> simp [sendPause, h1, h2]

@[simp] theorem signalXoff_frame (port cls : Nat) (s : State) :
    (signalXoff port cls s).pending = s.pending ∧ (signalXoff port cls s).mgt = s.mgt ∧ (signalXoff port cls s).journal = s.journal ∧
    (signalXoff port cls s).time = s.time ∧ (signalXoff port cls s).lines = s.lines ∧ (signalXoff port cls s).groups = s.groups ∧
    (signalXoff port cls s).staging = s.staging ∧ (signalXoff port cls s).bank = s.bank ∧ (signalXoff port cls s).bankOld = s.bankOld ∧
    (signalXoff port cls s).buckets = s.buckets ∧ (signalXoff port cls s).mirrors = s.mirrors ∧ (signalXoff port cls s).samplers = s.samplers ∧
    (signalXoff port cls s).allowance = s.allowance ∧ (signalXoff port cls s).allowAt = s.allowAt ∧
    (signalXoff port cls s).holdClocks = s.holdClocks ∧ (signalXoff port cls s).retrainHold = s.retrainHold ∧
    (signalXoff port cls s).limit = s.limit ∧ (signalXoff port cls s).tables = s.tables ∧ (signalXoff port cls s).ruleGroups = s.ruleGroups ∧
    (signalXoff port cls s).sets = s.sets ∧ (signalXoff port cls s).pkts = s.pkts ∧ (signalXoff port cls s).nextPkt = s.nextPkt ∧
    (signalXoff port cls s).hdrSlot = s.hdrSlot ∧ (signalXoff port cls s).dc0 = s.dc0 ∧ (signalXoff port cls s).dc1 = s.dc1 ∧
    (signalXoff port cls s).bridgeTx = s.bridgeTx ∧
    (signalXoff port cls s).bridgeRx = s.bridgeRx ∧ (signalXoff port cls s).buf = s.buf ∧ (signalXoff port cls s).sched = s.sched ∧
    (signalXoff port cls s).fabric = s.fabric ∧ (signalXoff port cls s).pair = s.pair ∧ (signalXoff port cls s).tahr = s.tahr ∧
    (signalXoff port cls s).host = s.host ∧ (signalXoff port cls s).monitors = s.monitors ∧ (signalXoff port cls s).dumps = s.dumps ∧
    (signalXoff port cls s).hbm = s.hbm ∧ (signalXoff port cls s).pchans = s.pchans ∧ (signalXoff port cls s).faults = s.faults ∧
    (signalXoff port cls s).boot = s.boot ∧ (signalXoff port cls s).power = s.power ∧ (signalXoff port cls s).mem = s.mem ∧
    (signalXoff port cls s).pins = s.pins ∧ (signalXoff port cls s).freeCtr = s.freeCtr := by
  unfold signalXoff; dsimp only; repeat' split
  all_goals simp

/-- An account enters or leaves XOFF (R239). -/
@[simp] theorem acctUpdate_frame (a : Nat) (s : State) :
    (acctUpdate a s).pending = s.pending ∧ (acctUpdate a s).mgt = s.mgt ∧ (acctUpdate a s).journal = s.journal ∧ (acctUpdate a s).time = s.time ∧
    (acctUpdate a s).lines = s.lines ∧ (acctUpdate a s).groups = s.groups ∧ (acctUpdate a s).staging = s.staging ∧ (acctUpdate a s).bank = s.bank ∧
    (acctUpdate a s).bankOld = s.bankOld ∧ (acctUpdate a s).buckets = s.buckets ∧ (acctUpdate a s).mirrors = s.mirrors ∧
    (acctUpdate a s).samplers = s.samplers ∧ (acctUpdate a s).allowance = s.allowance ∧ (acctUpdate a s).allowAt = s.allowAt ∧
    (acctUpdate a s).holdClocks = s.holdClocks ∧ (acctUpdate a s).retrainHold = s.retrainHold ∧ (acctUpdate a s).limit = s.limit ∧
    (acctUpdate a s).tables = s.tables ∧ (acctUpdate a s).ruleGroups = s.ruleGroups ∧ (acctUpdate a s).sets = s.sets ∧
    (acctUpdate a s).pkts = s.pkts ∧ (acctUpdate a s).nextPkt = s.nextPkt ∧ (acctUpdate a s).hdrSlot = s.hdrSlot ∧ (acctUpdate a s).dc0 = s.dc0 ∧
    (acctUpdate a s).dc1 = s.dc1 ∧
    (acctUpdate a s).bridgeTx = s.bridgeTx ∧ (acctUpdate a s).bridgeRx = s.bridgeRx ∧ (acctUpdate a s).sched = s.sched ∧
    (acctUpdate a s).fabric = s.fabric ∧ (acctUpdate a s).pair = s.pair ∧ (acctUpdate a s).tahr = s.tahr ∧ (acctUpdate a s).host = s.host ∧
    (acctUpdate a s).monitors = s.monitors ∧ (acctUpdate a s).dumps = s.dumps ∧ (acctUpdate a s).hbm = s.hbm ∧ (acctUpdate a s).pchans = s.pchans ∧
    (acctUpdate a s).faults = s.faults ∧ (acctUpdate a s).boot = s.boot ∧ (acctUpdate a s).power = s.power ∧ (acctUpdate a s).mem = s.mem ∧
    (acctUpdate a s).pins = s.pins ∧ (acctUpdate a s).freeCtr = s.freeCtr := by
  unfold acctUpdate; dsimp only; repeat' split
  all_goals simp

@[simp] theorem acctForce_frame (a p : Nat) (s : State) :
    (acctForce a p s).pending = s.pending ∧ (acctForce a p s).mgt = s.mgt ∧ (acctForce a p s).journal = s.journal ∧ (acctForce a p s).time = s.time ∧
    (acctForce a p s).lines = s.lines ∧ (acctForce a p s).groups = s.groups ∧ (acctForce a p s).staging = s.staging ∧
    (acctForce a p s).bank = s.bank ∧ (acctForce a p s).bankOld = s.bankOld ∧ (acctForce a p s).buckets = s.buckets ∧
    (acctForce a p s).mirrors = s.mirrors ∧ (acctForce a p s).samplers = s.samplers ∧ (acctForce a p s).allowance = s.allowance ∧
    (acctForce a p s).allowAt = s.allowAt ∧ (acctForce a p s).holdClocks = s.holdClocks ∧ (acctForce a p s).retrainHold = s.retrainHold ∧
    (acctForce a p s).limit = s.limit ∧ (acctForce a p s).tables = s.tables ∧ (acctForce a p s).ruleGroups = s.ruleGroups ∧
    (acctForce a p s).sets = s.sets ∧ (acctForce a p s).pkts = s.pkts ∧ (acctForce a p s).nextPkt = s.nextPkt ∧
    (acctForce a p s).hdrSlot = s.hdrSlot ∧ (acctForce a p s).dc0 = s.dc0 ∧ (acctForce a p s).dc1 = s.dc1 ∧ (acctForce a p s).bridgeTx = s.bridgeTx ∧
    (acctForce a p s).bridgeRx = s.bridgeRx ∧ (acctForce a p s).sched = s.sched ∧ (acctForce a p s).fabric = s.fabric ∧
    (acctForce a p s).pair = s.pair ∧ (acctForce a p s).tahr = s.tahr ∧ (acctForce a p s).host = s.host ∧ (acctForce a p s).monitors = s.monitors ∧
    (acctForce a p s).dumps = s.dumps ∧ (acctForce a p s).hbm = s.hbm ∧ (acctForce a p s).pchans = s.pchans ∧ (acctForce a p s).faults = s.faults ∧
    (acctForce a p s).boot = s.boot ∧ (acctForce a p s).power = s.power ∧ (acctForce a p s).mem = s.mem ∧ (acctForce a p s).pins = s.pins ∧
    (acctForce a p s).freeCtr = s.freeCtr := by
  unfold acctForce; split <;> simp

@[simp] theorem acctUpdates_frame (l : List Nat) (s : State) :
    (l.foldl (fun s a => acctUpdate a s) s).pending = s.pending ∧ (l.foldl (fun s a => acctUpdate a s) s).mgt = s.mgt ∧
    (l.foldl (fun s a => acctUpdate a s) s).journal = s.journal ∧ (l.foldl (fun s a => acctUpdate a s) s).time = s.time ∧
    (l.foldl (fun s a => acctUpdate a s) s).lines = s.lines ∧ (l.foldl (fun s a => acctUpdate a s) s).groups = s.groups ∧
    (l.foldl (fun s a => acctUpdate a s) s).staging = s.staging ∧ (l.foldl (fun s a => acctUpdate a s) s).bank = s.bank ∧
    (l.foldl (fun s a => acctUpdate a s) s).bankOld = s.bankOld ∧ (l.foldl (fun s a => acctUpdate a s) s).buckets = s.buckets ∧
    (l.foldl (fun s a => acctUpdate a s) s).mirrors = s.mirrors ∧ (l.foldl (fun s a => acctUpdate a s) s).samplers = s.samplers ∧
    (l.foldl (fun s a => acctUpdate a s) s).allowance = s.allowance ∧ (l.foldl (fun s a => acctUpdate a s) s).allowAt = s.allowAt ∧
    (l.foldl (fun s a => acctUpdate a s) s).holdClocks = s.holdClocks ∧ (l.foldl (fun s a => acctUpdate a s) s).retrainHold = s.retrainHold ∧
    (l.foldl (fun s a => acctUpdate a s) s).limit = s.limit ∧ (l.foldl (fun s a => acctUpdate a s) s).tables = s.tables ∧
    (l.foldl (fun s a => acctUpdate a s) s).ruleGroups = s.ruleGroups ∧ (l.foldl (fun s a => acctUpdate a s) s).sets = s.sets ∧
    (l.foldl (fun s a => acctUpdate a s) s).pkts = s.pkts ∧ (l.foldl (fun s a => acctUpdate a s) s).nextPkt = s.nextPkt ∧
    (l.foldl (fun s a => acctUpdate a s) s).hdrSlot = s.hdrSlot ∧ (l.foldl (fun s a => acctUpdate a s) s).dc0 = s.dc0 ∧
    (l.foldl (fun s a => acctUpdate a s) s).dc1 = s.dc1 ∧
    (l.foldl (fun s a => acctUpdate a s) s).bridgeTx = s.bridgeTx ∧ (l.foldl (fun s a => acctUpdate a s) s).bridgeRx = s.bridgeRx ∧
    (l.foldl (fun s a => acctUpdate a s) s).sched = s.sched ∧ (l.foldl (fun s a => acctUpdate a s) s).fabric = s.fabric ∧
    (l.foldl (fun s a => acctUpdate a s) s).pair = s.pair ∧ (l.foldl (fun s a => acctUpdate a s) s).tahr = s.tahr ∧
    (l.foldl (fun s a => acctUpdate a s) s).host = s.host ∧ (l.foldl (fun s a => acctUpdate a s) s).monitors = s.monitors ∧
    (l.foldl (fun s a => acctUpdate a s) s).dumps = s.dumps ∧ (l.foldl (fun s a => acctUpdate a s) s).hbm = s.hbm ∧
    (l.foldl (fun s a => acctUpdate a s) s).pchans = s.pchans ∧ (l.foldl (fun s a => acctUpdate a s) s).faults = s.faults ∧
    (l.foldl (fun s a => acctUpdate a s) s).boot = s.boot ∧ (l.foldl (fun s a => acctUpdate a s) s).power = s.power ∧
    (l.foldl (fun s a => acctUpdate a s) s).mem = s.mem ∧ (l.foldl (fun s a => acctUpdate a s) s).pins = s.pins ∧
    (l.foldl (fun s a => acctUpdate a s) s).freeCtr = s.freeCtr := by
  induction l generalizing s <;> simp_all

/-- Levels of a pool (R237). -/
@[simp] theorem poolLevels_frame (p : Nat) (s : State) :
    (poolLevels p s).pending = s.pending ∧ (poolLevels p s).mgt = s.mgt ∧ (poolLevels p s).journal = s.journal ∧ (poolLevels p s).time = s.time ∧
    (poolLevels p s).lines = s.lines ∧ (poolLevels p s).groups = s.groups ∧ (poolLevels p s).staging = s.staging ∧ (poolLevels p s).bank = s.bank ∧
    (poolLevels p s).bankOld = s.bankOld ∧ (poolLevels p s).buckets = s.buckets ∧ (poolLevels p s).mirrors = s.mirrors ∧
    (poolLevels p s).samplers = s.samplers ∧ (poolLevels p s).allowance = s.allowance ∧ (poolLevels p s).allowAt = s.allowAt ∧
    (poolLevels p s).holdClocks = s.holdClocks ∧ (poolLevels p s).retrainHold = s.retrainHold ∧ (poolLevels p s).limit = s.limit ∧
    (poolLevels p s).tables = s.tables ∧ (poolLevels p s).ruleGroups = s.ruleGroups ∧ (poolLevels p s).sets = s.sets ∧
    (poolLevels p s).pkts = s.pkts ∧ (poolLevels p s).nextPkt = s.nextPkt ∧ (poolLevels p s).hdrSlot = s.hdrSlot ∧ (poolLevels p s).dc0 = s.dc0 ∧
    (poolLevels p s).dc1 = s.dc1 ∧
    (poolLevels p s).bridgeTx = s.bridgeTx ∧ (poolLevels p s).bridgeRx = s.bridgeRx ∧ (poolLevels p s).sched = s.sched ∧
    (poolLevels p s).fabric = s.fabric ∧ (poolLevels p s).pair = s.pair ∧ (poolLevels p s).tahr = s.tahr ∧ (poolLevels p s).host = s.host ∧
    (poolLevels p s).monitors = s.monitors ∧ (poolLevels p s).dumps = s.dumps ∧ (poolLevels p s).hbm = s.hbm ∧ (poolLevels p s).pchans = s.pchans ∧
    (poolLevels p s).faults = s.faults ∧ (poolLevels p s).boot = s.boot ∧ (poolLevels p s).power = s.power ∧ (poolLevels p s).mem = s.mem ∧
    (poolLevels p s).pins = s.pins ∧ (poolLevels p s).freeCtr = s.freeCtr := by
  unfold poolLevels; dsimp only; repeat' split
  all_goals simp

@[simp] theorem charge_frame (p : Nat) (a : Option Nat) (n : Nat) (s : State) :
    (charge p a n s).pending = s.pending ∧ (charge p a n s).mgt = s.mgt ∧ (charge p a n s).journal = s.journal ∧ (charge p a n s).time = s.time ∧
    (charge p a n s).lines = s.lines ∧ (charge p a n s).groups = s.groups ∧ (charge p a n s).staging = s.staging ∧ (charge p a n s).bank = s.bank ∧
    (charge p a n s).bankOld = s.bankOld ∧ (charge p a n s).buckets = s.buckets ∧ (charge p a n s).mirrors = s.mirrors ∧
    (charge p a n s).samplers = s.samplers ∧ (charge p a n s).allowance = s.allowance ∧ (charge p a n s).allowAt = s.allowAt ∧
    (charge p a n s).holdClocks = s.holdClocks ∧ (charge p a n s).retrainHold = s.retrainHold ∧ (charge p a n s).limit = s.limit ∧
    (charge p a n s).tables = s.tables ∧ (charge p a n s).ruleGroups = s.ruleGroups ∧ (charge p a n s).sets = s.sets ∧
    (charge p a n s).pkts = s.pkts ∧ (charge p a n s).nextPkt = s.nextPkt ∧ (charge p a n s).hdrSlot = s.hdrSlot ∧ (charge p a n s).dc0 = s.dc0 ∧
    (charge p a n s).dc1 = s.dc1 ∧
    (charge p a n s).bridgeTx = s.bridgeTx ∧ (charge p a n s).bridgeRx = s.bridgeRx ∧ (charge p a n s).sched = s.sched ∧
    (charge p a n s).fabric = s.fabric ∧ (charge p a n s).pair = s.pair ∧ (charge p a n s).tahr = s.tahr ∧ (charge p a n s).host = s.host ∧
    (charge p a n s).monitors = s.monitors ∧ (charge p a n s).dumps = s.dumps ∧ (charge p a n s).hbm = s.hbm ∧ (charge p a n s).pchans = s.pchans ∧
    (charge p a n s).faults = s.faults ∧ (charge p a n s).boot = s.boot ∧ (charge p a n s).power = s.power ∧ (charge p a n s).mem = s.mem ∧
    (charge p a n s).pins = s.pins ∧ (charge p a n s).freeCtr = s.freeCtr := by
  unfold charge; dsimp only; split <;> simp

@[simp] theorem uncharge_frame (p : Nat) (a : Option Nat) (n : Nat) (s : State) :
    (uncharge p a n s).pending = s.pending ∧ (uncharge p a n s).mgt = s.mgt ∧ (uncharge p a n s).journal = s.journal ∧
    (uncharge p a n s).time = s.time ∧ (uncharge p a n s).lines = s.lines ∧ (uncharge p a n s).groups = s.groups ∧
    (uncharge p a n s).staging = s.staging ∧ (uncharge p a n s).bank = s.bank ∧ (uncharge p a n s).bankOld = s.bankOld ∧
    (uncharge p a n s).buckets = s.buckets ∧ (uncharge p a n s).mirrors = s.mirrors ∧ (uncharge p a n s).samplers = s.samplers ∧
    (uncharge p a n s).allowance = s.allowance ∧ (uncharge p a n s).allowAt = s.allowAt ∧ (uncharge p a n s).holdClocks = s.holdClocks ∧
    (uncharge p a n s).retrainHold = s.retrainHold ∧ (uncharge p a n s).limit = s.limit ∧ (uncharge p a n s).tables = s.tables ∧
    (uncharge p a n s).ruleGroups = s.ruleGroups ∧ (uncharge p a n s).sets = s.sets ∧ (uncharge p a n s).pkts = s.pkts ∧
    (uncharge p a n s).nextPkt = s.nextPkt ∧ (uncharge p a n s).hdrSlot = s.hdrSlot ∧ (uncharge p a n s).dc0 = s.dc0 ∧
    (uncharge p a n s).dc1 = s.dc1 ∧
    (uncharge p a n s).bridgeTx = s.bridgeTx ∧ (uncharge p a n s).bridgeRx = s.bridgeRx ∧ (uncharge p a n s).sched = s.sched ∧
    (uncharge p a n s).fabric = s.fabric ∧ (uncharge p a n s).pair = s.pair ∧ (uncharge p a n s).tahr = s.tahr ∧ (uncharge p a n s).host = s.host ∧
    (uncharge p a n s).monitors = s.monitors ∧ (uncharge p a n s).dumps = s.dumps ∧ (uncharge p a n s).hbm = s.hbm ∧
    (uncharge p a n s).pchans = s.pchans ∧ (uncharge p a n s).faults = s.faults ∧ (uncharge p a n s).boot = s.boot ∧
    (uncharge p a n s).power = s.power ∧ (uncharge p a n s).mem = s.mem ∧ (uncharge p a n s).pins = s.pins ∧
    (uncharge p a n s).freeCtr = s.freeCtr := by
  unfold uncharge; dsimp only; split <;> simp

/-- Release of a packet (R231). -/
@[simp] theorem freePkt_frame (seg : Nat) (s : State) :
    (freePkt seg s).pending = s.pending ∧ (freePkt seg s).mgt = s.mgt ∧ (freePkt seg s).journal = s.journal ∧ (freePkt seg s).time = s.time ∧
    (freePkt seg s).lines = s.lines ∧ (freePkt seg s).groups = s.groups ∧ (freePkt seg s).staging = s.staging ∧ (freePkt seg s).bank = s.bank ∧
    (freePkt seg s).bankOld = s.bankOld ∧ (freePkt seg s).buckets = s.buckets ∧ (freePkt seg s).mirrors = s.mirrors ∧
    (freePkt seg s).samplers = s.samplers ∧ (freePkt seg s).allowance = s.allowance ∧ (freePkt seg s).allowAt = s.allowAt ∧
    (freePkt seg s).holdClocks = s.holdClocks ∧ (freePkt seg s).retrainHold = s.retrainHold ∧ (freePkt seg s).limit = s.limit ∧
    (freePkt seg s).tables = s.tables ∧ (freePkt seg s).ruleGroups = s.ruleGroups ∧ (freePkt seg s).sets = s.sets ∧ (freePkt seg s).pkts = s.pkts ∧
    (freePkt seg s).nextPkt = s.nextPkt ∧ (freePkt seg s).hdrSlot = s.hdrSlot ∧ (freePkt seg s).dc0 = s.dc0 ∧ (freePkt seg s).dc1 = s.dc1 ∧
    (freePkt seg s).bridgeTx = s.bridgeTx ∧
    (freePkt seg s).bridgeRx = s.bridgeRx ∧ (freePkt seg s).sched = s.sched ∧ (freePkt seg s).fabric = s.fabric ∧ (freePkt seg s).pair = s.pair ∧
    (freePkt seg s).tahr = s.tahr ∧ (freePkt seg s).host = s.host ∧ (freePkt seg s).monitors = s.monitors ∧ (freePkt seg s).dumps = s.dumps ∧
    (freePkt seg s).hbm = s.hbm ∧ (freePkt seg s).pchans = s.pchans ∧ (freePkt seg s).faults = s.faults ∧ (freePkt seg s).boot = s.boot ∧
    (freePkt seg s).power = s.power ∧ (freePkt seg s).mem = s.mem ∧ (freePkt seg s).pins = s.pins ∧ (freePkt seg s).freeCtr = s.freeCtr := by
  unfold freePkt; dsimp only; repeat' split
  all_goals simp

@[simp] theorem dropPkt_frame (h sec elem pos : Nat) (s : State) :
    (dropPkt h sec elem pos s).pending = s.pending ∧ (dropPkt h sec elem pos s).mgt = s.mgt ∧ (dropPkt h sec elem pos s).journal = s.journal ∧
    (dropPkt h sec elem pos s).time = s.time ∧ (dropPkt h sec elem pos s).lines = s.lines ∧ (dropPkt h sec elem pos s).groups = s.groups ∧
    (dropPkt h sec elem pos s).staging = s.staging ∧ (dropPkt h sec elem pos s).bank = s.bank ∧ (dropPkt h sec elem pos s).bankOld = s.bankOld ∧
    (dropPkt h sec elem pos s).buckets = s.buckets ∧ (dropPkt h sec elem pos s).mirrors = s.mirrors ∧
    (dropPkt h sec elem pos s).samplers = s.samplers ∧ (dropPkt h sec elem pos s).allowance = s.allowance ∧
    (dropPkt h sec elem pos s).allowAt = s.allowAt ∧ (dropPkt h sec elem pos s).holdClocks = s.holdClocks ∧
    (dropPkt h sec elem pos s).retrainHold = s.retrainHold ∧ (dropPkt h sec elem pos s).limit = s.limit ∧
    (dropPkt h sec elem pos s).tables = s.tables ∧ (dropPkt h sec elem pos s).ruleGroups = s.ruleGroups ∧ (dropPkt h sec elem pos s).sets = s.sets ∧
    (dropPkt h sec elem pos s).pkts = s.pkts ∧ (dropPkt h sec elem pos s).nextPkt = s.nextPkt ∧ (dropPkt h sec elem pos s).hdrSlot = s.hdrSlot ∧
    (dropPkt h sec elem pos s).dc0 = s.dc0 ∧ (dropPkt h sec elem pos s).dc1 = s.dc1 ∧ (dropPkt h sec elem pos s).bridgeTx = s.bridgeTx ∧
    (dropPkt h sec elem pos s).bridgeRx = s.bridgeRx ∧
    (dropPkt h sec elem pos s).sched = s.sched ∧ (dropPkt h sec elem pos s).fabric = s.fabric ∧ (dropPkt h sec elem pos s).pair = s.pair ∧
    (dropPkt h sec elem pos s).tahr = s.tahr ∧ (dropPkt h sec elem pos s).host = s.host ∧ (dropPkt h sec elem pos s).monitors = s.monitors ∧
    (dropPkt h sec elem pos s).dumps = s.dumps ∧ (dropPkt h sec elem pos s).hbm = s.hbm ∧ (dropPkt h sec elem pos s).pchans = s.pchans ∧
    (dropPkt h sec elem pos s).faults = s.faults ∧ (dropPkt h sec elem pos s).boot = s.boot ∧ (dropPkt h sec elem pos s).power = s.power ∧
    (dropPkt h sec elem pos s).mem = s.mem ∧ (dropPkt h sec elem pos s).pins = s.pins ∧ (dropPkt h sec elem pos s).freeCtr = s.freeCtr := by
  simp [dropPkt]

/-- The transmitter of a port (R117, R118). -/
@[simp] theorem settleLine_frame (down : Bool) (port : Nat) (s : State) :
    (settleLine down port s).pending = s.pending ∧ (settleLine down port s).mgt = s.mgt ∧ (settleLine down port s).journal = s.journal ∧
    (settleLine down port s).time = s.time ∧ (settleLine down port s).ports = s.ports ∧ (settleLine down port s).groups = s.groups ∧
    (settleLine down port s).staging = s.staging ∧ (settleLine down port s).bank = s.bank ∧ (settleLine down port s).bankOld = s.bankOld ∧
    (settleLine down port s).buckets = s.buckets ∧ (settleLine down port s).mirrors = s.mirrors ∧ (settleLine down port s).samplers = s.samplers ∧
    (settleLine down port s).allowance = s.allowance ∧ (settleLine down port s).allowAt = s.allowAt ∧
    (settleLine down port s).holdClocks = s.holdClocks ∧ (settleLine down port s).retrainHold = s.retrainHold ∧
    (settleLine down port s).limit = s.limit ∧ (settleLine down port s).tables = s.tables ∧ (settleLine down port s).ruleGroups = s.ruleGroups ∧
    (settleLine down port s).sets = s.sets ∧ (settleLine down port s).pkts = s.pkts ∧ (settleLine down port s).nextPkt = s.nextPkt ∧
    (settleLine down port s).hdrSlot = s.hdrSlot ∧ (settleLine down port s).dc0 = s.dc0 ∧ (settleLine down port s).dc1 = s.dc1 ∧
    (settleLine down port s).bridgeTx = s.bridgeTx ∧
    (settleLine down port s).bridgeRx = s.bridgeRx ∧ (settleLine down port s).buf = s.buf ∧ (settleLine down port s).sched = s.sched ∧
    (settleLine down port s).fabric = s.fabric ∧ (settleLine down port s).pair = s.pair ∧ (settleLine down port s).tahr = s.tahr ∧
    (settleLine down port s).host = s.host ∧ (settleLine down port s).monitors = s.monitors ∧ (settleLine down port s).dumps = s.dumps ∧
    (settleLine down port s).counters = s.counters ∧ (settleLine down port s).hbm = s.hbm ∧ (settleLine down port s).pchans = s.pchans ∧
    (settleLine down port s).faults = s.faults ∧ (settleLine down port s).boot = s.boot ∧ (settleLine down port s).power = s.power ∧
    (settleLine down port s).mem = s.mem ∧ (settleLine down port s).pins = s.pins ∧ (settleLine down port s).freeCtr = s.freeCtr := by
  unfold settleLine; dsimp only; split <;> simp

@[simp] theorem settleLines_frame (l : List Nat) (down : Bool) (s : State) :
    (l.foldl (fun s p => settleLine down p s) s).pending = s.pending ∧ (l.foldl (fun s p => settleLine down p s) s).mgt = s.mgt ∧
    (l.foldl (fun s p => settleLine down p s) s).journal = s.journal ∧ (l.foldl (fun s p => settleLine down p s) s).time = s.time ∧
    (l.foldl (fun s p => settleLine down p s) s).ports = s.ports ∧ (l.foldl (fun s p => settleLine down p s) s).groups = s.groups ∧
    (l.foldl (fun s p => settleLine down p s) s).staging = s.staging ∧ (l.foldl (fun s p => settleLine down p s) s).bank = s.bank ∧
    (l.foldl (fun s p => settleLine down p s) s).bankOld = s.bankOld ∧ (l.foldl (fun s p => settleLine down p s) s).buckets = s.buckets ∧
    (l.foldl (fun s p => settleLine down p s) s).mirrors = s.mirrors ∧ (l.foldl (fun s p => settleLine down p s) s).samplers = s.samplers ∧
    (l.foldl (fun s p => settleLine down p s) s).allowance = s.allowance ∧ (l.foldl (fun s p => settleLine down p s) s).allowAt = s.allowAt ∧
    (l.foldl (fun s p => settleLine down p s) s).holdClocks = s.holdClocks ∧
    (l.foldl (fun s p => settleLine down p s) s).retrainHold = s.retrainHold ∧ (l.foldl (fun s p => settleLine down p s) s).limit = s.limit ∧
    (l.foldl (fun s p => settleLine down p s) s).tables = s.tables ∧ (l.foldl (fun s p => settleLine down p s) s).ruleGroups = s.ruleGroups ∧
    (l.foldl (fun s p => settleLine down p s) s).sets = s.sets ∧ (l.foldl (fun s p => settleLine down p s) s).pkts = s.pkts ∧
    (l.foldl (fun s p => settleLine down p s) s).nextPkt = s.nextPkt ∧ (l.foldl (fun s p => settleLine down p s) s).hdrSlot = s.hdrSlot ∧
    (l.foldl (fun s p => settleLine down p s) s).dc0 = s.dc0 ∧ (l.foldl (fun s p => settleLine down p s) s).dc1 = s.dc1 ∧
    (l.foldl (fun s p => settleLine down p s) s).bridgeTx = s.bridgeTx ∧
    (l.foldl (fun s p => settleLine down p s) s).bridgeRx = s.bridgeRx ∧ (l.foldl (fun s p => settleLine down p s) s).buf = s.buf ∧
    (l.foldl (fun s p => settleLine down p s) s).sched = s.sched ∧ (l.foldl (fun s p => settleLine down p s) s).fabric = s.fabric ∧
    (l.foldl (fun s p => settleLine down p s) s).pair = s.pair ∧ (l.foldl (fun s p => settleLine down p s) s).tahr = s.tahr ∧
    (l.foldl (fun s p => settleLine down p s) s).host = s.host ∧ (l.foldl (fun s p => settleLine down p s) s).monitors = s.monitors ∧
    (l.foldl (fun s p => settleLine down p s) s).dumps = s.dumps ∧ (l.foldl (fun s p => settleLine down p s) s).counters = s.counters ∧
    (l.foldl (fun s p => settleLine down p s) s).hbm = s.hbm ∧ (l.foldl (fun s p => settleLine down p s) s).pchans = s.pchans ∧
    (l.foldl (fun s p => settleLine down p s) s).faults = s.faults ∧ (l.foldl (fun s p => settleLine down p s) s).boot = s.boot ∧
    (l.foldl (fun s p => settleLine down p s) s).power = s.power ∧ (l.foldl (fun s p => settleLine down p s) s).mem = s.mem ∧
    (l.foldl (fun s p => settleLine down p s) s).pins = s.pins ∧ (l.foldl (fun s p => settleLine down p s) s).freeCtr = s.freeCtr := by
  induction l generalizing s <;> simp_all

@[simp] theorem pairEmit_frame (cls n : Nat) (words : List Nat) (s : State) :
    (pairEmit cls n words s).pending = s.pending ∧ (pairEmit cls n words s).mgt = s.mgt ∧ (pairEmit cls n words s).journal = s.journal ∧
    (pairEmit cls n words s).time = s.time ∧ (pairEmit cls n words s).ports = s.ports ∧ (pairEmit cls n words s).lines = s.lines ∧
    (pairEmit cls n words s).groups = s.groups ∧ (pairEmit cls n words s).staging = s.staging ∧ (pairEmit cls n words s).bank = s.bank ∧
    (pairEmit cls n words s).bankOld = s.bankOld ∧ (pairEmit cls n words s).buckets = s.buckets ∧ (pairEmit cls n words s).mirrors = s.mirrors ∧
    (pairEmit cls n words s).samplers = s.samplers ∧ (pairEmit cls n words s).allowance = s.allowance ∧
    (pairEmit cls n words s).allowAt = s.allowAt ∧ (pairEmit cls n words s).holdClocks = s.holdClocks ∧
    (pairEmit cls n words s).retrainHold = s.retrainHold ∧ (pairEmit cls n words s).limit = s.limit ∧ (pairEmit cls n words s).tables = s.tables ∧
    (pairEmit cls n words s).ruleGroups = s.ruleGroups ∧ (pairEmit cls n words s).sets = s.sets ∧ (pairEmit cls n words s).pkts = s.pkts ∧
    (pairEmit cls n words s).nextPkt = s.nextPkt ∧ (pairEmit cls n words s).hdrSlot = s.hdrSlot ∧ (pairEmit cls n words s).dc0 = s.dc0 ∧
    (pairEmit cls n words s).dc1 = s.dc1 ∧
    (pairEmit cls n words s).bridgeTx = s.bridgeTx ∧ (pairEmit cls n words s).bridgeRx = s.bridgeRx ∧ (pairEmit cls n words s).buf = s.buf ∧
    (pairEmit cls n words s).sched = s.sched ∧ (pairEmit cls n words s).fabric = s.fabric ∧ (pairEmit cls n words s).tahr = s.tahr ∧
    (pairEmit cls n words s).host = s.host ∧ (pairEmit cls n words s).monitors = s.monitors ∧ (pairEmit cls n words s).dumps = s.dumps ∧
    (pairEmit cls n words s).counters = s.counters ∧ (pairEmit cls n words s).hbm = s.hbm ∧ (pairEmit cls n words s).pchans = s.pchans ∧
    (pairEmit cls n words s).faults = s.faults ∧ (pairEmit cls n words s).boot = s.boot ∧ (pairEmit cls n words s).power = s.power ∧
    (pairEmit cls n words s).mem = s.mem ∧ (pairEmit cls n words s).pins = s.pins ∧ (pairEmit cls n words s).freeCtr = s.freeCtr := by
  simp [pairEmit, bondNext]

/-- A message of the pair link (R307). -/
@[simp] theorem pairSend_frame (cls : Nat) (words : List Nat) (s : State) :
    (pairSend cls words s).pending = s.pending ∧ (pairSend cls words s).mgt = s.mgt ∧ (pairSend cls words s).journal = s.journal ∧
    (pairSend cls words s).time = s.time ∧ (pairSend cls words s).ports = s.ports ∧ (pairSend cls words s).lines = s.lines ∧
    (pairSend cls words s).groups = s.groups ∧ (pairSend cls words s).staging = s.staging ∧ (pairSend cls words s).bank = s.bank ∧
    (pairSend cls words s).bankOld = s.bankOld ∧ (pairSend cls words s).buckets = s.buckets ∧ (pairSend cls words s).mirrors = s.mirrors ∧
    (pairSend cls words s).samplers = s.samplers ∧ (pairSend cls words s).allowance = s.allowance ∧ (pairSend cls words s).allowAt = s.allowAt ∧
    (pairSend cls words s).holdClocks = s.holdClocks ∧ (pairSend cls words s).retrainHold = s.retrainHold ∧ (pairSend cls words s).limit = s.limit ∧
    (pairSend cls words s).tables = s.tables ∧ (pairSend cls words s).ruleGroups = s.ruleGroups ∧ (pairSend cls words s).sets = s.sets ∧
    (pairSend cls words s).pkts = s.pkts ∧ (pairSend cls words s).nextPkt = s.nextPkt ∧ (pairSend cls words s).hdrSlot = s.hdrSlot ∧
    (pairSend cls words s).dc0 = s.dc0 ∧ (pairSend cls words s).dc1 = s.dc1 ∧ (pairSend cls words s).bridgeTx = s.bridgeTx ∧
    (pairSend cls words s).bridgeRx = s.bridgeRx ∧
    (pairSend cls words s).buf = s.buf ∧ (pairSend cls words s).sched = s.sched ∧ (pairSend cls words s).fabric = s.fabric ∧
    (pairSend cls words s).tahr = s.tahr ∧ (pairSend cls words s).host = s.host ∧ (pairSend cls words s).monitors = s.monitors ∧
    (pairSend cls words s).dumps = s.dumps ∧ (pairSend cls words s).counters = s.counters ∧ (pairSend cls words s).hbm = s.hbm ∧
    (pairSend cls words s).pchans = s.pchans ∧ (pairSend cls words s).faults = s.faults ∧ (pairSend cls words s).boot = s.boot ∧
    (pairSend cls words s).power = s.power ∧ (pairSend cls words s).mem = s.mem ∧ (pairSend cls words s).pins = s.pins ∧
    (pairSend cls words s).freeCtr = s.freeCtr := by
  unfold pairSend; dsimp only; repeat' split
  all_goals simp

/-- Entry to the safe state (R444). -/
@[simp] theorem enterSafe_frame (source resource : Nat) (s : State) :
    (enterSafe source resource s).pending = s.pending ∧ (enterSafe source resource s).mgt = s.mgt ∧
    (enterSafe source resource s).journal = s.journal ∧ (enterSafe source resource s).time = s.time ∧ (enterSafe source resource s).ports = s.ports ∧
    (enterSafe source resource s).groups = s.groups ∧ (enterSafe source resource s).staging = s.staging ∧
    (enterSafe source resource s).bank = s.bank ∧ (enterSafe source resource s).bankOld = s.bankOld ∧
    (enterSafe source resource s).buckets = s.buckets ∧ (enterSafe source resource s).mirrors = s.mirrors ∧
    (enterSafe source resource s).samplers = s.samplers ∧ (enterSafe source resource s).allowance = s.allowance ∧
    (enterSafe source resource s).allowAt = s.allowAt ∧ (enterSafe source resource s).holdClocks = s.holdClocks ∧
    (enterSafe source resource s).retrainHold = s.retrainHold ∧ (enterSafe source resource s).limit = s.limit ∧
    (enterSafe source resource s).tables = s.tables ∧ (enterSafe source resource s).ruleGroups = s.ruleGroups ∧
    (enterSafe source resource s).sets = s.sets ∧ (enterSafe source resource s).pkts = s.pkts ∧ (enterSafe source resource s).nextPkt = s.nextPkt ∧
    (enterSafe source resource s).hdrSlot = s.hdrSlot ∧ (enterSafe source resource s).dc0 = s.dc0 ∧ (enterSafe source resource s).dc1 = s.dc1 ∧
    (enterSafe source resource s).bridgeTx = s.bridgeTx ∧ (enterSafe source resource s).bridgeRx = s.bridgeRx ∧
    (enterSafe source resource s).buf = s.buf ∧ (enterSafe source resource s).sched = s.sched ∧ (enterSafe source resource s).fabric = s.fabric ∧
    (enterSafe source resource s).tahr = s.tahr ∧ (enterSafe source resource s).host = s.host ∧ (enterSafe source resource s).monitors = s.monitors ∧
    (enterSafe source resource s).dumps = s.dumps ∧ (enterSafe source resource s).counters = s.counters ∧ (enterSafe source resource s).hbm = s.hbm ∧
    (enterSafe source resource s).pchans = s.pchans ∧ (enterSafe source resource s).boot = s.boot ∧ (enterSafe source resource s).power = s.power ∧
    (enterSafe source resource s).mem = s.mem ∧ (enterSafe source resource s).pins = s.pins ∧ (enterSafe source resource s).freeCtr = s.freeCtr := by
  unfold enterSafe; dsimp only; repeat' split
  all_goals simp

/-- A fatal event (R436, R444). -/
@[simp] theorem fatal_frame (source resource : Nat) (d : List Byte) (s : State) :
    (fatal source resource d s).pending = s.pending ∧ (fatal source resource d s).mgt = s.mgt ∧ (fatal source resource d s).journal = s.journal ∧
    (fatal source resource d s).time = s.time ∧ (fatal source resource d s).ports = s.ports ∧ (fatal source resource d s).groups = s.groups ∧
    (fatal source resource d s).staging = s.staging ∧ (fatal source resource d s).bank = s.bank ∧ (fatal source resource d s).bankOld = s.bankOld ∧
    (fatal source resource d s).buckets = s.buckets ∧ (fatal source resource d s).mirrors = s.mirrors ∧
    (fatal source resource d s).samplers = s.samplers ∧ (fatal source resource d s).allowance = s.allowance ∧
    (fatal source resource d s).allowAt = s.allowAt ∧ (fatal source resource d s).holdClocks = s.holdClocks ∧
    (fatal source resource d s).retrainHold = s.retrainHold ∧ (fatal source resource d s).limit = s.limit ∧
    (fatal source resource d s).tables = s.tables ∧ (fatal source resource d s).ruleGroups = s.ruleGroups ∧
    (fatal source resource d s).sets = s.sets ∧ (fatal source resource d s).pkts = s.pkts ∧ (fatal source resource d s).nextPkt = s.nextPkt ∧
    (fatal source resource d s).hdrSlot = s.hdrSlot ∧ (fatal source resource d s).dc0 = s.dc0 ∧ (fatal source resource d s).dc1 = s.dc1 ∧
    (fatal source resource d s).bridgeTx = s.bridgeTx ∧
    (fatal source resource d s).bridgeRx = s.bridgeRx ∧ (fatal source resource d s).buf = s.buf ∧ (fatal source resource d s).sched = s.sched ∧
    (fatal source resource d s).fabric = s.fabric ∧ (fatal source resource d s).tahr = s.tahr ∧ (fatal source resource d s).host = s.host ∧
    (fatal source resource d s).monitors = s.monitors ∧ (fatal source resource d s).dumps = s.dumps ∧
    (fatal source resource d s).counters = s.counters ∧ (fatal source resource d s).hbm = s.hbm ∧ (fatal source resource d s).pchans = s.pchans ∧
    (fatal source resource d s).boot = s.boot ∧ (fatal source resource d s).power = s.power ∧ (fatal source resource d s).mem = s.mem ∧
    (fatal source resource d s).pins = s.pins ∧ (fatal source resource d s).freeCtr = s.freeCtr := by
  unfold fatal; dsimp only; repeat' split
  all_goals simp

/-- Levels of the journal (R95). -/
@[simp] theorem journalLevels_frame (s : State) :
    (journalLevels s).pending = s.pending ∧ (journalLevels s).mgt = s.mgt ∧ (journalLevels s).time = s.time ∧ (journalLevels s).ports = s.ports ∧
    (journalLevels s).lines = s.lines ∧ (journalLevels s).groups = s.groups ∧ (journalLevels s).staging = s.staging ∧
    (journalLevels s).bank = s.bank ∧ (journalLevels s).bankOld = s.bankOld ∧ (journalLevels s).buckets = s.buckets ∧
    (journalLevels s).mirrors = s.mirrors ∧ (journalLevels s).samplers = s.samplers ∧ (journalLevels s).allowance = s.allowance ∧
    (journalLevels s).allowAt = s.allowAt ∧ (journalLevels s).holdClocks = s.holdClocks ∧ (journalLevels s).retrainHold = s.retrainHold ∧
    (journalLevels s).limit = s.limit ∧ (journalLevels s).tables = s.tables ∧ (journalLevels s).ruleGroups = s.ruleGroups ∧
    (journalLevels s).sets = s.sets ∧ (journalLevels s).pkts = s.pkts ∧ (journalLevels s).nextPkt = s.nextPkt ∧
    (journalLevels s).hdrSlot = s.hdrSlot ∧ (journalLevels s).dc0 = s.dc0 ∧ (journalLevels s).dc1 = s.dc1 ∧ (journalLevels s).bridgeTx = s.bridgeTx ∧
    (journalLevels s).bridgeRx = s.bridgeRx ∧ (journalLevels s).buf = s.buf ∧ (journalLevels s).sched = s.sched ∧
    (journalLevels s).fabric = s.fabric ∧ (journalLevels s).pair = s.pair ∧ (journalLevels s).tahr = s.tahr ∧ (journalLevels s).host = s.host ∧
    (journalLevels s).monitors = s.monitors ∧ (journalLevels s).dumps = s.dumps ∧ (journalLevels s).counters = s.counters ∧
    (journalLevels s).hbm = s.hbm ∧ (journalLevels s).pchans = s.pchans ∧ (journalLevels s).faults = s.faults ∧ (journalLevels s).boot = s.boot ∧
    (journalLevels s).power = s.power ∧ (journalLevels s).mem = s.mem ∧ (journalLevels s).pins = s.pins ∧ (journalLevels s).freeCtr = s.freeCtr := by
  unfold journalLevels; dsimp only; repeat' split
  all_goals simp

/-- A record (R88, R92, R97). -/
@[simp] theorem appendRec_frame (typ : Nat) (rep : Bool) (body : List Byte) (s : State) :
    (appendRec typ rep body s).pending = s.pending ∧ (appendRec typ rep body s).mgt = s.mgt ∧ (appendRec typ rep body s).time = s.time ∧
    (appendRec typ rep body s).ports = s.ports ∧ (appendRec typ rep body s).groups = s.groups ∧ (appendRec typ rep body s).staging = s.staging ∧
    (appendRec typ rep body s).bank = s.bank ∧ (appendRec typ rep body s).bankOld = s.bankOld ∧ (appendRec typ rep body s).buckets = s.buckets ∧
    (appendRec typ rep body s).mirrors = s.mirrors ∧ (appendRec typ rep body s).samplers = s.samplers ∧
    (appendRec typ rep body s).allowance = s.allowance ∧ (appendRec typ rep body s).allowAt = s.allowAt ∧
    (appendRec typ rep body s).holdClocks = s.holdClocks ∧ (appendRec typ rep body s).retrainHold = s.retrainHold ∧
    (appendRec typ rep body s).limit = s.limit ∧ (appendRec typ rep body s).tables = s.tables ∧
    (appendRec typ rep body s).ruleGroups = s.ruleGroups ∧ (appendRec typ rep body s).sets = s.sets ∧ (appendRec typ rep body s).pkts = s.pkts ∧
    (appendRec typ rep body s).nextPkt = s.nextPkt ∧ (appendRec typ rep body s).hdrSlot = s.hdrSlot ∧ (appendRec typ rep body s).dc0 = s.dc0 ∧
    (appendRec typ rep body s).dc1 = s.dc1 ∧
    (appendRec typ rep body s).bridgeTx = s.bridgeTx ∧ (appendRec typ rep body s).bridgeRx = s.bridgeRx ∧ (appendRec typ rep body s).buf = s.buf ∧
    (appendRec typ rep body s).sched = s.sched ∧ (appendRec typ rep body s).fabric = s.fabric ∧ (appendRec typ rep body s).tahr = s.tahr ∧
    (appendRec typ rep body s).host = s.host ∧ (appendRec typ rep body s).monitors = s.monitors ∧ (appendRec typ rep body s).dumps = s.dumps ∧
    (appendRec typ rep body s).counters = s.counters ∧ (appendRec typ rep body s).hbm = s.hbm ∧ (appendRec typ rep body s).pchans = s.pchans ∧
    (appendRec typ rep body s).boot = s.boot ∧ (appendRec typ rep body s).power = s.power ∧ (appendRec typ rep body s).mem = s.mem ∧
    (appendRec typ rep body s).pins = s.pins ∧ (appendRec typ rep body s).freeCtr = s.freeCtr := by
  unfold appendRec; dsimp only; repeat' split
  all_goals simp

@[simp] theorem appendCont_frame (rep : Bool) (d : List Byte) (s : State) :
    (appendCont rep d s).pending = s.pending ∧ (appendCont rep d s).mgt = s.mgt ∧ (appendCont rep d s).time = s.time ∧
    (appendCont rep d s).ports = s.ports ∧ (appendCont rep d s).groups = s.groups ∧ (appendCont rep d s).staging = s.staging ∧
    (appendCont rep d s).bank = s.bank ∧ (appendCont rep d s).bankOld = s.bankOld ∧ (appendCont rep d s).buckets = s.buckets ∧
    (appendCont rep d s).mirrors = s.mirrors ∧ (appendCont rep d s).samplers = s.samplers ∧ (appendCont rep d s).allowance = s.allowance ∧
    (appendCont rep d s).allowAt = s.allowAt ∧ (appendCont rep d s).holdClocks = s.holdClocks ∧ (appendCont rep d s).retrainHold = s.retrainHold ∧
    (appendCont rep d s).limit = s.limit ∧ (appendCont rep d s).tables = s.tables ∧ (appendCont rep d s).ruleGroups = s.ruleGroups ∧
    (appendCont rep d s).sets = s.sets ∧ (appendCont rep d s).pkts = s.pkts ∧ (appendCont rep d s).nextPkt = s.nextPkt ∧
    (appendCont rep d s).hdrSlot = s.hdrSlot ∧ (appendCont rep d s).dc0 = s.dc0 ∧ (appendCont rep d s).dc1 = s.dc1 ∧
    (appendCont rep d s).bridgeTx = s.bridgeTx ∧
    (appendCont rep d s).bridgeRx = s.bridgeRx ∧ (appendCont rep d s).buf = s.buf ∧ (appendCont rep d s).sched = s.sched ∧
    (appendCont rep d s).fabric = s.fabric ∧ (appendCont rep d s).tahr = s.tahr ∧ (appendCont rep d s).host = s.host ∧
    (appendCont rep d s).monitors = s.monitors ∧ (appendCont rep d s).dumps = s.dumps ∧ (appendCont rep d s).counters = s.counters ∧
    (appendCont rep d s).hbm = s.hbm ∧ (appendCont rep d s).pchans = s.pchans ∧ (appendCont rep d s).boot = s.boot ∧
    (appendCont rep d s).power = s.power ∧ (appendCont rep d s).mem = s.mem ∧ (appendCont rep d s).pins = s.pins ∧
    (appendCont rep d s).freeCtr = s.freeCtr := by
  simp [appendCont]

@[simp] theorem storePayload_frame (bs : List Byte) (s : State) :
    (storePayload bs s).2.pending = s.pending ∧ (storePayload bs s).2.mgt = s.mgt ∧ (storePayload bs s).2.time = s.time ∧
    (storePayload bs s).2.ports = s.ports ∧ (storePayload bs s).2.lines = s.lines ∧ (storePayload bs s).2.groups = s.groups ∧
    (storePayload bs s).2.staging = s.staging ∧ (storePayload bs s).2.bank = s.bank ∧ (storePayload bs s).2.bankOld = s.bankOld ∧
    (storePayload bs s).2.buckets = s.buckets ∧ (storePayload bs s).2.mirrors = s.mirrors ∧ (storePayload bs s).2.samplers = s.samplers ∧
    (storePayload bs s).2.allowance = s.allowance ∧ (storePayload bs s).2.allowAt = s.allowAt ∧ (storePayload bs s).2.holdClocks = s.holdClocks ∧
    (storePayload bs s).2.retrainHold = s.retrainHold ∧ (storePayload bs s).2.limit = s.limit ∧ (storePayload bs s).2.tables = s.tables ∧
    (storePayload bs s).2.ruleGroups = s.ruleGroups ∧ (storePayload bs s).2.sets = s.sets ∧ (storePayload bs s).2.pkts = s.pkts ∧
    (storePayload bs s).2.nextPkt = s.nextPkt ∧ (storePayload bs s).2.hdrSlot = s.hdrSlot ∧ (storePayload bs s).2.dc0 = s.dc0 ∧
    (storePayload bs s).2.dc1 = s.dc1 ∧
    (storePayload bs s).2.bridgeTx = s.bridgeTx ∧ (storePayload bs s).2.bridgeRx = s.bridgeRx ∧ (storePayload bs s).2.buf = s.buf ∧
    (storePayload bs s).2.sched = s.sched ∧ (storePayload bs s).2.fabric = s.fabric ∧ (storePayload bs s).2.pair = s.pair ∧
    (storePayload bs s).2.tahr = s.tahr ∧ (storePayload bs s).2.host = s.host ∧ (storePayload bs s).2.monitors = s.monitors ∧
    (storePayload bs s).2.dumps = s.dumps ∧ (storePayload bs s).2.counters = s.counters ∧ (storePayload bs s).2.hbm = s.hbm ∧
    (storePayload bs s).2.pchans = s.pchans ∧ (storePayload bs s).2.faults = s.faults ∧ (storePayload bs s).2.boot = s.boot ∧
    (storePayload bs s).2.power = s.power ∧ (storePayload bs s).2.mem = s.mem ∧ (storePayload bs s).2.pins = s.pins ∧
    (storePayload bs s).2.out = s.out ∧ (storePayload bs s).2.freeCtr = s.freeCtr := by
  simp [storePayload]

@[simp] theorem appendConts_frame (l : List (List Byte)) (rep : Bool) (s : State) :
    (l.foldl (fun s p => appendCont rep p s) s).pending = s.pending ∧ (l.foldl (fun s p => appendCont rep p s) s).mgt = s.mgt ∧
    (l.foldl (fun s p => appendCont rep p s) s).time = s.time ∧ (l.foldl (fun s p => appendCont rep p s) s).ports = s.ports ∧
    (l.foldl (fun s p => appendCont rep p s) s).groups = s.groups ∧ (l.foldl (fun s p => appendCont rep p s) s).staging = s.staging ∧
    (l.foldl (fun s p => appendCont rep p s) s).bank = s.bank ∧ (l.foldl (fun s p => appendCont rep p s) s).bankOld = s.bankOld ∧
    (l.foldl (fun s p => appendCont rep p s) s).buckets = s.buckets ∧ (l.foldl (fun s p => appendCont rep p s) s).mirrors = s.mirrors ∧
    (l.foldl (fun s p => appendCont rep p s) s).samplers = s.samplers ∧ (l.foldl (fun s p => appendCont rep p s) s).allowance = s.allowance ∧
    (l.foldl (fun s p => appendCont rep p s) s).allowAt = s.allowAt ∧ (l.foldl (fun s p => appendCont rep p s) s).holdClocks = s.holdClocks ∧
    (l.foldl (fun s p => appendCont rep p s) s).retrainHold = s.retrainHold ∧ (l.foldl (fun s p => appendCont rep p s) s).limit = s.limit ∧
    (l.foldl (fun s p => appendCont rep p s) s).tables = s.tables ∧ (l.foldl (fun s p => appendCont rep p s) s).ruleGroups = s.ruleGroups ∧
    (l.foldl (fun s p => appendCont rep p s) s).sets = s.sets ∧ (l.foldl (fun s p => appendCont rep p s) s).pkts = s.pkts ∧
    (l.foldl (fun s p => appendCont rep p s) s).nextPkt = s.nextPkt ∧ (l.foldl (fun s p => appendCont rep p s) s).hdrSlot = s.hdrSlot ∧
    (l.foldl (fun s p => appendCont rep p s) s).dc0 = s.dc0 ∧ (l.foldl (fun s p => appendCont rep p s) s).dc1 = s.dc1 ∧
    (l.foldl (fun s p => appendCont rep p s) s).bridgeTx = s.bridgeTx ∧
    (l.foldl (fun s p => appendCont rep p s) s).bridgeRx = s.bridgeRx ∧ (l.foldl (fun s p => appendCont rep p s) s).buf = s.buf ∧
    (l.foldl (fun s p => appendCont rep p s) s).sched = s.sched ∧ (l.foldl (fun s p => appendCont rep p s) s).fabric = s.fabric ∧
    (l.foldl (fun s p => appendCont rep p s) s).tahr = s.tahr ∧ (l.foldl (fun s p => appendCont rep p s) s).host = s.host ∧
    (l.foldl (fun s p => appendCont rep p s) s).monitors = s.monitors ∧ (l.foldl (fun s p => appendCont rep p s) s).dumps = s.dumps ∧
    (l.foldl (fun s p => appendCont rep p s) s).counters = s.counters ∧ (l.foldl (fun s p => appendCont rep p s) s).hbm = s.hbm ∧
    (l.foldl (fun s p => appendCont rep p s) s).pchans = s.pchans ∧ (l.foldl (fun s p => appendCont rep p s) s).boot = s.boot ∧
    (l.foldl (fun s p => appendCont rep p s) s).power = s.power ∧ (l.foldl (fun s p => appendCont rep p s) s).mem = s.mem ∧
    (l.foldl (fun s p => appendCont rep p s) s).pins = s.pins ∧ (l.foldl (fun s p => appendCont rep p s) s).freeCtr = s.freeCtr := by
  induction l generalizing s <;> simp_all

/-- A command or batch record (R88). -/
@[simp] theorem journalCmd_frame (r : RecInfo) (s : State) :
    (journalCmd r s).2.pending = s.pending ∧ (journalCmd r s).2.mgt = s.mgt ∧ (journalCmd r s).2.time = s.time ∧ (journalCmd r s).2.ports = s.ports ∧
    (journalCmd r s).2.groups = s.groups ∧ (journalCmd r s).2.staging = s.staging ∧ (journalCmd r s).2.bank = s.bank ∧
    (journalCmd r s).2.bankOld = s.bankOld ∧ (journalCmd r s).2.buckets = s.buckets ∧ (journalCmd r s).2.mirrors = s.mirrors ∧
    (journalCmd r s).2.samplers = s.samplers ∧ (journalCmd r s).2.allowance = s.allowance ∧ (journalCmd r s).2.allowAt = s.allowAt ∧
    (journalCmd r s).2.holdClocks = s.holdClocks ∧ (journalCmd r s).2.retrainHold = s.retrainHold ∧ (journalCmd r s).2.limit = s.limit ∧
    (journalCmd r s).2.tables = s.tables ∧ (journalCmd r s).2.ruleGroups = s.ruleGroups ∧ (journalCmd r s).2.sets = s.sets ∧
    (journalCmd r s).2.pkts = s.pkts ∧ (journalCmd r s).2.nextPkt = s.nextPkt ∧ (journalCmd r s).2.hdrSlot = s.hdrSlot ∧
    (journalCmd r s).2.dc0 = s.dc0 ∧ (journalCmd r s).2.dc1 = s.dc1 ∧ (journalCmd r s).2.bridgeTx = s.bridgeTx ∧
    (journalCmd r s).2.bridgeRx = s.bridgeRx ∧
    (journalCmd r s).2.buf = s.buf ∧ (journalCmd r s).2.sched = s.sched ∧ (journalCmd r s).2.fabric = s.fabric ∧ (journalCmd r s).2.tahr = s.tahr ∧
    (journalCmd r s).2.host = s.host ∧ (journalCmd r s).2.monitors = s.monitors ∧ (journalCmd r s).2.dumps = s.dumps ∧
    (journalCmd r s).2.counters = s.counters ∧ (journalCmd r s).2.hbm = s.hbm ∧ (journalCmd r s).2.pchans = s.pchans ∧
    (journalCmd r s).2.boot = s.boot ∧ (journalCmd r s).2.power = s.power ∧ (journalCmd r s).2.mem = s.mem ∧ (journalCmd r s).2.pins = s.pins ∧
    (journalCmd r s).2.freeCtr = s.freeCtr := by
  unfold journalCmd; dsimp only; repeat' split
  all_goals simp

@[simp] theorem journalFw_frame (opcode object resource : Nat) (s : State) :
    (journalFw opcode object resource s).2.pending = s.pending ∧ (journalFw opcode object resource s).2.mgt = s.mgt ∧
    (journalFw opcode object resource s).2.time = s.time ∧ (journalFw opcode object resource s).2.ports = s.ports ∧
    (journalFw opcode object resource s).2.groups = s.groups ∧ (journalFw opcode object resource s).2.staging = s.staging ∧
    (journalFw opcode object resource s).2.bank = s.bank ∧ (journalFw opcode object resource s).2.bankOld = s.bankOld ∧
    (journalFw opcode object resource s).2.buckets = s.buckets ∧ (journalFw opcode object resource s).2.mirrors = s.mirrors ∧
    (journalFw opcode object resource s).2.samplers = s.samplers ∧ (journalFw opcode object resource s).2.allowance = s.allowance ∧
    (journalFw opcode object resource s).2.allowAt = s.allowAt ∧ (journalFw opcode object resource s).2.holdClocks = s.holdClocks ∧
    (journalFw opcode object resource s).2.retrainHold = s.retrainHold ∧ (journalFw opcode object resource s).2.limit = s.limit ∧
    (journalFw opcode object resource s).2.tables = s.tables ∧ (journalFw opcode object resource s).2.ruleGroups = s.ruleGroups ∧
    (journalFw opcode object resource s).2.sets = s.sets ∧ (journalFw opcode object resource s).2.pkts = s.pkts ∧
    (journalFw opcode object resource s).2.nextPkt = s.nextPkt ∧ (journalFw opcode object resource s).2.hdrSlot = s.hdrSlot ∧
    (journalFw opcode object resource s).2.dc0 = s.dc0 ∧ (journalFw opcode object resource s).2.dc1 = s.dc1 ∧
    (journalFw opcode object resource s).2.bridgeTx = s.bridgeTx ∧
    (journalFw opcode object resource s).2.bridgeRx = s.bridgeRx ∧ (journalFw opcode object resource s).2.buf = s.buf ∧
    (journalFw opcode object resource s).2.sched = s.sched ∧ (journalFw opcode object resource s).2.fabric = s.fabric ∧
    (journalFw opcode object resource s).2.tahr = s.tahr ∧ (journalFw opcode object resource s).2.host = s.host ∧
    (journalFw opcode object resource s).2.monitors = s.monitors ∧ (journalFw opcode object resource s).2.dumps = s.dumps ∧
    (journalFw opcode object resource s).2.counters = s.counters ∧ (journalFw opcode object resource s).2.hbm = s.hbm ∧
    (journalFw opcode object resource s).2.pchans = s.pchans ∧ (journalFw opcode object resource s).2.boot = s.boot ∧
    (journalFw opcode object resource s).2.power = s.power ∧ (journalFw opcode object resource s).2.mem = s.mem ∧
    (journalFw opcode object resource s).2.pins = s.pins ∧ (journalFw opcode object resource s).2.freeCtr = s.freeCtr := by
  simp [journalFw]

@[simp] theorem journalMarker_frame (cause arg : Nat) (s : State) :
    (journalMarker cause arg s).pending = s.pending ∧ (journalMarker cause arg s).mgt = s.mgt ∧ (journalMarker cause arg s).time = s.time ∧
    (journalMarker cause arg s).ports = s.ports ∧ (journalMarker cause arg s).groups = s.groups ∧ (journalMarker cause arg s).staging = s.staging ∧
    (journalMarker cause arg s).bank = s.bank ∧ (journalMarker cause arg s).bankOld = s.bankOld ∧ (journalMarker cause arg s).buckets = s.buckets ∧
    (journalMarker cause arg s).mirrors = s.mirrors ∧ (journalMarker cause arg s).samplers = s.samplers ∧
    (journalMarker cause arg s).allowance = s.allowance ∧ (journalMarker cause arg s).allowAt = s.allowAt ∧
    (journalMarker cause arg s).holdClocks = s.holdClocks ∧ (journalMarker cause arg s).retrainHold = s.retrainHold ∧
    (journalMarker cause arg s).limit = s.limit ∧ (journalMarker cause arg s).tables = s.tables ∧
    (journalMarker cause arg s).ruleGroups = s.ruleGroups ∧ (journalMarker cause arg s).sets = s.sets ∧ (journalMarker cause arg s).pkts = s.pkts ∧
    (journalMarker cause arg s).nextPkt = s.nextPkt ∧ (journalMarker cause arg s).hdrSlot = s.hdrSlot ∧ (journalMarker cause arg s).dc0 = s.dc0 ∧
    (journalMarker cause arg s).dc1 = s.dc1 ∧
    (journalMarker cause arg s).bridgeTx = s.bridgeTx ∧ (journalMarker cause arg s).bridgeRx = s.bridgeRx ∧ (journalMarker cause arg s).buf = s.buf ∧
    (journalMarker cause arg s).sched = s.sched ∧ (journalMarker cause arg s).fabric = s.fabric ∧ (journalMarker cause arg s).tahr = s.tahr ∧
    (journalMarker cause arg s).host = s.host ∧ (journalMarker cause arg s).monitors = s.monitors ∧ (journalMarker cause arg s).dumps = s.dumps ∧
    (journalMarker cause arg s).counters = s.counters ∧ (journalMarker cause arg s).hbm = s.hbm ∧ (journalMarker cause arg s).pchans = s.pchans ∧
    (journalMarker cause arg s).boot = s.boot ∧ (journalMarker cause arg s).power = s.power ∧ (journalMarker cause arg s).mem = s.mem ∧
    (journalMarker cause arg s).pins = s.pins ∧ (journalMarker cause arg s).freeCtr = s.freeCtr := by
  simp [journalMarker]

/-- A checkpoint (R93). -/
@[simp] theorem journalCheckpointRec_frame (opcode origin : Nat) (s : State) :
    (journalCheckpointRec opcode origin s).2.pending = s.pending ∧ (journalCheckpointRec opcode origin s).2.mgt = s.mgt ∧
    (journalCheckpointRec opcode origin s).2.time = s.time ∧ (journalCheckpointRec opcode origin s).2.ports = s.ports ∧
    (journalCheckpointRec opcode origin s).2.groups = s.groups ∧ (journalCheckpointRec opcode origin s).2.staging = s.staging ∧
    (journalCheckpointRec opcode origin s).2.bank = s.bank ∧ (journalCheckpointRec opcode origin s).2.bankOld = s.bankOld ∧
    (journalCheckpointRec opcode origin s).2.buckets = s.buckets ∧ (journalCheckpointRec opcode origin s).2.mirrors = s.mirrors ∧
    (journalCheckpointRec opcode origin s).2.samplers = s.samplers ∧ (journalCheckpointRec opcode origin s).2.allowance = s.allowance ∧
    (journalCheckpointRec opcode origin s).2.allowAt = s.allowAt ∧ (journalCheckpointRec opcode origin s).2.holdClocks = s.holdClocks ∧
    (journalCheckpointRec opcode origin s).2.retrainHold = s.retrainHold ∧ (journalCheckpointRec opcode origin s).2.limit = s.limit ∧
    (journalCheckpointRec opcode origin s).2.tables = s.tables ∧ (journalCheckpointRec opcode origin s).2.ruleGroups = s.ruleGroups ∧
    (journalCheckpointRec opcode origin s).2.sets = s.sets ∧ (journalCheckpointRec opcode origin s).2.pkts = s.pkts ∧
    (journalCheckpointRec opcode origin s).2.nextPkt = s.nextPkt ∧ (journalCheckpointRec opcode origin s).2.hdrSlot = s.hdrSlot ∧
    (journalCheckpointRec opcode origin s).2.dc0 = s.dc0 ∧ (journalCheckpointRec opcode origin s).2.dc1 = s.dc1 ∧
    (journalCheckpointRec opcode origin s).2.bridgeTx = s.bridgeTx ∧
    (journalCheckpointRec opcode origin s).2.bridgeRx = s.bridgeRx ∧ (journalCheckpointRec opcode origin s).2.buf = s.buf ∧
    (journalCheckpointRec opcode origin s).2.sched = s.sched ∧ (journalCheckpointRec opcode origin s).2.fabric = s.fabric ∧
    (journalCheckpointRec opcode origin s).2.tahr = s.tahr ∧ (journalCheckpointRec opcode origin s).2.host = s.host ∧
    (journalCheckpointRec opcode origin s).2.monitors = s.monitors ∧ (journalCheckpointRec opcode origin s).2.dumps = s.dumps ∧
    (journalCheckpointRec opcode origin s).2.counters = s.counters ∧ (journalCheckpointRec opcode origin s).2.hbm = s.hbm ∧
    (journalCheckpointRec opcode origin s).2.pchans = s.pchans ∧ (journalCheckpointRec opcode origin s).2.boot = s.boot ∧
    (journalCheckpointRec opcode origin s).2.power = s.power ∧ (journalCheckpointRec opcode origin s).2.mem = s.mem ∧
    (journalCheckpointRec opcode origin s).2.pins = s.pins ∧ (journalCheckpointRec opcode origin s).2.freeCtr = s.freeCtr := by
  unfold journalCheckpointRec; dsimp only; repeat' split
  all_goals simp

@[simp] theorem closeBatchAs_frame (o : Nat) (b : Batch) (s : State) :
    (closeBatchAs o b s).pending = s.pending ∧ (closeBatchAs o b s).mgt = s.mgt ∧ (closeBatchAs o b s).time = s.time ∧
    (closeBatchAs o b s).ports = s.ports ∧ (closeBatchAs o b s).groups = s.groups ∧ (closeBatchAs o b s).staging = s.staging ∧
    (closeBatchAs o b s).bank = s.bank ∧ (closeBatchAs o b s).bankOld = s.bankOld ∧ (closeBatchAs o b s).buckets = s.buckets ∧
    (closeBatchAs o b s).mirrors = s.mirrors ∧ (closeBatchAs o b s).samplers = s.samplers ∧ (closeBatchAs o b s).allowance = s.allowance ∧
    (closeBatchAs o b s).allowAt = s.allowAt ∧ (closeBatchAs o b s).holdClocks = s.holdClocks ∧ (closeBatchAs o b s).retrainHold = s.retrainHold ∧
    (closeBatchAs o b s).limit = s.limit ∧ (closeBatchAs o b s).tables = s.tables ∧ (closeBatchAs o b s).ruleGroups = s.ruleGroups ∧
    (closeBatchAs o b s).sets = s.sets ∧ (closeBatchAs o b s).pkts = s.pkts ∧ (closeBatchAs o b s).nextPkt = s.nextPkt ∧
    (closeBatchAs o b s).hdrSlot = s.hdrSlot ∧ (closeBatchAs o b s).dc0 = s.dc0 ∧ (closeBatchAs o b s).dc1 = s.dc1 ∧
    (closeBatchAs o b s).bridgeTx = s.bridgeTx ∧
    (closeBatchAs o b s).bridgeRx = s.bridgeRx ∧ (closeBatchAs o b s).buf = s.buf ∧ (closeBatchAs o b s).sched = s.sched ∧
    (closeBatchAs o b s).fabric = s.fabric ∧ (closeBatchAs o b s).tahr = s.tahr ∧ (closeBatchAs o b s).host = s.host ∧
    (closeBatchAs o b s).monitors = s.monitors ∧ (closeBatchAs o b s).dumps = s.dumps ∧ (closeBatchAs o b s).counters = s.counters ∧
    (closeBatchAs o b s).hbm = s.hbm ∧ (closeBatchAs o b s).pchans = s.pchans ∧ (closeBatchAs o b s).boot = s.boot ∧
    (closeBatchAs o b s).power = s.power ∧ (closeBatchAs o b s).mem = s.mem ∧ (closeBatchAs o b s).pins = s.pins ∧
    (closeBatchAs o b s).freeCtr = s.freeCtr := by
  simp [closeBatchAs]

@[simp] theorem closeBatch_frame (b : Batch) (s : State) :
    (closeBatch b s).pending = s.pending ∧ (closeBatch b s).mgt = s.mgt ∧ (closeBatch b s).time = s.time ∧ (closeBatch b s).ports = s.ports ∧
    (closeBatch b s).groups = s.groups ∧ (closeBatch b s).staging = s.staging ∧ (closeBatch b s).bank = s.bank ∧
    (closeBatch b s).bankOld = s.bankOld ∧ (closeBatch b s).buckets = s.buckets ∧ (closeBatch b s).mirrors = s.mirrors ∧
    (closeBatch b s).samplers = s.samplers ∧ (closeBatch b s).allowance = s.allowance ∧ (closeBatch b s).allowAt = s.allowAt ∧
    (closeBatch b s).holdClocks = s.holdClocks ∧ (closeBatch b s).retrainHold = s.retrainHold ∧ (closeBatch b s).limit = s.limit ∧
    (closeBatch b s).tables = s.tables ∧ (closeBatch b s).ruleGroups = s.ruleGroups ∧ (closeBatch b s).sets = s.sets ∧
    (closeBatch b s).pkts = s.pkts ∧ (closeBatch b s).nextPkt = s.nextPkt ∧ (closeBatch b s).hdrSlot = s.hdrSlot ∧ (closeBatch b s).dc0 = s.dc0 ∧
    (closeBatch b s).dc1 = s.dc1 ∧
    (closeBatch b s).bridgeTx = s.bridgeTx ∧ (closeBatch b s).bridgeRx = s.bridgeRx ∧ (closeBatch b s).buf = s.buf ∧
    (closeBatch b s).sched = s.sched ∧ (closeBatch b s).fabric = s.fabric ∧ (closeBatch b s).tahr = s.tahr ∧ (closeBatch b s).host = s.host ∧
    (closeBatch b s).monitors = s.monitors ∧ (closeBatch b s).dumps = s.dumps ∧ (closeBatch b s).counters = s.counters ∧
    (closeBatch b s).hbm = s.hbm ∧ (closeBatch b s).pchans = s.pchans ∧ (closeBatch b s).boot = s.boot ∧ (closeBatch b s).power = s.power ∧
    (closeBatch b s).mem = s.mem ∧ (closeBatch b s).pins = s.pins ∧ (closeBatch b s).freeCtr = s.freeCtr := by
  simp [closeBatch]

@[simp] theorem monEvent_frame (point ident v : Nat) (s : State) :
    (monEvent point ident v s).pending = s.pending ∧ (monEvent point ident v s).mgt = s.mgt ∧ (monEvent point ident v s).journal = s.journal ∧
    (monEvent point ident v s).time = s.time ∧ (monEvent point ident v s).ports = s.ports ∧ (monEvent point ident v s).lines = s.lines ∧
    (monEvent point ident v s).groups = s.groups ∧ (monEvent point ident v s).staging = s.staging ∧ (monEvent point ident v s).bank = s.bank ∧
    (monEvent point ident v s).bankOld = s.bankOld ∧ (monEvent point ident v s).buckets = s.buckets ∧
    (monEvent point ident v s).mirrors = s.mirrors ∧ (monEvent point ident v s).samplers = s.samplers ∧
    (monEvent point ident v s).allowance = s.allowance ∧ (monEvent point ident v s).allowAt = s.allowAt ∧
    (monEvent point ident v s).holdClocks = s.holdClocks ∧ (monEvent point ident v s).retrainHold = s.retrainHold ∧
    (monEvent point ident v s).limit = s.limit ∧ (monEvent point ident v s).tables = s.tables ∧
    (monEvent point ident v s).ruleGroups = s.ruleGroups ∧ (monEvent point ident v s).sets = s.sets ∧ (monEvent point ident v s).pkts = s.pkts ∧
    (monEvent point ident v s).nextPkt = s.nextPkt ∧ (monEvent point ident v s).hdrSlot = s.hdrSlot ∧ (monEvent point ident v s).dc0 = s.dc0 ∧
    (monEvent point ident v s).dc1 = s.dc1 ∧
    (monEvent point ident v s).bridgeTx = s.bridgeTx ∧ (monEvent point ident v s).bridgeRx = s.bridgeRx ∧ (monEvent point ident v s).buf = s.buf ∧
    (monEvent point ident v s).sched = s.sched ∧ (monEvent point ident v s).fabric = s.fabric ∧ (monEvent point ident v s).pair = s.pair ∧
    (monEvent point ident v s).tahr = s.tahr ∧ (monEvent point ident v s).host = s.host ∧ (monEvent point ident v s).dumps = s.dumps ∧
    (monEvent point ident v s).counters = s.counters ∧ (monEvent point ident v s).hbm = s.hbm ∧ (monEvent point ident v s).pchans = s.pchans ∧
    (monEvent point ident v s).faults = s.faults ∧ (monEvent point ident v s).boot = s.boot ∧ (monEvent point ident v s).power = s.power ∧
    (monEvent point ident v s).mem = s.mem ∧ (monEvent point ident v s).pins = s.pins ∧ (monEvent point ident v s).out = s.out := by
  simp [monEvent]

@[simp] theorem monSkip_frame (point ident : Nat) (s : State) :
    (monSkip point ident s).pending = s.pending ∧ (monSkip point ident s).mgt = s.mgt ∧ (monSkip point ident s).journal = s.journal ∧
    (monSkip point ident s).time = s.time ∧ (monSkip point ident s).ports = s.ports ∧ (monSkip point ident s).lines = s.lines ∧
    (monSkip point ident s).groups = s.groups ∧ (monSkip point ident s).staging = s.staging ∧ (monSkip point ident s).bank = s.bank ∧
    (monSkip point ident s).bankOld = s.bankOld ∧ (monSkip point ident s).buckets = s.buckets ∧ (monSkip point ident s).mirrors = s.mirrors ∧
    (monSkip point ident s).samplers = s.samplers ∧ (monSkip point ident s).allowance = s.allowance ∧ (monSkip point ident s).allowAt = s.allowAt ∧
    (monSkip point ident s).holdClocks = s.holdClocks ∧ (monSkip point ident s).retrainHold = s.retrainHold ∧
    (monSkip point ident s).limit = s.limit ∧ (monSkip point ident s).tables = s.tables ∧ (monSkip point ident s).ruleGroups = s.ruleGroups ∧
    (monSkip point ident s).sets = s.sets ∧ (monSkip point ident s).pkts = s.pkts ∧ (monSkip point ident s).nextPkt = s.nextPkt ∧
    (monSkip point ident s).hdrSlot = s.hdrSlot ∧ (monSkip point ident s).dc0 = s.dc0 ∧ (monSkip point ident s).dc1 = s.dc1 ∧
    (monSkip point ident s).bridgeTx = s.bridgeTx ∧
    (monSkip point ident s).bridgeRx = s.bridgeRx ∧ (monSkip point ident s).buf = s.buf ∧ (monSkip point ident s).sched = s.sched ∧
    (monSkip point ident s).fabric = s.fabric ∧ (monSkip point ident s).pair = s.pair ∧ (monSkip point ident s).tahr = s.tahr ∧
    (monSkip point ident s).host = s.host ∧ (monSkip point ident s).dumps = s.dumps ∧ (monSkip point ident s).counters = s.counters ∧
    (monSkip point ident s).hbm = s.hbm ∧ (monSkip point ident s).pchans = s.pchans ∧ (monSkip point ident s).faults = s.faults ∧
    (monSkip point ident s).boot = s.boot ∧ (monSkip point ident s).power = s.power ∧ (monSkip point ident s).mem = s.mem ∧
    (monSkip point ident s).pins = s.pins ∧ (monSkip point ident s).out = s.out ∧ (monSkip point ident s).freeCtr = s.freeCtr := by
  simp [monSkip]

@[simp] theorem monIssue_frame (ident cycle v : Nat) (s : State) :
    (monIssue ident cycle v s).pending = s.pending ∧ (monIssue ident cycle v s).mgt = s.mgt ∧ (monIssue ident cycle v s).journal = s.journal ∧
    (monIssue ident cycle v s).time = s.time ∧ (monIssue ident cycle v s).ports = s.ports ∧ (monIssue ident cycle v s).lines = s.lines ∧
    (monIssue ident cycle v s).groups = s.groups ∧ (monIssue ident cycle v s).staging = s.staging ∧ (monIssue ident cycle v s).bank = s.bank ∧
    (monIssue ident cycle v s).bankOld = s.bankOld ∧ (monIssue ident cycle v s).buckets = s.buckets ∧ (monIssue ident cycle v s).mirrors = s.mirrors ∧
    (monIssue ident cycle v s).samplers = s.samplers ∧ (monIssue ident cycle v s).allowance = s.allowance ∧
    (monIssue ident cycle v s).allowAt = s.allowAt ∧
    (monIssue ident cycle v s).holdClocks = s.holdClocks ∧ (monIssue ident cycle v s).retrainHold = s.retrainHold ∧
    (monIssue ident cycle v s).limit = s.limit ∧ (monIssue ident cycle v s).tables = s.tables ∧ (monIssue ident cycle v s).ruleGroups = s.ruleGroups ∧
    (monIssue ident cycle v s).sets = s.sets ∧ (monIssue ident cycle v s).pkts = s.pkts ∧ (monIssue ident cycle v s).nextPkt = s.nextPkt ∧
    (monIssue ident cycle v s).hdrSlot = s.hdrSlot ∧ (monIssue ident cycle v s).dc0 = s.dc0 ∧ (monIssue ident cycle v s).dc1 = s.dc1 ∧
    (monIssue ident cycle v s).bridgeTx = s.bridgeTx ∧
    (monIssue ident cycle v s).bridgeRx = s.bridgeRx ∧ (monIssue ident cycle v s).buf = s.buf ∧ (monIssue ident cycle v s).sched = s.sched ∧
    (monIssue ident cycle v s).fabric = s.fabric ∧ (monIssue ident cycle v s).pair = s.pair ∧ (monIssue ident cycle v s).tahr = s.tahr ∧
    (monIssue ident cycle v s).host = s.host ∧ (monIssue ident cycle v s).dumps = s.dumps ∧ (monIssue ident cycle v s).counters = s.counters ∧
    (monIssue ident cycle v s).hbm = s.hbm ∧ (monIssue ident cycle v s).pchans = s.pchans ∧ (monIssue ident cycle v s).faults = s.faults ∧
    (monIssue ident cycle v s).boot = s.boot ∧ (monIssue ident cycle v s).power = s.power ∧ (monIssue ident cycle v s).mem = s.mem ∧
    (monIssue ident cycle v s).pins = s.pins ∧ (monIssue ident cycle v s).out = s.out ∧ (monIssue ident cycle v s).freeCtr = s.freeCtr := by
  simp [monIssue]

@[simp] theorem noteLatency_frame (k : Nat) (s : State) :
    (noteLatency k s).pending = s.pending ∧ (noteLatency k s).journal = s.journal ∧ (noteLatency k s).time = s.time ∧
    (noteLatency k s).ports = s.ports ∧ (noteLatency k s).lines = s.lines ∧ (noteLatency k s).groups = s.groups ∧
    (noteLatency k s).staging = s.staging ∧ (noteLatency k s).bank = s.bank ∧ (noteLatency k s).bankOld = s.bankOld ∧
    (noteLatency k s).buckets = s.buckets ∧ (noteLatency k s).mirrors = s.mirrors ∧ (noteLatency k s).samplers = s.samplers ∧
    (noteLatency k s).allowance = s.allowance ∧ (noteLatency k s).allowAt = s.allowAt ∧ (noteLatency k s).holdClocks = s.holdClocks ∧
    (noteLatency k s).retrainHold = s.retrainHold ∧ (noteLatency k s).limit = s.limit ∧ (noteLatency k s).tables = s.tables ∧
    (noteLatency k s).ruleGroups = s.ruleGroups ∧ (noteLatency k s).sets = s.sets ∧ (noteLatency k s).pkts = s.pkts ∧
    (noteLatency k s).nextPkt = s.nextPkt ∧ (noteLatency k s).hdrSlot = s.hdrSlot ∧ (noteLatency k s).dc0 = s.dc0 ∧ (noteLatency k s).dc1 = s.dc1 ∧
    (noteLatency k s).bridgeTx = s.bridgeTx ∧ (noteLatency k s).bridgeRx = s.bridgeRx ∧ (noteLatency k s).buf = s.buf ∧
    (noteLatency k s).sched = s.sched ∧ (noteLatency k s).fabric = s.fabric ∧ (noteLatency k s).pair = s.pair ∧ (noteLatency k s).tahr = s.tahr ∧
    (noteLatency k s).host = s.host ∧ (noteLatency k s).dumps = s.dumps ∧ (noteLatency k s).counters = s.counters ∧ (noteLatency k s).hbm = s.hbm ∧
    (noteLatency k s).pchans = s.pchans ∧ (noteLatency k s).faults = s.faults ∧ (noteLatency k s).boot = s.boot ∧ (noteLatency k s).power = s.power ∧
    (noteLatency k s).mem = s.mem ∧ (noteLatency k s).pins = s.pins ∧ (noteLatency k s).out = s.out := by
  unfold noteLatency; dsimp only; repeat' split
  all_goals simp

@[simp] theorem noteLatency_generation (k : Nat) (s : State) : (noteLatency k s).mgt.generation = s.mgt.generation := by
  unfold noteLatency; dsimp only; split <;> simp [modRing]

/-- One write of a completion (R41). -/
@[simp] theorem slotWrite_frame (p : Path) (page : Bool) (addr : Nat) (bytes : List Byte) (s : State) :
    (slotWrite p page addr bytes s).pending = s.pending ∧ (slotWrite p page addr bytes s).journal = s.journal ∧
    (slotWrite p page addr bytes s).time = s.time ∧ (slotWrite p page addr bytes s).ports = s.ports ∧
    (slotWrite p page addr bytes s).lines = s.lines ∧ (slotWrite p page addr bytes s).groups = s.groups ∧
    (slotWrite p page addr bytes s).staging = s.staging ∧ (slotWrite p page addr bytes s).bank = s.bank ∧
    (slotWrite p page addr bytes s).bankOld = s.bankOld ∧ (slotWrite p page addr bytes s).buckets = s.buckets ∧
    (slotWrite p page addr bytes s).mirrors = s.mirrors ∧ (slotWrite p page addr bytes s).samplers = s.samplers ∧
    (slotWrite p page addr bytes s).allowance = s.allowance ∧ (slotWrite p page addr bytes s).allowAt = s.allowAt ∧
    (slotWrite p page addr bytes s).holdClocks = s.holdClocks ∧ (slotWrite p page addr bytes s).retrainHold = s.retrainHold ∧
    (slotWrite p page addr bytes s).limit = s.limit ∧ (slotWrite p page addr bytes s).tables = s.tables ∧
    (slotWrite p page addr bytes s).ruleGroups = s.ruleGroups ∧ (slotWrite p page addr bytes s).sets = s.sets ∧
    (slotWrite p page addr bytes s).pkts = s.pkts ∧ (slotWrite p page addr bytes s).nextPkt = s.nextPkt ∧
    (slotWrite p page addr bytes s).hdrSlot = s.hdrSlot ∧ (slotWrite p page addr bytes s).dc0 = s.dc0 ∧ (slotWrite p page addr bytes s).dc1 = s.dc1 ∧
    (slotWrite p page addr bytes s).bridgeTx = s.bridgeTx ∧ (slotWrite p page addr bytes s).bridgeRx = s.bridgeRx ∧
    (slotWrite p page addr bytes s).buf = s.buf ∧ (slotWrite p page addr bytes s).sched = s.sched ∧
    (slotWrite p page addr bytes s).fabric = s.fabric ∧ (slotWrite p page addr bytes s).pair = s.pair ∧
    (slotWrite p page addr bytes s).tahr = s.tahr ∧ (slotWrite p page addr bytes s).host = s.host ∧
    (slotWrite p page addr bytes s).monitors = s.monitors ∧ (slotWrite p page addr bytes s).dumps = s.dumps ∧
    (slotWrite p page addr bytes s).counters = s.counters ∧ (slotWrite p page addr bytes s).hbm = s.hbm ∧
    (slotWrite p page addr bytes s).pchans = s.pchans ∧ (slotWrite p page addr bytes s).faults = s.faults ∧
    (slotWrite p page addr bytes s).boot = s.boot ∧ (slotWrite p page addr bytes s).power = s.power ∧ (slotWrite p page addr bytes s).mem = s.mem ∧
    (slotWrite p page addr bytes s).pins = s.pins ∧ (slotWrite p page addr bytes s).freeCtr = s.freeCtr := by
  unfold slotWrite; repeat' split
  all_goals simp

@[simp] theorem slotWrite_generation (p : Path) (page : Bool) (addr : Nat) (bytes : List Byte) (s : State) :
    (slotWrite p page addr bytes s).mgt.generation = s.mgt.generation := by
  unfold slotWrite; (repeat' split) <;> simp

@[simp] theorem writeCompletion_frame (c : Cmd) (r : MbRing) (fields result : List Byte) (s : State) :
    (writeCompletion c r fields result s).pending = s.pending ∧ (writeCompletion c r fields result s).journal = s.journal ∧
    (writeCompletion c r fields result s).time = s.time ∧ (writeCompletion c r fields result s).ports = s.ports ∧
    (writeCompletion c r fields result s).lines = s.lines ∧ (writeCompletion c r fields result s).groups = s.groups ∧
    (writeCompletion c r fields result s).staging = s.staging ∧ (writeCompletion c r fields result s).bank = s.bank ∧
    (writeCompletion c r fields result s).bankOld = s.bankOld ∧ (writeCompletion c r fields result s).buckets = s.buckets ∧
    (writeCompletion c r fields result s).mirrors = s.mirrors ∧ (writeCompletion c r fields result s).samplers = s.samplers ∧
    (writeCompletion c r fields result s).allowance = s.allowance ∧ (writeCompletion c r fields result s).allowAt = s.allowAt ∧
    (writeCompletion c r fields result s).holdClocks = s.holdClocks ∧ (writeCompletion c r fields result s).retrainHold = s.retrainHold ∧
    (writeCompletion c r fields result s).limit = s.limit ∧ (writeCompletion c r fields result s).tables = s.tables ∧
    (writeCompletion c r fields result s).ruleGroups = s.ruleGroups ∧ (writeCompletion c r fields result s).sets = s.sets ∧
    (writeCompletion c r fields result s).pkts = s.pkts ∧ (writeCompletion c r fields result s).nextPkt = s.nextPkt ∧
    (writeCompletion c r fields result s).hdrSlot = s.hdrSlot ∧ (writeCompletion c r fields result s).dc0 = s.dc0 ∧
    (writeCompletion c r fields result s).dc1 = s.dc1 ∧
    (writeCompletion c r fields result s).bridgeTx = s.bridgeTx ∧ (writeCompletion c r fields result s).bridgeRx = s.bridgeRx ∧
    (writeCompletion c r fields result s).buf = s.buf ∧ (writeCompletion c r fields result s).sched = s.sched ∧
    (writeCompletion c r fields result s).fabric = s.fabric ∧ (writeCompletion c r fields result s).pair = s.pair ∧
    (writeCompletion c r fields result s).tahr = s.tahr ∧ (writeCompletion c r fields result s).host = s.host ∧
    (writeCompletion c r fields result s).monitors = s.monitors ∧ (writeCompletion c r fields result s).dumps = s.dumps ∧
    (writeCompletion c r fields result s).counters = s.counters ∧ (writeCompletion c r fields result s).hbm = s.hbm ∧
    (writeCompletion c r fields result s).pchans = s.pchans ∧ (writeCompletion c r fields result s).faults = s.faults ∧
    (writeCompletion c r fields result s).boot = s.boot ∧ (writeCompletion c r fields result s).power = s.power ∧
    (writeCompletion c r fields result s).mem = s.mem ∧ (writeCompletion c r fields result s).pins = s.pins ∧
    (writeCompletion c r fields result s).freeCtr = s.freeCtr := by
  unfold writeCompletion; dsimp only; repeat' split
  all_goals simp

@[simp] theorem writeCompletion_generation (c : Cmd) (r : MbRing) (fields result : List Byte) (s : State) :
    (writeCompletion c r fields result s).mgt.generation = s.mgt.generation := by
  unfold writeCompletion; dsimp only; (repeat' split) <;> simp

/-- A completion (R41). -/
@[simp] theorem completeCore_frame (c : Cmd) (op status detail : Nat) (result : List Byte) (seq gen : Nat) (s : State) :
    (completeCore c op status detail result seq gen s).pending = s.pending ∧ (completeCore c op status detail result seq gen s).journal = s.journal ∧
    (completeCore c op status detail result seq gen s).time = s.time ∧ (completeCore c op status detail result seq gen s).ports = s.ports ∧
    (completeCore c op status detail result seq gen s).lines = s.lines ∧ (completeCore c op status detail result seq gen s).groups = s.groups ∧
    (completeCore c op status detail result seq gen s).staging = s.staging ∧ (completeCore c op status detail result seq gen s).bank = s.bank ∧
    (completeCore c op status detail result seq gen s).bankOld = s.bankOld ∧ (completeCore c op status detail result seq gen s).buckets = s.buckets ∧
    (completeCore c op status detail result seq gen s).mirrors = s.mirrors ∧
    (completeCore c op status detail result seq gen s).samplers = s.samplers ∧
    (completeCore c op status detail result seq gen s).allowance = s.allowance ∧
    (completeCore c op status detail result seq gen s).allowAt = s.allowAt ∧
    (completeCore c op status detail result seq gen s).holdClocks = s.holdClocks ∧
    (completeCore c op status detail result seq gen s).retrainHold = s.retrainHold ∧
    (completeCore c op status detail result seq gen s).limit = s.limit ∧ (completeCore c op status detail result seq gen s).tables = s.tables ∧
    (completeCore c op status detail result seq gen s).ruleGroups = s.ruleGroups ∧ (completeCore c op status detail result seq gen s).sets = s.sets ∧
    (completeCore c op status detail result seq gen s).pkts = s.pkts ∧ (completeCore c op status detail result seq gen s).nextPkt = s.nextPkt ∧
    (completeCore c op status detail result seq gen s).hdrSlot = s.hdrSlot ∧ (completeCore c op status detail result seq gen s).dc0 = s.dc0 ∧
    (completeCore c op status detail result seq gen s).dc1 = s.dc1 ∧
    (completeCore c op status detail result seq gen s).bridgeTx = s.bridgeTx ∧
    (completeCore c op status detail result seq gen s).bridgeRx = s.bridgeRx ∧ (completeCore c op status detail result seq gen s).buf = s.buf ∧
    (completeCore c op status detail result seq gen s).sched = s.sched ∧ (completeCore c op status detail result seq gen s).fabric = s.fabric ∧
    (completeCore c op status detail result seq gen s).pair = s.pair ∧ (completeCore c op status detail result seq gen s).tahr = s.tahr ∧
    (completeCore c op status detail result seq gen s).host = s.host ∧ (completeCore c op status detail result seq gen s).dumps = s.dumps ∧
    (completeCore c op status detail result seq gen s).counters = s.counters ∧ (completeCore c op status detail result seq gen s).hbm = s.hbm ∧
    (completeCore c op status detail result seq gen s).pchans = s.pchans ∧ (completeCore c op status detail result seq gen s).faults = s.faults ∧
    (completeCore c op status detail result seq gen s).boot = s.boot ∧ (completeCore c op status detail result seq gen s).power = s.power ∧
    (completeCore c op status detail result seq gen s).mem = s.mem ∧ (completeCore c op status detail result seq gen s).pins = s.pins := by
  unfold completeCore; dsimp only; repeat' split
  all_goals simp

@[simp] theorem completeCore_generation (c : Cmd) (op status detail : Nat) (result : List Byte) (seq gen : Nat) (s : State) :
    (completeCore c op status detail result seq gen s).mgt.generation = s.mgt.generation := by
  unfold completeCore; dsimp only; (repeat' split) <;> first | rfl | simp [modRing, emit]

@[simp] theorem settleDisables_frame (n : Nat) (s : State) :
    (settleDisables n s).pending = s.pending ∧ (settleDisables n s).time = s.time ∧ (settleDisables n s).ports = s.ports ∧
    (settleDisables n s).groups = s.groups ∧ (settleDisables n s).staging = s.staging ∧ (settleDisables n s).bank = s.bank ∧
    (settleDisables n s).bankOld = s.bankOld ∧ (settleDisables n s).buckets = s.buckets ∧ (settleDisables n s).mirrors = s.mirrors ∧
    (settleDisables n s).samplers = s.samplers ∧ (settleDisables n s).allowance = s.allowance ∧ (settleDisables n s).allowAt = s.allowAt ∧
    (settleDisables n s).holdClocks = s.holdClocks ∧ (settleDisables n s).retrainHold = s.retrainHold ∧ (settleDisables n s).limit = s.limit ∧
    (settleDisables n s).tables = s.tables ∧ (settleDisables n s).ruleGroups = s.ruleGroups ∧ (settleDisables n s).sets = s.sets ∧
    (settleDisables n s).pkts = s.pkts ∧ (settleDisables n s).nextPkt = s.nextPkt ∧ (settleDisables n s).hdrSlot = s.hdrSlot ∧
    (settleDisables n s).dc0 = s.dc0 ∧ (settleDisables n s).dc1 = s.dc1 ∧ (settleDisables n s).bridgeTx = s.bridgeTx ∧
    (settleDisables n s).bridgeRx = s.bridgeRx ∧
    (settleDisables n s).buf = s.buf ∧ (settleDisables n s).sched = s.sched ∧ (settleDisables n s).fabric = s.fabric ∧
    (settleDisables n s).tahr = s.tahr ∧ (settleDisables n s).host = s.host ∧ (settleDisables n s).dumps = s.dumps ∧
    (settleDisables n s).counters = s.counters ∧ (settleDisables n s).hbm = s.hbm ∧ (settleDisables n s).pchans = s.pchans ∧
    (settleDisables n s).boot = s.boot ∧ (settleDisables n s).power = s.power ∧ (settleDisables n s).mem = s.mem ∧
    (settleDisables n s).pins = s.pins := by
  induction n generalizing s with
  | zero => simp [settleDisables]
  | succ n ih => unfold settleDisables; dsimp only; (repeat' split) <;> simp_all

@[simp] theorem complete_frame (c : Cmd) (op status detail : Nat) (result : List Byte) (seq gen : Nat) (s : State) :
    (complete c op status detail result seq gen s).pending = s.pending ∧ (complete c op status detail result seq gen s).time = s.time ∧
    (complete c op status detail result seq gen s).ports = s.ports ∧ (complete c op status detail result seq gen s).groups = s.groups ∧
    (complete c op status detail result seq gen s).staging = s.staging ∧ (complete c op status detail result seq gen s).bank = s.bank ∧
    (complete c op status detail result seq gen s).bankOld = s.bankOld ∧ (complete c op status detail result seq gen s).buckets = s.buckets ∧
    (complete c op status detail result seq gen s).mirrors = s.mirrors ∧ (complete c op status detail result seq gen s).samplers = s.samplers ∧
    (complete c op status detail result seq gen s).allowance = s.allowance ∧ (complete c op status detail result seq gen s).allowAt = s.allowAt ∧
    (complete c op status detail result seq gen s).holdClocks = s.holdClocks ∧
    (complete c op status detail result seq gen s).retrainHold = s.retrainHold ∧ (complete c op status detail result seq gen s).limit = s.limit ∧
    (complete c op status detail result seq gen s).tables = s.tables ∧ (complete c op status detail result seq gen s).ruleGroups = s.ruleGroups ∧
    (complete c op status detail result seq gen s).sets = s.sets ∧ (complete c op status detail result seq gen s).pkts = s.pkts ∧
    (complete c op status detail result seq gen s).nextPkt = s.nextPkt ∧ (complete c op status detail result seq gen s).hdrSlot = s.hdrSlot ∧
    (complete c op status detail result seq gen s).dc0 = s.dc0 ∧ (complete c op status detail result seq gen s).dc1 = s.dc1 ∧
    (complete c op status detail result seq gen s).bridgeTx = s.bridgeTx ∧
    (complete c op status detail result seq gen s).bridgeRx = s.bridgeRx ∧ (complete c op status detail result seq gen s).buf = s.buf ∧
    (complete c op status detail result seq gen s).sched = s.sched ∧ (complete c op status detail result seq gen s).fabric = s.fabric ∧
    (complete c op status detail result seq gen s).tahr = s.tahr ∧ (complete c op status detail result seq gen s).host = s.host ∧
    (complete c op status detail result seq gen s).dumps = s.dumps ∧ (complete c op status detail result seq gen s).counters = s.counters ∧
    (complete c op status detail result seq gen s).hbm = s.hbm ∧ (complete c op status detail result seq gen s).pchans = s.pchans ∧
    (complete c op status detail result seq gen s).boot = s.boot ∧ (complete c op status detail result seq gen s).power = s.power ∧
    (complete c op status detail result seq gen s).mem = s.mem ∧ (complete c op status detail result seq gen s).pins = s.pins := by
  simp [complete]

/-- A refusal (R42). -/
@[simp] theorem refuse_frame (c : Cmd) (op : Nat) (f : Fail) (s : State) :
    (refuse c op f s).pending = s.pending ∧ (refuse c op f s).time = s.time ∧ (refuse c op f s).ports = s.ports ∧
    (refuse c op f s).groups = s.groups ∧ (refuse c op f s).staging = s.staging ∧ (refuse c op f s).bank = s.bank ∧
    (refuse c op f s).bankOld = s.bankOld ∧ (refuse c op f s).buckets = s.buckets ∧ (refuse c op f s).mirrors = s.mirrors ∧
    (refuse c op f s).samplers = s.samplers ∧ (refuse c op f s).allowance = s.allowance ∧ (refuse c op f s).allowAt = s.allowAt ∧
    (refuse c op f s).holdClocks = s.holdClocks ∧ (refuse c op f s).retrainHold = s.retrainHold ∧ (refuse c op f s).limit = s.limit ∧
    (refuse c op f s).tables = s.tables ∧ (refuse c op f s).ruleGroups = s.ruleGroups ∧ (refuse c op f s).sets = s.sets ∧
    (refuse c op f s).pkts = s.pkts ∧ (refuse c op f s).nextPkt = s.nextPkt ∧ (refuse c op f s).hdrSlot = s.hdrSlot ∧ (refuse c op f s).dc0 = s.dc0 ∧
    (refuse c op f s).dc1 = s.dc1 ∧
    (refuse c op f s).bridgeTx = s.bridgeTx ∧ (refuse c op f s).bridgeRx = s.bridgeRx ∧ (refuse c op f s).buf = s.buf ∧
    (refuse c op f s).sched = s.sched ∧ (refuse c op f s).fabric = s.fabric ∧ (refuse c op f s).tahr = s.tahr ∧ (refuse c op f s).host = s.host ∧
    (refuse c op f s).dumps = s.dumps ∧ (refuse c op f s).counters = s.counters ∧ (refuse c op f s).hbm = s.hbm ∧
    (refuse c op f s).pchans = s.pchans ∧ (refuse c op f s).boot = s.boot ∧ (refuse c op f s).power = s.power ∧ (refuse c op f s).mem = s.mem ∧
    (refuse c op f s).pins = s.pins := by
  simp [refuse]

/-- A refusal at a check (R48). -/
@[simp] theorem refuseChecked_frame (c : Cmd) (op : Nat) (f : Fail) (s : State) :
    (refuseChecked c op f s).pending = s.pending ∧ (refuseChecked c op f s).time = s.time ∧ (refuseChecked c op f s).ports = s.ports ∧
    (refuseChecked c op f s).groups = s.groups ∧ (refuseChecked c op f s).staging = s.staging ∧ (refuseChecked c op f s).bank = s.bank ∧
    (refuseChecked c op f s).bankOld = s.bankOld ∧ (refuseChecked c op f s).buckets = s.buckets ∧ (refuseChecked c op f s).mirrors = s.mirrors ∧
    (refuseChecked c op f s).samplers = s.samplers ∧ (refuseChecked c op f s).allowance = s.allowance ∧
    (refuseChecked c op f s).allowAt = s.allowAt ∧ (refuseChecked c op f s).holdClocks = s.holdClocks ∧
    (refuseChecked c op f s).retrainHold = s.retrainHold ∧ (refuseChecked c op f s).limit = s.limit ∧ (refuseChecked c op f s).tables = s.tables ∧
    (refuseChecked c op f s).ruleGroups = s.ruleGroups ∧ (refuseChecked c op f s).sets = s.sets ∧ (refuseChecked c op f s).pkts = s.pkts ∧
    (refuseChecked c op f s).nextPkt = s.nextPkt ∧ (refuseChecked c op f s).hdrSlot = s.hdrSlot ∧ (refuseChecked c op f s).dc0 = s.dc0 ∧
    (refuseChecked c op f s).dc1 = s.dc1 ∧
    (refuseChecked c op f s).bridgeTx = s.bridgeTx ∧ (refuseChecked c op f s).bridgeRx = s.bridgeRx ∧ (refuseChecked c op f s).buf = s.buf ∧
    (refuseChecked c op f s).sched = s.sched ∧ (refuseChecked c op f s).fabric = s.fabric ∧ (refuseChecked c op f s).tahr = s.tahr ∧
    (refuseChecked c op f s).host = s.host ∧ (refuseChecked c op f s).dumps = s.dumps ∧ (refuseChecked c op f s).counters = s.counters ∧
    (refuseChecked c op f s).hbm = s.hbm ∧ (refuseChecked c op f s).pchans = s.pchans ∧ (refuseChecked c op f s).boot = s.boot ∧
    (refuseChecked c op f s).power = s.power ∧ (refuseChecked c op f s).mem = s.mem ∧ (refuseChecked c op f s).pins = s.pins := by
  unfold refuseChecked; dsimp only; repeat' split
  all_goals simp

@[simp] theorem occupy_frame (c : Cmd) (s : State) :
    (occupy c s).pending = s.pending ∧ (occupy c s).journal = s.journal ∧ (occupy c s).time = s.time ∧ (occupy c s).ports = s.ports ∧
    (occupy c s).lines = s.lines ∧ (occupy c s).groups = s.groups ∧ (occupy c s).staging = s.staging ∧ (occupy c s).bank = s.bank ∧
    (occupy c s).bankOld = s.bankOld ∧ (occupy c s).buckets = s.buckets ∧ (occupy c s).mirrors = s.mirrors ∧ (occupy c s).samplers = s.samplers ∧
    (occupy c s).allowance = s.allowance ∧ (occupy c s).allowAt = s.allowAt ∧ (occupy c s).holdClocks = s.holdClocks ∧
    (occupy c s).retrainHold = s.retrainHold ∧ (occupy c s).limit = s.limit ∧ (occupy c s).tables = s.tables ∧
    (occupy c s).ruleGroups = s.ruleGroups ∧ (occupy c s).sets = s.sets ∧ (occupy c s).pkts = s.pkts ∧ (occupy c s).nextPkt = s.nextPkt ∧
    (occupy c s).hdrSlot = s.hdrSlot ∧ (occupy c s).dc0 = s.dc0 ∧ (occupy c s).dc1 = s.dc1 ∧ (occupy c s).bridgeTx = s.bridgeTx ∧
    (occupy c s).bridgeRx = s.bridgeRx ∧
    (occupy c s).buf = s.buf ∧ (occupy c s).sched = s.sched ∧ (occupy c s).fabric = s.fabric ∧ (occupy c s).pair = s.pair ∧
    (occupy c s).tahr = s.tahr ∧ (occupy c s).host = s.host ∧ (occupy c s).monitors = s.monitors ∧ (occupy c s).dumps = s.dumps ∧
    (occupy c s).counters = s.counters ∧ (occupy c s).hbm = s.hbm ∧ (occupy c s).pchans = s.pchans ∧ (occupy c s).faults = s.faults ∧
    (occupy c s).boot = s.boot ∧ (occupy c s).power = s.power ∧ (occupy c s).mem = s.mem ∧ (occupy c s).pins = s.pins ∧ (occupy c s).out = s.out ∧
    (occupy c s).freeCtr = s.freeCtr := by
  unfold occupy; repeat' split
  all_goals simp

@[simp] theorem joinTail_frame (q : QId) (s : State) :
    (joinTail q s).pending = s.pending ∧ (joinTail q s).mgt = s.mgt ∧ (joinTail q s).journal = s.journal ∧ (joinTail q s).time = s.time ∧
    (joinTail q s).ports = s.ports ∧ (joinTail q s).lines = s.lines ∧ (joinTail q s).groups = s.groups ∧ (joinTail q s).staging = s.staging ∧
    (joinTail q s).bank = s.bank ∧ (joinTail q s).bankOld = s.bankOld ∧ (joinTail q s).buckets = s.buckets ∧ (joinTail q s).mirrors = s.mirrors ∧
    (joinTail q s).samplers = s.samplers ∧ (joinTail q s).allowance = s.allowance ∧ (joinTail q s).allowAt = s.allowAt ∧
    (joinTail q s).holdClocks = s.holdClocks ∧ (joinTail q s).retrainHold = s.retrainHold ∧ (joinTail q s).limit = s.limit ∧
    (joinTail q s).tables = s.tables ∧ (joinTail q s).ruleGroups = s.ruleGroups ∧ (joinTail q s).sets = s.sets ∧ (joinTail q s).pkts = s.pkts ∧
    (joinTail q s).nextPkt = s.nextPkt ∧ (joinTail q s).hdrSlot = s.hdrSlot ∧ (joinTail q s).dc0 = s.dc0 ∧ (joinTail q s).dc1 = s.dc1 ∧
    (joinTail q s).bridgeTx = s.bridgeTx ∧
    (joinTail q s).bridgeRx = s.bridgeRx ∧ (joinTail q s).buf = s.buf ∧ (joinTail q s).fabric = s.fabric ∧ (joinTail q s).pair = s.pair ∧
    (joinTail q s).tahr = s.tahr ∧ (joinTail q s).host = s.host ∧ (joinTail q s).monitors = s.monitors ∧ (joinTail q s).dumps = s.dumps ∧
    (joinTail q s).counters = s.counters ∧ (joinTail q s).hbm = s.hbm ∧ (joinTail q s).pchans = s.pchans ∧ (joinTail q s).faults = s.faults ∧
    (joinTail q s).boot = s.boot ∧ (joinTail q s).power = s.power ∧ (joinTail q s).mem = s.mem ∧ (joinTail q s).pins = s.pins ∧
    (joinTail q s).out = s.out ∧ (joinTail q s).freeCtr = s.freeCtr := by
  unfold joinTail; dsimp only; split <;> simp

@[simp] theorem joinIdle_frame (q : QId) (s : State) :
    (joinIdle q s).pending = s.pending ∧ (joinIdle q s).mgt = s.mgt ∧ (joinIdle q s).journal = s.journal ∧ (joinIdle q s).time = s.time ∧
    (joinIdle q s).ports = s.ports ∧ (joinIdle q s).lines = s.lines ∧ (joinIdle q s).groups = s.groups ∧ (joinIdle q s).staging = s.staging ∧
    (joinIdle q s).bank = s.bank ∧ (joinIdle q s).bankOld = s.bankOld ∧ (joinIdle q s).buckets = s.buckets ∧ (joinIdle q s).mirrors = s.mirrors ∧
    (joinIdle q s).samplers = s.samplers ∧ (joinIdle q s).allowance = s.allowance ∧ (joinIdle q s).allowAt = s.allowAt ∧
    (joinIdle q s).holdClocks = s.holdClocks ∧ (joinIdle q s).retrainHold = s.retrainHold ∧ (joinIdle q s).limit = s.limit ∧
    (joinIdle q s).tables = s.tables ∧ (joinIdle q s).ruleGroups = s.ruleGroups ∧ (joinIdle q s).sets = s.sets ∧ (joinIdle q s).pkts = s.pkts ∧
    (joinIdle q s).nextPkt = s.nextPkt ∧ (joinIdle q s).hdrSlot = s.hdrSlot ∧ (joinIdle q s).dc0 = s.dc0 ∧ (joinIdle q s).dc1 = s.dc1 ∧
    (joinIdle q s).bridgeTx = s.bridgeTx ∧
    (joinIdle q s).bridgeRx = s.bridgeRx ∧ (joinIdle q s).buf = s.buf ∧ (joinIdle q s).fabric = s.fabric ∧ (joinIdle q s).pair = s.pair ∧
    (joinIdle q s).tahr = s.tahr ∧ (joinIdle q s).host = s.host ∧ (joinIdle q s).monitors = s.monitors ∧ (joinIdle q s).dumps = s.dumps ∧
    (joinIdle q s).counters = s.counters ∧ (joinIdle q s).hbm = s.hbm ∧ (joinIdle q s).pchans = s.pchans ∧ (joinIdle q s).faults = s.faults ∧
    (joinIdle q s).boot = s.boot ∧ (joinIdle q s).power = s.power ∧ (joinIdle q s).mem = s.mem ∧ (joinIdle q s).pins = s.pins ∧
    (joinIdle q s).out = s.out ∧ (joinIdle q s).freeCtr = s.freeCtr := by
  unfold joinIdle; dsimp only; split <;> simp

@[simp] theorem popHead_frame (q : QId) (s : State) :
    (popHead q s).pending = s.pending ∧ (popHead q s).mgt = s.mgt ∧ (popHead q s).journal = s.journal ∧ (popHead q s).time = s.time ∧
    (popHead q s).ports = s.ports ∧ (popHead q s).lines = s.lines ∧ (popHead q s).groups = s.groups ∧ (popHead q s).staging = s.staging ∧
    (popHead q s).bank = s.bank ∧ (popHead q s).bankOld = s.bankOld ∧ (popHead q s).buckets = s.buckets ∧ (popHead q s).mirrors = s.mirrors ∧
    (popHead q s).samplers = s.samplers ∧ (popHead q s).allowance = s.allowance ∧ (popHead q s).allowAt = s.allowAt ∧
    (popHead q s).holdClocks = s.holdClocks ∧ (popHead q s).retrainHold = s.retrainHold ∧ (popHead q s).limit = s.limit ∧
    (popHead q s).tables = s.tables ∧ (popHead q s).ruleGroups = s.ruleGroups ∧ (popHead q s).sets = s.sets ∧ (popHead q s).pkts = s.pkts ∧
    (popHead q s).nextPkt = s.nextPkt ∧ (popHead q s).hdrSlot = s.hdrSlot ∧ (popHead q s).dc0 = s.dc0 ∧ (popHead q s).dc1 = s.dc1 ∧
    (popHead q s).bridgeTx = s.bridgeTx ∧
    (popHead q s).bridgeRx = s.bridgeRx ∧ (popHead q s).buf = s.buf ∧ (popHead q s).fabric = s.fabric ∧ (popHead q s).pair = s.pair ∧
    (popHead q s).tahr = s.tahr ∧ (popHead q s).host = s.host ∧ (popHead q s).monitors = s.monitors ∧ (popHead q s).dumps = s.dumps ∧
    (popHead q s).counters = s.counters ∧ (popHead q s).hbm = s.hbm ∧ (popHead q s).pchans = s.pchans ∧ (popHead q s).faults = s.faults ∧
    (popHead q s).boot = s.boot ∧ (popHead q s).power = s.power ∧ (popHead q s).mem = s.mem ∧ (popHead q s).pins = s.pins ∧
    (popHead q s).out = s.out ∧ (popHead q s).freeCtr = s.freeCtr := by
  unfold popHead; split <;> simp

end Sys2Proof.Machine
end

