-- ==== Sys2Proof/Laws/Mailbox.lean ====
section
/-! SUPPORT. The way of a mailbox entry through the firmware: which row runs which operation, and what dispatch does with an entry that is accepted or refused. -/

namespace Sys2Proof.Machine

/-- Whatever a command answers, it is a settled state. -/
theorem exec_settled (c : Instr) (s : State) (h : withinRatings c = true) : ∃ u : State, exec c s = .next (settled s u) := by
  cases c
  case supplySample mv =>
    have h' : ¬ 14500 < mv := by simpa [withinRatings] using h
    exact ⟨supplySample mv s, by simp [exec, execSupplySample, h', answer]⟩
  all_goals exact ⟨_, rfl⟩

theorem next_settled {c : Instr} {s t : State} (h : exec c s = .next t) : ∃ u, t = settled s u := by
  by_cases hw : withinRatings c = true
  · obtain ⟨u, hu⟩ := exec_settled c s hw
    rw [hu] at h; cases h; exact ⟨u, rfl⟩
  · cases c <;> simp [withinRatings] at hw
    simp [exec, execSupplySample, hw] at h

/-! ### Rows and operations -/

theorem exec_readRow {i : Instr} {op : Nat} {c : Cmd} (h : readRow i = some (op, c)) (s : State) : exec i s = answer s (runCmd op c s) := by
  cases i <;> simp only [readRow, Option.some.injEq, Prod.mk.injEq, reduceCtorEq] at h
  all_goals (obtain ⟨rfl, rfl⟩ := h; rfl)

theorem exec_configRow {i : Instr} {op : Nat} {c : Cmd} (h : configRow i = some (op, c)) (s : State) : exec i s = answer s (runCmd op c s) := by
  cases i <;> simp only [configRow, Option.some.injEq, Prod.mk.injEq, reduceCtorEq] at h
  all_goals (obtain ⟨rfl, rfl⟩ := h; rfl)

theorem exec_operateRow {i : Instr} {op : Nat} {c : Cmd} (h : operateRow i = some (op, c)) (s : State) : exec i s = answer s (runCmd op c s) := by
  cases i <;> simp only [operateRow, Option.some.injEq, Prod.mk.injEq, reduceCtorEq] at h
  all_goals (obtain ⟨rfl, rfl⟩ := h; rfl)

theorem spec_readRow {i : Instr} {op : Nat} {c : Cmd} {sp : CmdSpec} (h : readRow i = some (op, c)) (hs : specOf op = some sp) :
    sp.opcode = op ∧ sp.kind = .r ∧ op ≠ 0x0402 := by
  cases i <;> simp only [readRow, Option.some.injEq, Prod.mk.injEq, reduceCtorEq] at h
  all_goals (obtain ⟨rfl, rfl⟩ := h; cases hs; exact ⟨rfl, rfl, by decide⟩)

theorem spec_configRow {i : Instr} {op : Nat} {c : Cmd} {sp : CmdSpec} (h : configRow i = some (op, c)) (hs : specOf op = some sp) :
    sp.opcode = op ∧ sp.kind = .c ∧ op ≠ 0x0402 ∧ sp.inSafe = false := by
  cases i <;> simp only [configRow, Option.some.injEq, Prod.mk.injEq, reduceCtorEq] at h
  all_goals (obtain ⟨rfl, rfl⟩ := h; cases hs; exact ⟨rfl, rfl, by decide, rfl⟩)

theorem spec_operateRow {i : Instr} {op : Nat} {c : Cmd} {sp : CmdSpec} (h : operateRow i = some (op, c)) (hs : specOf op = some sp) :
    sp.opcode = op ∧ sp.kind = .o ∧ op ≠ 0x0402 ∧ (sp.inSafe = true ↔ op = 0x0103) := by
  cases i <;> simp only [operateRow, Option.some.injEq, Prod.mk.injEq, reduceCtorEq] at h
  all_goals (obtain ⟨rfl, rfl⟩ := h; cases hs; exact ⟨rfl, rfl, by decide, by decide⟩)

/-! ### Dispatch -/

theorem accepted_spec {op : Nat} {c : Cmd} {s : State} {sp : CmdSpec} (h : accepted op c s = true) (hs : specOf op = some sp) :
    takesEntry op c s = true ∧ dryRun c = false ∧ checkCmd sp c (checkView sp c (dispatched c s)) = none := by
  simp only [accepted, hs, passesChecks, Bool.and_eq_true, Bool.not_eq_true', Option.isNone_iff_eq_none] at h
  exact ⟨h.1.1, h.1.2, h.2⟩

/-- What dispatch does with an entry that passed its checks. -/
theorem runCmd_accepted {op : Nat} {c : Cmd} {s : State} {sp : CmdSpec} (h : accepted op c s = true) (hs : specOf op = some sp) :
    runCmd op c s = if op = 0x0402 then runTxnCommit c (dispatched c s)
      else if sp.kind != .c then runNow sp c (dispatched c s)
      else if c.txnId = 0 then runSingle sp c (dispatched c s)
      else match txnCheck c (dispatched c s) with
        | some f => refuse c op f (dispatched c s)
        | none => stageCmd sp c (mgetD (dispatched c s).mgt.txns c.txnId {}) (dispatched c s) := by
  obtain ⟨h1, h2, h3⟩ := accepted_spec h hs
  simp only [takesEntry, Bool.and_eq_true, Bool.not_eq_true', Option.isNone_iff_eq_none] at h1
  unfold dispatched at *
  cases hT : txnCheck c (touchTxn c (noteDispatch c.path s)) <;>
    simp only [runCmd, dispatch, h1.1.1.1.1, h1.1.1.1.2, h1.1.1.2, h1.1.2, h1.2, hs, h3, hT, Bool.not_true, Bool.or_false, Bool.false_eq_true, if_false]

/-- What dispatch does with an entry that fails a check. -/
theorem runCmd_refused {op : Nat} {c : Cmd} {s : State} {f : Fail} (h : refusedWith op c f s = true) :
    runCmd op c s = refuseChecked c op f (dispatched c s) := by
  unfold refusedWith at h
  simp only [Bool.and_eq_true, Bool.not_eq_true'] at h
  obtain ⟨⟨h1, h2⟩, h3⟩ := h
  simp only [takesEntry, Bool.and_eq_true, Bool.not_eq_true', Option.isNone_iff_eq_none] at h1
  split at h3
  · rename_i sp hs
    have h4 : checkCmd sp c (checkView sp c (dispatched c s)) = some f := by simpa using h3
    unfold dispatched at *
    simp only [runCmd, dispatch, h1.1.1.1.1, h1.1.1.1.2, h1.1.1.2, h1.1.2, h1.2, hs, h4, h2, Bool.not_true, Bool.or_false, Bool.false_eq_true, if_false]
  · cases h3

end Sys2Proof.Machine
end

