-- ==== Sys2Proof/Laws/Memory.lean ====
section
/-! SUPPORT. The device memory: every operation keeps its canonical form, a read finds the last write, and a write leaves every other byte alone. -/

namespace Sys2Proof.Machine

/-- The canonical form, said by addresses: no zero byte is listed and addresses rise. -/
theorem Memory.wf_iff (m : List Host.Cell) :
    Memory.wf m = true ↔ (∀ c ∈ m, c.2 ≠ 0) ∧ m.Pairwise (fun c d => c.1 < d.1) := by
  induction m with
  | nil => simp [Memory.wf]
  | cons c m ih =>
    obtain ⟨a, b⟩ := c
    cases m with
    | nil => simp [Memory.wf]
    | cons d m =>
      obtain ⟨x, y⟩ := d
      simp only [Memory.wf, Bool.and_eq_true, bne_iff_ne, ne_eq, decide_eq_true_eq, ih]
      constructor
      · rintro ⟨⟨hb, hlt⟩, hz, hp⟩
        refine ⟨fun c hc => ?_, List.Pairwise.cons (fun c hc => ?_) hp⟩
        · rcases List.mem_cons.mp hc with rfl | h
          · exact hb
          · exact hz c h
        · rcases List.mem_cons.mp hc with rfl | h
          · exact hlt
          · exact Nat.lt_trans hlt ((List.pairwise_cons.mp hp).1 c h)
      · rintro ⟨hz, hp⟩
        obtain ⟨h1, h2⟩ := List.pairwise_cons.mp hp
        exact ⟨⟨hz (a, b) (List.mem_cons_self ..), h1 (x, y) (List.mem_cons_self ..)⟩,
          fun c hc => hz c (List.mem_cons_of_mem _ hc), h2⟩

/-- An address listed after a write is the one written or was listed before. -/
theorem Memory.mem_write {m : List Host.Cell} {k : Nat} {v : Byte} {c : Host.Cell} :
    c ∈ Memory.write m k v → (c = (k, v) ∧ v ≠ 0) ∨ c ∈ m := by
  induction m with
  | nil =>
    unfold Memory.write
    split
    · simp
    · rename_i h
      intro hc
      exact .inl ⟨by simpa using hc, h⟩
  | cons d m ih =>
    obtain ⟨a, b⟩ := d
    unfold Memory.write
    (repeat' split) <;> intro hc
    · exact .inr hc
    · rename_i h
      rcases List.mem_cons.mp hc with rfl | hc
      · exact .inl ⟨rfl, h⟩
      · exact .inr hc
    · exact .inr (List.mem_cons_of_mem _ hc)
    · rename_i h
      rcases List.mem_cons.mp hc with rfl | hc
      · exact .inl ⟨rfl, h⟩
      · exact .inr (List.mem_cons_of_mem _ hc)
    · rcases List.mem_cons.mp hc with rfl | hc
      · exact .inr (List.mem_cons_self ..)
      · rcases ih hc with h | h
        · exact .inl h
        · exact .inr (List.mem_cons_of_mem _ h)

/-- Writing a byte keeps the canonical form. -/
theorem Memory.wf_write {m : List Host.Cell} (k : Nat) (v : Byte) (h : Memory.wf m = true) :
    Memory.wf (Memory.write m k v) = true := by
  rw [Memory.wf_iff] at h ⊢
  obtain ⟨hz, hp⟩ := h
  refine ⟨fun c hc => ?_, ?_⟩
  · rcases Memory.mem_write hc with ⟨rfl, hv⟩ | hc
    · exact hv
    · exact hz c hc
  · clear hz
    induction m with
    | nil =>
      unfold Memory.write
      split <;> simp
    | cons d m ih =>
      obtain ⟨a, b⟩ := d
      obtain ⟨h1, h2⟩ := List.pairwise_cons.mp hp
      unfold Memory.write
      split
      · rename_i hk
        split
        · exact hp
        · refine List.Pairwise.cons (fun c hc => ?_) hp
          rcases List.mem_cons.mp hc with rfl | hc
          · exact hk
          · exact Nat.lt_trans hk (h1 c hc)
      · rename_i hk
        split
        · rename_i he
          split
          · exact h2
          · exact List.Pairwise.cons (fun c hc => by simpa [he] using h1 c hc) h2
        · rename_i hne
          refine List.Pairwise.cons (fun c hc => ?_) (ih h2)
          rcases Memory.mem_write hc with ⟨rfl, _⟩ | hc
          · show a < k
            omega
          · exact h1 c hc

/-- Writing bytes keeps the canonical form. -/
theorem Memory.wf_writes (bs : List Byte) : ∀ {m : List Host.Cell} (a : Nat), Memory.wf m = true →
    Memory.wf (Memory.writes m a bs) = true := by
  induction bs with
  | nil => intro m a h; exact h
  | cons b bs ih => intro m a h; exact ih (a + 1) (Memory.wf_write a b h)

/-- Leaving cells out keeps the canonical form. -/
theorem Memory.wf_filter {m : List Host.Cell} (p : Host.Cell → Bool) (h : Memory.wf m = true) :
    Memory.wf (m.filter p) = true := by
  rw [Memory.wf_iff] at h ⊢
  exact ⟨fun c hc => h.1 c (List.mem_filter.mp hc).1, h.2.filter p⟩

/-- Erasing a range keeps the canonical form. -/
theorem Memory.wf_clear {m : List Host.Cell} (lo hi : Nat) (h : Memory.wf m = true) :
    Memory.wf (Memory.clear m lo hi) = true := Memory.wf_filter _ h

/-- The load records of an image keep the canonical form. -/
theorem Memory.wf_foldl {α : Type} (f : List Host.Cell → α → List Host.Cell)
    (hf : ∀ m x, Memory.wf m = true → Memory.wf (f m x) = true) (xs : List α) :
    ∀ {m : List Host.Cell}, Memory.wf m = true → Memory.wf (xs.foldl f m) = true := by
  induction xs with
  | nil => intro m h; exact h
  | cons x xs ih => intro m h; exact ih (hf m x h)

/-- Moving the bytes of a stack under other masks keeps the canonical form. -/
theorem Memory.wf_remapXor {s : State} (n : Nat) (old new : List Nat) (h : Memory.wf s.mem = true) :
    Memory.wf (remapXor n old new s).mem = true :=
  Memory.wf_foldl (fun m (c : Host.Cell) => Memory.write m c.1 c.2) (fun _ c hm => Memory.wf_write c.1 c.2 hm) _
    (Memory.wf_filter _ h)

/-- Zeroing a stack keeps the canonical form. -/
theorem Memory.wf_zeroStack {s : State} (n : Nat) (h : Memory.wf s.mem = true) :
    Memory.wf (zeroStack n s).mem = true := Memory.wf_clear _ _ h

/-- Reset memory lists nothing. -/
theorem Memory.wf_reset : Memory.wf State.reset.mem = true := rfl

/-- In canonical form an address below the first one listed reads 0. -/
theorem Memory.read_below {m : List Host.Cell} {a : Nat} (h : ∀ c ∈ m, a < c.1) : Memory.read m a = 0 := by
  induction m with
  | nil => rfl
  | cons c m ih =>
    obtain ⟨b, v⟩ := c
    have hb : a < b := h (b, v) (List.mem_cons_self ..)
    have : ¬ b = a := by omega
    simp only [Memory.read, this, if_false]
    exact ih (fun c hc => h c (List.mem_cons_of_mem _ hc))

/-- A read of the byte written answers it. -/
theorem Memory.read_write_self {m : List Host.Cell} (k : Nat) (v : Byte) (h : Memory.wf m = true) :
    Memory.read (Memory.write m k v) k = v := by
  have hp := ((Memory.wf_iff m).mp h).2
  clear h
  induction m with
  | nil =>
    unfold Memory.write
    split
    · rename_i h; exact h.symm
    · simp [Memory.read]
  | cons c m ih =>
    obtain ⟨a, b⟩ := c
    obtain ⟨h1, h2⟩ := List.pairwise_cons.mp hp
    unfold Memory.write
    split
    · rename_i hk
      split
      · rename_i hv
        rw [hv]
        refine Memory.read_below (fun c hc => ?_)
        rcases List.mem_cons.mp hc with rfl | hc
        · exact hk
        · exact Nat.lt_trans hk (h1 c hc)
      · simp [Memory.read]
    · split
      · rename_i he
        split
        · rename_i hv
          rw [hv]
          exact Memory.read_below (fun c hc => by simpa [he] using h1 c hc)
        · simp [Memory.read]
      · rename_i hne
        have : ¬ a = k := fun e => hne e.symm
        simp only [Memory.read, this, if_false]
        exact ih h2

/-- A write leaves every other byte alone. -/
theorem Memory.read_write_other {m : List Host.Cell} {k a : Nat} (v : Byte) (h : a ≠ k) :
    Memory.read (Memory.write m k v) a = Memory.read m a := by
  induction m with
  | nil =>
    unfold Memory.write
    split
    · rfl
    · simp [Memory.read, Ne.symm h]
  | cons c m ih =>
    obtain ⟨b, w⟩ := c
    have hk : ¬ k = a := fun e => h e.symm
    unfold Memory.write
    (repeat' split) <;> simp_all [Memory.read]

/-- Writing bytes leaves every byte outside them alone. -/
theorem Memory.read_writes_outside : ∀ (bs : List Byte) (m : List Host.Cell) (k a : Nat),
    (a < k ∨ k + bs.length ≤ a) → Memory.read (Memory.writes m k bs) a = Memory.read m a
  | [], _, _, _, _ => rfl
  | b :: bs, m, k, a, h => by
    simp only [List.length_cons] at h
    simp only [Memory.writes]
    rw [Memory.read_writes_outside bs _ (k + 1) a (by omega), Memory.read_write_other b (by omega)]

/-- Bytes read back as they were written. -/
theorem Memory.reads_writes : ∀ (bs : List Byte) (m : List Host.Cell) (k : Nat), Memory.wf m = true →
    Memory.reads (Memory.writes m k bs) k bs.length = bs
  | [], _, _, _ => rfl
  | b :: bs, m, k, h => by
    simp only [List.length_cons, Memory.reads, Memory.writes]
    rw [Memory.read_writes_outside bs _ (k + 1) k (by omega), Memory.read_write_self k b h,
      Memory.reads_writes bs _ (k + 1) (Memory.wf_write k b h)]

end Sys2Proof.Machine
end

