-- ==== Sys2Proof/WellFormed.lean ====
section
/-! DEFINITION. Which commands are well formed: every operand within the width or number of objects that its rule gives it. The meanings are total; a run of the hardware only ever brings well-formed commands. -/

namespace Sys2Proof

/-- A ring or path of 02_command_mailbox: PF0 rings 0 to 3, slices 0 to 4,095. -/
def Path.wf : Path → Bool
  | .pf0 n => decide (n < 4)
  | .slice n => decide (n < 4096)
  | .serial | .debug | .peer | .firmware => true

/-- The header fields of R39 within their widths, and no more payload than PAYLOAD_LEN. -/
def Cmd.wf (c : Cmd) : Bool :=
  c.path.wf && decide (c.flags < 2 ^ 8) && decide (c.version < 2 ^ 8) && decide (c.payloadLen < 2 ^ 32) &&
  decide (c.tag < 2 ^ 64) && decide (c.bufAddr < 2 ^ 64) && decide (c.bufCap < 2 ^ 32) && decide (c.txnId < 2 ^ 32) &&
  decide (c.resource < 2 ^ 32) && decide (c.rsvd < 2 ^ 8) && decide (c.phase < 2 ^ 8) &&
  decide (c.payload.length ≤ c.payloadLen)

/-- A fetched entry has 512 bytes (R39). -/
def Fetched.wf (f : Fetched) : Bool := match f.entry with | some e => e.length == 512 | none => true

/-- VOQs 0 to 1,048,575, egress queues 0 to 131,071 (R250). -/
def QId.wf (q : QId) : Bool := if q.egress then decide (q.num < 131072) else decide (q.num < 1048576)

/-- A credit message of R292 within its field widths. -/
def CreditMsg.wf (m : CreditMsg) : Bool :=
  decide (m.device < 2048) && decide (m.voq < 2 ^ 20) && decide (m.target < 256) && decide (m.offset < 8) &&
  decide (m.value < 2 ^ 29)

/-- A table and an instance (R161, R162). -/
def instOk (table inst : Nat) : Bool := decide (table < 1024) && decide (inst < 6)
/-- A port number (R99): 24 octets of eight lanes. -/
def portOk (p : Nat) : Bool := decide (p < 192)
/-- A thread of R331: 64 cores of eight threads. -/
def threadOk (t : Nat) : Bool := decide (t < 512)
/-- A thread and register fields of five bits. -/
def threadRegs (t : Nat) (rs : List Nat) : Bool := threadOk t && rs.all (fun r => decide (r < 32))
/-- A slice and one of its rings (R373). -/
def ringOk (sl loc : Nat) : Bool := decide (sl < 4096) && decide (loc < 128)

/-- Straps, the two directory copies, slots 0 and 1 of kinds 1 to 3, words and bits of the two copies of the OTP (R447, R448, R470, R489). -/
def BootInput.wf (b : BootInput) : Bool :=
  decide (b.smbAddr < 4) && b.badDirs.all (fun k => decide (k < 2)) && b.badSlots.all (fun k => decide (2 ≤ k) && decide (k < 8)) && b.hangs.all (fun k => decide (k ≤ 2)) &&
  b.flashed.all (fun p => decide (2 ≤ p.1) && decide (p.1 < 8)) && b.otp.all (fun p => decide (p.1 < 128) && decide (p.2 < 2 ^ 64))

/-- The well-formed commands. -/
def Instr.wf : Instr → Bool
  -- mailbox commands
  | .deviceInfo c | .deviceSetMode c | .deviceReset c | .mboxNop c | .mboxRingSet c | .mboxRingDisable c
  | .mboxRingStatus c | .rightsGet c | .rightsSet c | .txnOpen c | .txnCommit c | .txnAbort c | .txnStatus c
  | .journalRead c | .journalRelease c | .journalCheckpoint c | .journalSetRegion c
  | .portGet c | .portConfig c | .portEnable c | .portDisable c | .portProtectSet c | .parserGet c | .parserLoad c
  | .parserRuleGroupSet c | .tableRead c | .tableSearch c | .tableInsert c | .tableUpdate c | .tableDelete c
  | .tableBulk c | .tableCreate c | .tableSetPolicy c | .stageGet c | .stageLoad c | .stagePolicerSet c
  | .stageMirrorSet c | .stageSampleSet c
  | .bufferGet c | .bufferPoolSet c | .schedGet c | .schedNodeSet c | .schedQueueSet c | .schedGateSet c
  | .fabricGet c | .fabricLinkSet c | .fabricDeviceSet c | .pairGet c | .pairSet c | .pairSwitchover c
  | .tahrGet c | .tahrChannelSet c | .tahrCounterSet c | .tahrCoreReset c
  | .sliceGet c | .sliceCreate c | .sliceQuiesce c | .sliceReset c | .sliceRemove c | .sliceFreeze c | .sliceSave c
  | .sliceRestore c | .sliceThaw c | .ringGet c | .ringSet c | .ringEnable c | .ringDisable c | .ringInvalidate c
  | .timeGet c | .timeSetOffset c | .timeSetRate c | .timePpsSet c | .monitorGet c | .monitorSet c
  | .monitorDumpSet c | .observeSetWindow c | .faultGet c | .faultClear c | .faultSetWindow c | .firmwareGet c
  | .firmwareWrite c | .firmwareActivate c | .firmwareAttest c | .hbmGet c | .hbmSet c | .debugRead c
  | .debugControl c => c.wf
  -- the mailbox
  | .mbDoorbell p v | .mbRingReset p v => p.wf && decide (v < 2 ^ 64)
  | .mailboxFetch p f | .mbFetchRetry p f => p.wf && f.wf
  | .mctpRequest _ | .mboxDataCapture => true
  | .mboxAddr v => decide (v < 2 ^ 16)
  | .mboxDataUpdate v => decide (v < 2 ^ 64)
  -- transactions and the journal
  | .txnIdleTimeout t => decide (t < 2 ^ 32)
  | .epochDrain tag => decide (tag < 8)
  | .tombstoneExpiry kind _ _ => decide (kind < 2)
  | .batchClose table inst _ => instOk table inst
  | .commitResume _ | .epochRetire _ | .phaseB _ | .checkpoint | .signature _ | .linkStateRecord => true
  -- ports
  | .frameReceive f => portOk f.port && f.fec.all (fun x => decide (x.1 < 8))
  | .pauseFrame p _ | .portFailure p _ | .linkGood p | .upDelay p | .holdTime p | .framedDefect p _ _
  | .gateAdvance p | .gateListStart p => portOk p
  | .ttiMultiframe p tti => portOk p && tti.trace.length == 64
  | .pauseExpiry p i | .xoffRepeat p i | .storm p i | .stormEnd p i => portOk p && decide (i < 8)
  | .waitToRestore g => decide (g < 4096)
  -- parser, stages and buffers
  | .parserEntry src pl => decide (src < 194) && decide (pl < 12)
  | .stageVisit _ | .endOfIngress _ | .endOfEgress _ | .transmit _ | .voqEnqueue | .reserveRefill | .reclaimSweep => true
  | .packing q | .refill q | .ageScan q => q.wf
  | .blockWriteComplete b => decide (b < 25165824)
  | .voqDequeue k => decide (k < 8)
  | .egressDequeue t | .grantIssue t => decide (t < 194)
  -- credit and fabric
  | .requestOn m | .requestOff m | .grant m | .creditReturn m | .lost m | .auditGrant m | .auditReturn m => m.wf
  | .auditSend | .presenceSend | .deviceDownFlood => true
  | .requestRepeat v => decide (v < 1048576)
  | .creditCellSend d | .cellFill d | .reorderTimeout d | .presenceTimeout d => decide (d < 2048)
  | .cellReceive l bs => decide (l < 512) && decide (80 ≤ bs.length) && decide (bs.length ≤ 272) && bs.length % 16 == 0
  | .presence d q p => decide (d < 2048) && decide (q < 2 ^ 24) && p.length == 64
  | .portStatus d q p => decide (d < 2048) && decide (q < 2 ^ 24) && p.length == 64
  | .deviceDown d i => decide (d < 2048) && decide (i < 2 ^ 16)
  | .laneTrainingDone l | .laneLock l | .laneRetry l | .laneBringupTimeout l => decide (l < 512)
  | .laneMarker l d i _ => decide (l < 512) && decide (d < 2048) && decide (i < 512)
  | .laneFailure l c => decide (l < 512) && decide (c < 16)
  -- the pair
  | .heartbeat b => decide (b.role < 8) && decide (b.incarnation < 2 ^ 16) && decide (b.journalHead < 2 ^ 64) && decide (b.applied < 2 ^ 64)
  | .pairBeatIn _ | .pairActIn _ | .bondRetrain | .heartbeatSend | .pairBeatToggle | .peerFailed | .takeoverRequest
  | .splitBrain | .pairLinkDown | .pairDissolve | .syncPoint | .deltaSend | .switchoverStart | .switchoverAck => true
  | .snapshot cs => cs.all (fun c => decide (c.1 < 2 ^ 16) && c.2.wf)
  | .journalRecord _ _ op st _ c => decide (op < 2 ^ 16) && decide (st < 2 ^ 16) && c.wf
  | .commitAck q | .switchMsg q => decide (q < 2 ^ 64)
  | .counterDelta ds => decide (ds.1 < 2 ^ 32) && ds.2.all (fun d => decide (d.1 < 1024))
  | .redirectRecord _ => true
  | .pairPortMessage p st ch => portOk p && decide (st < 2) && decide (ch < 256)
  | .timeAlign a b c d _ _ => [a, b, c, d].all (fun x => decide (x < 2 ^ 64))
  | .activationArm k t x => decide (k < 8) && decide (t < 2 ^ 64) && x.length == 96
  -- slices, rings and accelerators
  | .ringFetch sl l _ | .fetchRetry sl l _ | .txFrameDispatch sl l _ | .txFrameComplete sl l | .coalesceTimeout sl l => ringOk sl l
  | .submissionDoorbell sl l v | .completionDoorbell sl l v | .arm sl l v | .hostRingReset sl l v => ringOk sl l && decide (v < 2 ^ 64)
  | .jobDispatch e sl l _ => decide (1 ≤ e) && decide (e < 4) && ringOk sl l
  | .jobComplete e _ => decide (1 ≤ e) && decide (e < 4)
  | .dmaReadError d => match d with
    | .mailbox p => p.wf
    | .descriptor sl l | .txFrame sl l => ringOk sl l
    | .jobSource e _ => decide (1 ≤ e) && decide (e < 4)
  | .quiesceDrainEnd sl | .quiesceTimeout sl => decide (sl < 4096)
  | .pf0Flr => true
  | .pf1Flr l | .hotReset l | .linkLoss l | .pciePerst l | .pciePerstRelease l | .pcieLinkUp l => decide (l < 2)
  | .pciePowerState l f _ => decide (l < 2) && decide (f < 8)
  -- Tahr threads
  | .wfe t a b | .chRsv t a b | .chCmt t a b | .chGet t a b | .chRel t a b => threadRegs t [a, b]
  | .wfeReturn t | .fenceI t | .rv64imac t | .timer t | .holdTimeout t => threadOk t
  | .cyc t rd | .pstatRead t rd => threadRegs t [rd]
  | .chWr t a b i => threadRegs t [a, b] && decide (i < 4096)
  | .chRd t a b i => threadRegs t [a, b] && decide (i < 4096)
  | .pld t a b c | .pdispRelease t a b c | .pdispEgress t a b c | .pdispVoq t a b c | .pdispReinject t a b c
  | .pdispGive t a b c | .tblGo t a b c => threadRegs t [a, b, c]
  | .pst t a b c d => threadRegs t [a, b, c, d]
  | .tcmp t v | .tsig t v => threadOk t && decide (v < 2 ^ 64)
  | .graceExpiry _ => true
  | .stall k | .stallRecovery k | .tahrDump k => decide (k < 2)
  | .dmiAccess k _ a d => decide (k < 2) && decide (a < 128) && decide (d < 2 ^ 32)
  -- table engines
  | .tblCmdRead n v | .tblCmdSearch n v | .tblCmdInsert n v | .tblCmdUpdate n v | .tblCmdDelete n v => decide (n < 24) && decide (v < 2 ^ 64)
  | .relClear t i | .learnEvent t i | .sweepStart t i | .sweepVisit t i => instOk t i
  | .trieFree t => decide (t < 1024)
  | .tblCmdBusyClear n => decide (n < 24)
  -- HBM
  | .hbmTempRead k _ | .hbmInitComplete k => decide (k < 6)
  | .refreshWindow pc | .retrainHold pc | .retrainPause pc | .retrainEnd pc _ => decide (pc < 192)
  | .hbmActivate pc b r => decide (pc < 192) && decide (b < 48) && decide (r < 16384)
  | .neighbourRefresh pc b => decide (pc < 192) && decide (b < 48)
  -- faults
  | .faultReport src res d => decide (1 ≤ src) && decide (src < 32) && decide (res < 2 ^ 32) && decide (d.length ≤ 16)
  | .faultRecord | .collectorCompare _ => true
  | .selfTestComplete res _ => decide (res < 2 ^ 32)
  -- observation, registers, recovery, dumps, pins
  | .observationRead off size | .observationWrite off size => decide (off < 2 ^ 32) && decide (1 ≤ size) && decide (size < 9)
  | .registerWrite a v => decide (a < 2 ^ 32) && decide (v < 2 ^ 64)
  | .bridgeDepthSample cls d => decide (cls < 6) && decide (d < 2 ^ 32)
  | .dumpCapture n | .dumpFrameWritten n => decide (n < 2)
  | .ppsOutRise | .ppsOutFall | .ppsIn _ | .smbusAlertResponse | .refclkLoss | .pcieRefclkLoss
  | .warmResetStart => true
  | .supplySample mv => decide (mv < 2 ^ 16)
  | .regulatorFault d | .domainInRegulation d => decide (d < 20)
  | .laneRefclkLoss n => decide (n < 16)
  | .porstRelease b | .brownOutEnd b | .bootWatchdog b | .warmResetRelease b | .recoveryGo b => b.wf
  | .porstAssert _ | .warmRstN _ | .activationStart _ => true

end Sys2Proof
end

