-- ==== Sys2Proof/Tests/Slice0.lean ====
section
/-! SUPPORT. Tests of the model: the worked examples of the spec, an ill-formed command for each check of WellFormed, and for every statement with hypotheses states and operands that meet them, clause by clause. -/

namespace Sys2Proof.Tests

set_option Elab.async false

open Sys2Proof.Machine

/-- Every power domain on. -/
def allOn : NMap Domain := (List.range 20).map (fun d => (d, { on := true }))
/-- A device that has booted: out of reset, all domains on, firmware ready, H0 to H5 ready. -/
def up : State :=
  { State.reset with
    power := { State.reset.power with porst := false, domains := allOn }
    boot := { State.reset.boot with phase := 3 }
    hbm := (List.range 6).map (fun n => (n, { ready := true })) }
/-- The same in fabric-connected mode. -/
def upFab : State := { up with fabric.connected := true }
/-- A command entry of PF0 ring `n`. -/
def entry (n : Nat) (payload : List Byte) : Cmd :=
  { path := .pf0 n, flags := 0, version := 1, payloadLen := payload.length, tag := 7, bufAddr := 0, bufCap := 0,
    txnId := 0, resource := 0, rsvd := 0, phase := 1, payload := payload, readable := true, writable := true }
/-- The state a step answers, or the one given. -/
def after (o : Host.Outcome State Fault Refusal) (s : State) : State := match o with | .next t => t | _ => s

/-! ### The queue, the step and reset -/

/-- Nothing strapped, no flash. -/
def strapped : BootInput :=
  { hostSplit := false, clkMode := false, bootMode := false, pairId := false, smbAddr := 0, flash := false, counterOk := true,
    journalOk := true, badSlots := [], hangs := [], flashed := [], otp := [], chain := none }
/-- The collector's halves were compared at 0; it is `n` ns. -/
def comparedThen (n : Nat) : State := { up with faults.comparedAt := some 0, time.uptime := n }
/-- Stage `n` of a boot is due. -/
def booting (n : Nat) : State := { up with boot := { up.boot with stage := n, input := some strapped } }
theorem test_wit_EmptyQueueTicks : up.pending = [] ∧ up.boot.stage = 0 ∧ up.boot.activating = none ∧ running up = true ∧ up.power.refclkLost = false ∧
    (clockTick (comparedThen 9999)).faults.comparedAt = some 0 ∧ running (clockTick (comparedThen 9999)) = true ∧
    (clockTick (comparedThen 9999)).faults.collectorOk = true ∧ 0 + 10000 ≤ (clockTick (comparedThen 9999)).time.uptime ∧
    (clockTick (comparedThen 0)).faults.comparedAt = some 0 ∧ (clockTick (comparedThen 0)).time.uptime < 0 + 10000 := by decide
/-- What a boot step of a tick finds. -/
def ticked (s : State) : State := warmTick (powerTick (collectorTick (clockTick s)))
theorem test_wit_EmptyQueueTicks_warm : ({ up with power := { up.power with warm := true }, time.uptime := 999999 } : State).pending = [] ∧
    (clockTick { up with power := { up.power with warm := true }, time.uptime := 999999 }).power.warm = true ∧
    (clockTick { up with power := { up.power with warm := true }, time.uptime := 999999 }).power.warmAt + 1000000 ≤
      (clockTick { up with power := { up.power with warm := true }, time.uptime := 999999 }).time.uptime ∧ [0, 1, 12].contains 2 = false := by decide
theorem test_wit_EmptyQueueTicks_boot : ∀ n ∈ [5, 11], (booting n).pending = [] ∧ (ticked (booting n)).boot.stage = n ∧ n ≠ 0 ∧
    (ticked (booting n)).boot.input = some strapped ∧ running (ticked (booting n)) = true ∧
    (ticked (booting n)).faults.stagHeld = false ∧
    (ticked (booting n)).boot.stageAt ≤ (ticked (booting n)).time.uptime ∧ (∀ d ∈ stageDomains n, d ∉ (ticked (booting n)).power.bringUp) := by decide
theorem test_wit_EveryCommandAnswers : withinRatings (.supplySample 14500) = true ∧ 14500 < 14501 := by decide
theorem test_wit_NoRunStops : [Instr.supplySample 14500, .mboxDataCapture].all withinRatings = true := by decide
theorem test_wit_PinsFollowTheState : State.reset.pins = pinLevels State.reset ∧ ∃ t, step State.reset = .next t :=
  ⟨by decide, _, rfl⟩
theorem test_wit_ResetBindsEachPortToItsQueues : State.reset ∈ [State.reset, porReset up, warmState up] ∧
    (∀ p < 192, 131071 ≠ p % 8 * 16384 + p / 8) ∧ (∀ p < 192, 24 ≠ p % 8 * 16384 + p / 8) :=
  ⟨List.mem_cons_self .., fun p _ => by omega, fun p _ => by omega⟩
theorem test_empty_queue_ticks : (after (step up) up).time.uptime = 1 := by decide
theorem test_queue_front : (after (step { up with pending := [.mboxAddr 5, .mboxAddr 6] }) up).pending = [.mboxAddr 6] := by decide

/-! ### Mailbox commands -/

theorem test_wit_ReadCommandsComplete : ∃ sp r, readRow (.mboxNop (entry 0 [])) = some (0x0201, entry 0 []) ∧
    specOf 0x0201 = some sp ∧ accepted 0x0201 (entry 0 []) up = true ∧ burstNear sp (entry 0 []) (dispatched (entry 0 []) up) = false ∧
    sp.run (entry 0 []) (occupy (entry 0 []) (dispatched (entry 0 []) up)) = .ok r ∧ 0x0201 ≠ 0x1701 :=
  ⟨_, _, rfl, rfl, by decide, by decide, rfl, by decide⟩
/-- TABLE_READ of entry 0 of table 0. -/
def readCmd : Cmd := entry 0 (zeros 16)
/-- Table 0 in stack H0, in whose first pseudo-channel an uncorrectable burst stands; the safe state. -/
def burstAt0 : State := { up with
  tables := [(0, { kind := 3, memory := 1, keyBytes := 4, dataBytes := 8, capacity := 64, regions := [0], insts := [(0, {})] })]
  pchans := [(0, { bad := true })], faults.safe := true }
theorem test_wit_ReadCommandsComplete_burst : ∃ sp r, readRow (.tableRead readCmd) = some (0x0801, readCmd) ∧ specOf 0x0801 = some sp ∧
    accepted 0x0801 readCmd burstAt0 = true ∧ burstNear sp readCmd (dispatched readCmd burstAt0) = true ∧
    sp.run readCmd (occupy readCmd (drawBelow 2 (dispatched readCmd burstAt0)).2) = .ok r :=
  ⟨_, _, rfl, rfl, by decide, by decide, rfl⟩

/-- A transaction of PF0 open as number 1. -/
def upTxn : State := { up with mgt.txns := [(1, { origin := 0x1000 })], mgt.nextTxn := 2 }
/-- MONITOR_SET of instance 0, point 1. -/
def monSet : Cmd := entry 0 ([0, 0, 1, 4, 1] ++ zeros 11)
/-- The same, staged in transaction 1. -/
def monSetTxn : Cmd := { monSet with txnId := 1 }
/-- MBOX_RING_DISABLE of ring 1. -/
def ringOff : Cmd := entry 0 [1]
/-- Ring 1 running. -/
def upRing1 : State := { up with mgt.rings := mset up.mgt.rings 1 { state := 1, log2 := 4 } }

theorem test_wit_Operational_auto : ∃ sp r, operateRow (.mboxRingDisable ringOff) = some (0x0203, ringOff) ∧ specOf 0x0203 = some sp ∧
    accepted 0x0203 ringOff upRing1 = true ∧ burstNear sp ringOff (dispatched ringOff upRing1) = false ∧ sp.run ringOff (occupy ringOff (dispatched ringOff upRing1)) = .ok r ∧ r.log = .auto :=
  ⟨_, _, rfl, rfl, by decide, by decide, rfl, rfl⟩
theorem test_wit_Operational_silent : ∃ sp r, operateRow (.mboxRingDisable ringOff) = some (0x0203, ringOff) ∧ specOf 0x0203 = some sp ∧
    accepted 0x0203 ringOff up = true ∧ burstNear sp ringOff (dispatched ringOff up) = false ∧ sp.run ringOff (occupy ringOff (dispatched ringOff up)) = .ok r ∧ r.log = .silent :=
  ⟨_, _, rfl, rfl, by decide, by decide, rfl, rfl⟩
theorem test_wit_Operational_own : ∃ sp r seq, operateRow (.journalCheckpoint (entry 0 [])) = some (0x0503, entry 0 []) ∧
    specOf 0x0503 = some sp ∧ accepted 0x0503 (entry 0 []) up = true ∧ burstNear sp (entry 0 []) (dispatched (entry 0 []) up) = false ∧
    sp.run (entry 0 []) (occupy (entry 0 []) (dispatched (entry 0 []) up)) = .ok r ∧ r.log = .own seq :=
  ⟨_, _, _, rfl, rfl, by decide, by decide, rfl, rfl⟩
/-- TAHR_CORE_RESET of core 0 with a grace of 1,000,000 µs. -/
def coreResetCmd : Cmd := { entry 0 (leBytes 4 1000000 ++ zeros 4) with resource := 9 * 2 ^ 27 }
theorem test_wit_Operational_later : ∃ sp r, operateRow (.tahrCoreReset coreResetCmd) = some (0x0E04, coreResetCmd) ∧
    specOf 0x0E04 = some sp ∧ accepted 0x0E04 coreResetCmd up = true ∧ burstNear sp coreResetCmd (dispatched coreResetCmd up) = false ∧
    sp.run coreResetCmd (occupy coreResetCmd (dispatched coreResetCmd up)) = .ok r ∧ r.log = .later :=
  ⟨_, _, rfl, rfl, by decide, by decide, rfl, rfl⟩
theorem test_wit_ConfigurationCommandsAreStaged : ∃ sp x, configRow (.monitorSet monSetTxn) = some (0x1202, monSetTxn) ∧
    specOf 0x1202 = some sp ∧ accepted 0x1202 monSetTxn upTxn = true ∧ monSetTxn.txnId ≠ 0 ∧
    txnCheck monSetTxn (dispatched monSetTxn upTxn) = none ∧ mget (dispatched monSetTxn upTxn).mgt.txns 1 = some x ∧
    meets (opObjects ⟨0x1202, monSetTxn⟩ (stagedView x.staged ⟨0x1202, monSetTxn⟩ (dispatched monSetTxn upTxn)))
      (stagedElsewhere 1 (dispatched monSetTxn upTxn)) = false ∧
    stagingFail sp monSetTxn (stagedView x.staged ⟨0x1202, monSetTxn⟩ (dispatched monSetTxn upTxn)) = none ∧
    limitOk x ⟨0x1202, monSetTxn⟩ (dispatched monSetTxn upTxn) = true :=
  ⟨_, _, rfl, rfl, by decide, by decide, by decide, rfl, by decide, by decide, by decide⟩
theorem test_wit_ConfigurationCommandsCommitAlone : ∃ sp p, configRow (.monitorSet monSet) = some (0x1202, monSet) ∧
    specOf 0x1202 = some sp ∧ accepted 0x1202 monSet up = true ∧ monSet.txnId = 0 ∧
    meets (opObjects ⟨0x1202, monSet⟩ (dispatched monSet up)) (stagedElsewhere 0 (dispatched monSet up)) = false ∧
    opBurst ⟨0x1202, monSet⟩ (committing monSet 0 (dispatched monSet up)) = false ∧ mustWait [⟨0x1202, monSet⟩] (dispatched monSet up) = false ∧
    placeAll true [⟨0x1202, monSet⟩] (committing monSet 0 (dispatched monSet up)) = .ok p ∧
    phased (commitOf 0x1202 monSet 0 [⟨0x1202, monSet⟩] (dispatched monSet up)) (committing monSet 0 (dispatched monSet up)) = false :=
  ⟨_, _, rfl, rfl, by decide, rfl, by decide, by decide, by decide, rfl, by decide⟩
/-- TABLE_BULK that inserts index 1 with data 0 into table 0. -/
def bulkCmd : Cmd := entry 0 (leBytes 4 0 ++ [3, 0, 0, 0] ++ leBytes 4 1 ++ zeros 4 ++ leBytes 8 1 ++ zeros 8)
/-- Table 0, an index table in HBM. -/
def indexHbm : State := { up with tables := [(0, { kind := 3, memory := 1, keyBytes := 4, dataBytes := 8, capacity := 64, insts := [(0, {})] })] }
theorem test_wit_ConfigurationCommandsCommitAlone_bulk : ∃ sp p, configRow (.tableBulk bulkCmd) = some (0x0806, bulkCmd) ∧
    specOf 0x0806 = some sp ∧ accepted 0x0806 bulkCmd indexHbm = true ∧ bulkCmd.txnId = 0 ∧
    meets (opObjects ⟨0x0806, bulkCmd⟩ (dispatched bulkCmd indexHbm)) (stagedElsewhere 0 (dispatched bulkCmd indexHbm)) = false ∧
    opBurst ⟨0x0806, bulkCmd⟩ (committing bulkCmd 0 (dispatched bulkCmd indexHbm)) = false ∧ mustWait [⟨0x0806, bulkCmd⟩] (dispatched bulkCmd indexHbm) = false ∧
    placeAll true [⟨0x0806, bulkCmd⟩] (committing bulkCmd 0 (dispatched bulkCmd indexHbm)) = .ok p ∧
    phased (commitOf 0x0806 bulkCmd 0 [⟨0x0806, bulkCmd⟩] (dispatched bulkCmd indexHbm)) (committing bulkCmd 0 (dispatched bulkCmd indexHbm)) = true :=
  ⟨_, _, rfl, rfl, by decide, rfl, by decide, by decide, by decide, rfl, by decide⟩
/-- TXN_COMMIT of transaction 1. -/
def commitCmd : Cmd := { entry 0 [] with txnId := 1 }
/-- Transaction 1 with one operation staged. -/
def upStaged : State := { up with mgt.txns := [(1, { origin := 0x1000, staged := [⟨0x1202, monSetTxn⟩] })] }
theorem test_wit_TransactionsCommit : ∃ p, accepted 0x0402 commitCmd upStaged = true ∧
    txnCheck commitCmd (dispatched commitCmd upStaged) = none ∧
    (mgetD (dispatched commitCmd upStaged).mgt.txns 1 {}).staged = [⟨0x1202, monSetTxn⟩] ∧
    commitRoom [⟨0x1202, monSetTxn⟩] (dispatched commitCmd upStaged) = true ∧
    [(⟨0x1202, monSetTxn⟩ : Staged)].any (fun st => writesHbm st (committing commitCmd 1 (dispatched commitCmd upStaged))) = false ∧
    mustWait [⟨0x1202, monSetTxn⟩] (dispatched commitCmd upStaged) = false ∧
    [(⟨0x1202, monSetTxn⟩ : Staged)].any (fun st => opBurst st (committing commitCmd 1 (dispatched commitCmd upStaged))) = false ∧
    placeAll true [⟨0x1202, monSetTxn⟩] (committing commitCmd 1 (dispatched commitCmd upStaged)) = .ok p :=
  ⟨_, by decide, by decide, by decide, by decide, by decide, by decide, by decide, rfl⟩
/-- TABLE_INSERT of index 1 with data 0 into table 0. -/
def hbmInsert : Cmd := { entry 0 (leBytes 4 0 ++ leBytes 2 4 ++ leBytes 2 8 ++ zeros 8 ++ leBytes 8 1 ++ zeros 8) with txnId := 1 }
/-- It is staged for an index table in HBM. -/
def upHbm : State := { up with
  mgt.txns := [(1, { origin := 0x1000, staged := [⟨0x0803, hbmInsert⟩] })],
  tables := [(0, { kind := 3, memory := 1, keyBytes := 4, dataBytes := 8, capacity := 64, insts := [(0, {})] })] }
theorem test_wit_TransactionsCommit_hbm : ∃ p, accepted 0x0402 commitCmd upHbm = true ∧ txnCheck commitCmd (dispatched commitCmd upHbm) = none ∧
    (mgetD (dispatched commitCmd upHbm).mgt.txns 1 {}).staged = [⟨0x0803, hbmInsert⟩] ∧
    commitRoom [⟨0x0803, hbmInsert⟩] (dispatched commitCmd upHbm) = true ∧ mustWait [⟨0x0803, hbmInsert⟩] (dispatched commitCmd upHbm) = false ∧
    [(⟨0x0803, hbmInsert⟩ : Staged)].any (fun st => writesHbm st (committing commitCmd 1 (dispatched commitCmd upHbm))) = true ∧
    [(⟨0x0803, hbmInsert⟩ : Staged)].any (fun st => opBurst st (committing commitCmd 1 (dispatched commitCmd upHbm))) = false ∧
    placeAll true [⟨0x0803, hbmInsert⟩] (committing commitCmd 1 (dispatched commitCmd upHbm)) = .ok p :=
  ⟨_, by decide, by decide, by decide, by decide, by decide, by decide, by decide, rfl⟩
/-- A STAGE_POLICER_SET, which is double-banked. -/
def policerTxn : Cmd := { entry 0 (zeros 48) with txnId := 1 }
/-- It is staged while the last epoch has not retired from ingress. -/
def upBanked : State := { up with mgt.txns := [(1, { origin := 0x1000, staged := [⟨0x0903, policerTxn⟩] })], mgt.ingressRetired := false }
theorem test_wit_CommitsWaitForTheirEpoch : accepted 0x0402 commitCmd upBanked = true ∧
    txnCheck commitCmd (dispatched commitCmd upBanked) = none ∧
    (mgetD (dispatched commitCmd upBanked).mgt.txns 1 {}).staged = [⟨0x0903, policerTxn⟩] ∧
    commitRoom [⟨0x0903, policerTxn⟩] (dispatched commitCmd upBanked) = true ∧
    mustWait [⟨0x0903, policerTxn⟩] (dispatched commitCmd upBanked) = true ∧
    mustWait [⟨0x1202, monSetTxn⟩] { upStaged with mgt.commits := [{ id := 3, writing := true }] } = true := by decide
theorem test_wit_RefusedCommandsChangeNothing :
    refusedWith 0x0201 { entry 0 [] with version := 2 } (failWith St.badVersion) up = true ∧
    refusedWith 0x1202 (entry 0 (zeros 15)) (failAt St.badLength 4) up = true ∧
    refusedWith 0x1103 (entry 0 (leBytes 8 500000001)) (badField 0) up = true := by decide
/-- Ring 0 with one posted entry, in execution. -/
def upBusy : State := { up with mgt.rings := mset up.mgt.rings 0 { state := 1, log2 := 4, resident := true, producer := 1, executing := true } }
theorem test_wit_CompletionsAdvanceTheRing : (entry 0 []).path = .pf0 0 ∧ (∀ k ∈ [1, 2, 3], (mbRing upBusy k).disabling = none) ∧
    (mbRing upBusy 0).resetting = false ∧ (mbRing upBusy 0).posted ≠ 0 ∧ (mbRing upBusy 0).resident = true ∧
    holdsDone (entry 0 []) (mbRing upBusy 0) [] upBusy = false ∧ holdsDone (entry 1 []) (mbRing upRing1 1) [] upRing1 = false ∧
    holdsDone (entry 1 []) (mbRing upRing1 1) [] { upRing1 with host.d3hot := [0] } = true ∧
    (∀ k ∈ [1, 2, 3], (mbRing upRing1 k).disabling = none) ∧ (mbRing upRing1 1).resident = false ∧ asleep upRing1 0 = false ∧
    (mbRing { upRing1 with mgt.rings := mset upRing1.mgt.rings 1 { state := 1, log2 := 4, producer := 1, executing := true } } 1).posted ≠ 0 := by decide
/-- The safe state. -/
def upSafe : State := { up with faults.safe := true }
theorem test_wit_SafeStateRefusesChanges : upSafe.faults.safe = true ∧ configRow (.monitorSet monSet) = some (0x1202, monSet) ∧
    (∃ sp, specOf 0x1202 = some sp ∧ monSet.version = 1 ∧ headerRsvd monSet = none ∧ payloadRsvd sp monSet upSafe = none ∧
      lengthFail sp monSet upSafe = none ∧ rightsFail sp monSet upSafe = none ∧ fieldsFail sp monSet upSafe = none) ∧
    refusedWith 0x1202 monSet (failWith St.safeState) upSafe = true ∧
    readRow (.mboxNop (entry 0 [])) = some (0x0201, entry 0 []) ∧
    operateRow (.deviceReset (entry 0 (zeros 8))) = some (0x0103, entry 0 (zeros 8)) :=
  ⟨by decide, rfl, ⟨_, rfl, by decide, by decide, by decide, by decide, by decide, by decide⟩, by decide, rfl, rfl⟩
/-- An MCTP body of 66 bytes with the vendor identifier. -/
def mctp : List Byte := [0x1F, 0x3D] ++ zeros 64
theorem test_wit_SerialPathHoldsOneCommand : running up = true ∧ (zeros 65).length < 66 ∧ beNat ((zeros 66).take 2) ≠ 0x1F3D ∧
    66 ≤ mctp.length ∧ beNat (mctp.take 2) = 0x1F3D ∧ up.mgt.serialBusy = false ∧
    ({ up with mgt.serialBusy := true } : State).mgt.serialBusy = true := by decide
theorem test_serial_turn : ringTurn 4 (modRing 4 (fun r => { r with waits := [0] }) { up with mgt.serialBusy := true, mgt.serialReq := some (zeros 64) }) = true := by decide

/-- The same, 100 s later. -/
def late : State := { up with time.uptime := 100000000000 }
/-- Ring 0 with `n` posted entries, the first fetched `tries` times. -/
def posted (n tries : Nat) : State :=
  { up with mgt.rings := mset up.mgt.rings 0 { state := 1, log2 := 4, resident := false, producer := n, waits := List.replicate n 0, tries := tries } }
/-- An entry of ring 0 with MBOX_NOP and the phase of the ring's first pass. -/
def nopEntry : List Byte := leBytes 2 0x0201 ++ [0, 1] ++ zeros 43 ++ [1] ++ zeros 464
/-- A fetch that answered it. -/
def nopFetch : Fetched := { entry := some nopEntry, buffer := none, writable := true }
theorem test_wit_MailboxEvents_doorbell : running up = true ∧ ringKey (.pf0 0) = some 0 ∧ (mbRing up 0).state = 1 ∧
    16 < 2 * (mbRing up 0).size ∧ 16 ≠ (mbRing up 0).producer ∧ (mbRing up 0).posted < (16 + 32 - (mbRing up 0).consumer % 32) % 32 ∧
    (16 + 32 - (mbRing up 0).consumer % 32) % 32 ≤ (mbRing up 0).size ∧
    (mbRing { up with mgt.rings := [(0, { state := 2, log2 := 4 })] } 0).state = 2 ∧ pathAsleep (.pf0 0) up = false := by decide
/-- The same with the entry in the mailbox page and ring 0 resident. -/
def paged : State := { up with mgt.rings := mset up.mgt.rings 0 { state := 1, log2 := 4, resident := true, producer := 1, waits := [0] }, mgt.page := Memory.writes [] 0 nopEntry }
theorem test_wit_MailboxEvents_fetch : mailboxReady (posted 1 0) = true ∧ hasWork (posted 1 0) 0 = true ∧ ringTurn 0 (posted 1 0) = true ∧
    (mbRing (posted 1 0) 0).fetched = none ∧ (mbRing (posted 1 0) 0).resident = false ∧ nopFetch.entry = some nopEntry ∧
    phaseMatches (mbRing (posted 1 0) 0) (u8 nopEntry 47) = true ∧ unreadable (parseEntry (.pf0 0) nopEntry none true).2 = none ∧
    mustHold (parseEntry (.pf0 0) nopEntry none true).1 (parseEntry (.pf0 0) nopEntry none true).2 (posted 1 0) = false ∧
    hasWork (posted 1 1) 0 = true ∧ (mbRing (posted 1 1) 0).tries ≠ 0 := by decide +kernel
theorem test_wit_MailboxEvents_page : (mbRing paged 0).resident = true ∧ pageEntry paged = nopEntry ∧ hasWork paged 0 = true := by decide +kernel
theorem test_wit_MailboxEvents_phase : phaseMatches (mbRing (posted 1 14) 0) (u8 (zeros 512) 47) = false ∧ (mbRing (posted 1 14) 0).tries < 15 ∧
    phaseMatches (mbRing (posted 1 0) 0) (u8 (zeros 512) 47) = false ∧ 15 ≤ (mbRing (posted 1 15) 0).tries ∧ hasWork (posted 1 15) 0 = true := by decide +kernel
theorem test_wit_MailboxEvents_debug : ({ up with mgt.dbgAddr := 135 } : State).mgt.dbgAddr < 136 ∧
    ({ up with mgt.dbgAddr := 0xFFF } : State).mgt.dbgState ≠ 1 ∧ up.mgt.dbgPost = false ∧ 136 ≤ ({ up with mgt.dbgAddr := 136 } : State).mgt.dbgAddr := by decide

/-! ### Transactions, epochs and the journal -/

/-- A commit under way, as a test needs it. -/
def commitsAre (k : Commit) : State := { up with mgt.commits := [k] }
theorem test_wit_TransactionEvents_txns : mget ({ late with mgt.txns := [(1, { origin := 0x1000, state := 1, last := 40000000000 })] } : State).mgt.txns 1 =
    some { origin := 0x1000, state := 1, last := 40000000000 } ∧ mailboxReady late = true ∧ 40000000000 + 60000000000 ≤ late.time.uptime := by decide
theorem test_wit_TransactionEvents_commits :
    (commitsAre { id := 3, waiting := true }).mgt.commits.find? (fun k => k.id == 3) = some { id := 3, waiting := true } ∧
    mailboxReady (commitsAre { id := 3 }) = true ∧ mustWait [] (commitsAre { id := 3, waiting := true }) = false ∧
    (commitsAre { id := 3, ackSeq := some 9 }).pair.link = 0 ∧ ({ id := 3, ackSeq := some 9 } : Commit).ackSeq = some 9 ∧
    ({ id := 3 } : Commit).waiting = false ∧ ({ id := 3 } : Commit).ackSeq = none ∧ ({ id := 3 } : Commit).writing = false ∧
    ({ id := 3 } : Commit).behind.any (ingressPkts (commitsAre { id := 3 })).contains = false := by decide
/-- A commit in phase A, of an entry of an index table in HBM. -/
def writing3 : Commit := { id := 3, writing := true, ops := [⟨0x0803, hbmInsert⟩] }
/-- The device in that phase A. -/
def inPhaseA : State := { upHbm with mgt.txns := [], mgt.commits := [writing3] }
theorem test_wit_TransactionEvents_phaseA : ∃ p, inPhaseA.mgt.commits.find? (fun k => k.id == 3) = some writing3 ∧ mailboxReady inPhaseA = true ∧
    writing3.ackSeq = none ∧ writing3.writing = true ∧ fencedIndex writing3.ops (restoreEntries writing3 inPhaseA) = none ∧
    placeAll false writing3.ops (restoreEntries writing3 inPhaseA) = .ok p :=
  ⟨_, rfl, by decide, rfl, rfl, by decide, rfl⟩
/-- Tag 0 still live while 1 is current. -/
def drained0 : State := { up with mgt.curTag := 1, mgt.live := [0, 1], mgt.tombs := [{ kind := 0, table := 4, index := 2, at_ := 0, limit := 0 }] }
theorem test_wit_TransactionEvents_epochs : up.pkts.any (fun p => !p.2.egress && !p.2.ready && p.2.bank != 0) = false ∧
    up.pkts.any (fun p => p.2.egress && !p.2.ready && p.2.bank != 0 && !up.dc1.contains (.packet p.1)) = false ∧
    0 ≠ drained0.mgt.curTag ∧ 0 ∈ drained0.mgt.live ∧ tagHeld 0 drained0 = false ∧
    (∃ b ∈ drained0.mgt.tombs, b.kind = 0 ∧ b.table = 4 ∧ b.index = 2 ∧ b.at_ + b.limit ≤ drained0.time.uptime) := by decide
/-- The active member of a pair with its standby, one commit waiting for record 9. -/
def activeAck : State := { up with pair.link := 2, pair.role := 4, pair.peerRole := 3, mgt.commits := [{ id := 3, ackSeq := some 9 }] }
theorem test_wit_TransactionEvents_acks : running activeAck = true ∧ activeAck.pair.link ≠ 0 ∧ activeAck.pair.role = 4 ∧
    ({ activeAck with mgt.commits := [] } : State).mgt.commits.all (fun k => k.ackSeq.isNone) = true ∧
    activeAck.mgt.commits = [{ id := 3, ackSeq := some 9 }] ∧ 9 ≤ 9 := by decide
/-- An open batch of table 5, a checkpoint without signature and a link change without record. -/
def journalDue : State := { late with
  journal.batches := [{ table := 5, inst := 0, resource := 0, delete := false, first := 99999000000, entries := [zeros 8] }]
  journal.sigPending := [(7, zeros 64)]
  journal.linkPending := [(5, 3)] }
theorem test_wit_JournalEvents : (journalDue.journal.batches.find? (fun b => b.table == 5 && b.inst == 0 && b.resource == 0)).isSome = true ∧
    99999000000 + 1000000 ≤ journalDue.time.uptime ∧ mailboxReady journalDue = true ∧ journalDue.journal.ckptAt + 10000000000 ≤ journalDue.time.uptime ∧
    journalDue.journal.sigPending.find? (fun p => p.1 == 7) = some (7, zeros 64) ∧ journalDue.journal.sram = false ∧ payloadBytes journalDue.journal + 17088 ≤ payloadArea journalDue.journal ∧
    journalDue.journal.linkPending = [(5, 3)] := by decide
theorem test_wit_JournalRecordsChain : journalFree ({ up with journal.head := 58720257 } : State).journal = 0 ∧ up.faults.safe = false ∧
    journalFree up.journal ≠ 0 := by decide

/-! ### Ports -/

/-- Port 0 as given, 100 s after reset. -/
def port0 (p : Port) : State := { late with ports := [(0, p)] }
/-- A frame for port 0 of `n` octets without FCS. -/
def frame0 (n : Nat) (fec fcs : Bool) : RxFrame := { port := 0, bytes := zeros n, fcsOk := fcs, fecError := fec, room := true, adapted := true }
theorem test_wit_FramesAreStagedOrCounted : receives (port0 { enabled := true }) 0 = true ∧ isFramed (portOf (port0 { enabled := true }) 0) = false ∧
    pipesFenced (port0 { enabled := true }) 0 = false ∧ (frame0 60 true true).fecError = true ∧ (frame0 59 false true).bytes.length + 4 < 64 ∧
    64 ≤ (frame0 60 false true).bytes.length + 4 ∧
    (portOf (port0 { enabled := true, fwd := { maxFrame := 100 } }) 0).fwd.maxFrame < (frame0 97 false true).bytes.length + 4 ∧
    (frame0 60 false false).fcsOk = false ∧ etherType (frame0 60 false true).bytes ≠ 0x8808 ∧
    (macsecRx 0 (frame0 60 false true).bytes (port0 { enabled := true })).1 = some ⟨zeros 60, false⟩ ∧
    pipesFenced ([(7, 1, 0, 1)].foldl (fun s x => fecCount 0 x s) (port0 { enabled := true })) 0 = false := by decide
/-- Port 0 UP with PFC, priority 7 paused since 0 and told XOFF, STORM_MS 100. -/
def pausedPort : Port :=
  { enabled := true, link := 1, fwd := { flow := 2, stormMs := 100 }, rxPaused := 128, pauseEnd := [(7, 5)], txXoff := 128,
    xoffAt := [(7, 0)], pausedSince := [(7, 0)], stormSince := [(6, 0)] }
theorem test_wit_PauseEvents : receives (port0 pausedPort) 0 = true ∧ etherType (zeros 12 ++ [0x88, 0x08] ++ zeros 46) = 0x8808 ∧
    (portOf (port0 pausedPort) 0).fwd.flow = 2 ∧ bit (portOf (port0 pausedPort) 0).rxPaused 7 = true ∧
    mgetD (portOf (port0 pausedPort) 0).pauseEnd 7 0 ≤ (port0 pausedPort).time.uptime ∧ bit (portOf (port0 pausedPort) 0).txXoff 7 = true ∧
    mgetD (portOf (port0 pausedPort) 0).xoffAt 7 0 + quantaNs (port0 pausedPort) 0 32768 ≤ (port0 pausedPort).time.uptime ∧
    mget (portOf (port0 pausedPort) 0).pausedSince 7 = some 0 ∧ (portOf (port0 pausedPort) 0).fwd.stormMs ≠ 0 ∧
    (portOf (port0 pausedPort) 0).link = 1 ∧ bit (portOf (port0 pausedPort) 0).storm 7 = false ∧
    0 + 100 * 1000000 ≤ (port0 pausedPort).time.uptime ∧ trafficOn (port0 pausedPort) = true ∧
    mget (portOf (port0 pausedPort) 0).stormSince 6 = some 0 ∧ 0 + 1000000000 ≤ (port0 pausedPort).time.uptime := by decide
/-- Port 0 in HOLD since 100 s, the up delay running from the same time, hold and delay as given. -/
def held0 (holdUs : Nat) (link : Nat) : State :=
  port0 { enabled := true, link := link, good := true, holdSince := some 99000000000, upSince := some 99000000000,
          fwd := { holdUs := holdUs, upDelayUs := 1000000 } }
theorem test_wit_LinkEvents_delays : running (held0 1000000 2) = true ∧ (portOf (held0 1000000 2) 0).holdSince = some 99000000000 ∧
    (portOf (held0 1000000 2) 0).link = 2 ∧ 99000000000 + 1000000 * 1000 ≤ (held0 1000000 2).time.uptime ∧
    (portOf (held0 0 3) 0).upSince = some 99000000000 ∧ (portOf (held0 0 3) 0).good = true ∧ (portOf (held0 0 3) 0).link = 3 ∧
    99000000000 + (portOf (held0 0 3) 0).fwd.upDelayUs * 1000 ≤ (held0 0 3).time.uptime ∧
    (held0 1000001 2).time.uptime < 99000000000 + (portOf (held0 1000001 2) 0).fwd.holdUs * 1000 := by decide
/-- Group 2 on its backup, port 191 its primary and UP. -/
def grouped : State := { late with ports := [(191, { enabled := true, link := 1, live := true })],
                                   groups := [(2, { primary := 191, active := 1, wtrEnd := some 100000000000 })] }
theorem test_wit_LinkEvents_groups : running grouped = true ∧ (mgetD grouped.groups 2 {}).wtrEnd = some 100000000000 ∧
    100000000000 ≤ grouped.time.uptime ∧ (mgetD grouped.groups 2 {}).active = 1 ∧ memberLive grouped (mgetD grouped.groups 2 {}).primary = true := by decide
/-- A framed port's settings, no trace expected. -/
def noTrace : Framed := { interface := 0, timMode := 0, timAct := 0, expSapi := [], expDapi := [], txTti := [] }
/-- A framed port whose trace identifier was seen `n` times. -/
def framed0 (n : Nat) : State := port0 { enabled := true, framed := some noTrace, phys := some { speed := 1, rate := 1, firstLane := 0, fec := 0, training := 0, framed := 1, txInvert := 0, rxInvert := 0 }, ttiSeen := (zeros 64, n) }
theorem test_wit_LinkEvents_framed : isFramed (portOf (framed0 2) 0) = true ∧ (portOf (framed0 2) 0).enabled = true ∧
    (portOf (framed0 2) 0).los = false ∧ (portOf (framed0 2) 0).lof = false ∧ fit 64 [1] ≠ (portOf (framed0 2) 0).ttiSeen.1 ∧
    fit 64 (zeros 64) = (portOf (framed0 2) 0).ttiSeen.1 ∧ 2 ≤ (portOf (framed0 2) 0).ttiSeen.2 ∧ (portOf (framed0 1) 0).ttiSeen.2 < 2 ∧ (portOf (framed0 2) 0).framed = some noTrace := by decide

/-! ### The packet path -/

/-- Sources up: a frame of 60 octets staged at port 0, one injected for pipeline 1. -/
def arrived : State := { up with staging := [(0, [{ bytes := zeros 60 }])] }
theorem test_wit_IngressEvents_parser : trafficOn arrived = true ∧ ingressPipeOk arrived 0 = true ∧ admissionHeld arrived 0 = false ∧ slotOpen arrived 0 0 = true ∧
    sourceHolds 0 0 arrived = false ∧ sourceHolds 192 0 arrived = false ∧
    slotOpen { arrived with hdrSlot := [(0, 255)] } 192 0 = true ∧ slotOpen arrived 193 11 = true ∧
    (takeArrival 0 0 arrived).isSome = true ∧ (takeArrival 191 11 { up with staging := [(191, [{ bytes := zeros 60 }])] }).isSome = true := by decide +kernel
/-- One packet, as given. -/
def pkt1 (k : Pkt) : State := { up with pkts := [(1, k)] }
/-- Metadata of 256 bytes with byte `i` set to `v`. -/
def metaWith (i v : Nat) : List Byte := poke (zeros 256) i [BitVec.ofNat 8 v]
theorem test_wit_IngressEvents_stages : mget (pkt1 { meta_ := zeros 256 }).pkts 1 = some { meta_ := zeros 256 } ∧
    pktPipeOk { meta_ := zeros 256 } (pkt1 { meta_ := zeros 256 }) = true ∧ isFinal { meta_ := zeros 256 } = false ∧
    isFinal { meta_ := metaWith 80 2 } = true ∧ ({ stage := 15 } : Pkt).stage < 16 ∧ ({ stage := 7, egress := true } : Pkt).stage < 8 := by decide +kernel
theorem test_wit_IngressEvents_end : trafficOn (pkt1 { stage := 16 }) = true ∧ 16 ≤ ({ stage := 16 } : Pkt).stage ∧
    behindEarlier 1 { stage := 16 } (pkt1 { stage := 16 }) = false ∧ bridgeOn (pkt1 { stage := 16 }) = true ∧ dc0Credit (pkt1 { stage := 16 }) = true ∧
    (decide207 { stage := 16, meta_ := metaWith 68 2 } (pkt1 { stage := 16, meta_ := metaWith 68 2 })).1.group = none ∧
    hasCopies (decide207 { stage := 16, meta_ := metaWith 68 2 } (pkt1 { stage := 16, meta_ := metaWith 68 2 })).1 = false ∧
    hasCopies (decide207 { stage := 16, meta_ := metaWith 68 3 } (pkt1 { stage := 16, meta_ := metaWith 68 3 })).1 = true := by decide +kernel
/-- A packet on the T-die, a copy for session 0 where asked. -/
def crossed (m : Option Nat) : State := { up with dc0 := [.packet 1], pkts := [(1, { group := some 0, mirrorOf := m })] }
theorem test_wit_IngressEvents_bridge : trafficOn (crossed none) = true ∧ bridgeOn (crossed none) = true ∧ (crossed none).dc0 = [.packet 1] ∧
    ({ up with dc0 := [.marker 1] } : State).dc0 = [.marker 1] ∧
    mget (crossed (some 0)).pkts 1 = some { group := some 0, mirrorOf := some 0 } := by decide +kernel
/-- VOQ 0 as given over the heads given. -/
def voq0 (q : Queue) (hs : NMap Head) : State := { late with sched.voqs := [(0, q)], buf.heads := hs }
theorem test_wit_BufferEvents_reserves : trafficOn late = true ∧ mwf late.buf.reserves = true := by decide +kernel
theorem test_wit_BufferEvents_refills : 0 < sharedSegs { up with buf.reserves := [(0, 63)] } ∧ reserveOf { up with buf.reserves := [(0, 63)] } 0 < 64 := by decide +kernel
/-- A head of `n` octets that entered at 99,999,900,001 ns. -/
def headOf (n : Nat) : Head := { frame := zeros n, recLen := n, origin := 99999900000, pool := 0 }
/-- VOQ 0, the queue of these tests. -/
def q0 : QId := ⟨false, 0⟩
/-- VOQ 0 with an open tail of one packet of `n` octets. -/
def tailed (n : Nat) : State := voq0 { tail := [5] } [(5, headOf n)]
theorem test_wit_BufferEvents_packing : (queueOf (tailed 3928) q0).tail = [5] ∧ inFencedBank (tailed 3928) 5 = false ∧
    4064 ≤ tailOctets (tailed 3928) (queueOf (tailed 3928) q0) ∧ packingStopped (tailed 3928) (qcfgOf (tailed 3928) q0).pool = false ∧
    (asRecord (tailed 64) 5).enq + 2000 ≤ (tailed 64).time.uptime := by decide +kernel
theorem test_wit_BufferEvents_block : ∃ b u, takeBlock (tailed 64) = (some b, u) := ⟨_, _, rfl⟩
/-- VOQ 0 with one block that holds the records given. -/
def spilled0 (writing : Bool) (rs : List Head) : State :=
  { voq0 { spill := [77], spilled := rs.length } [] with buf.blocks := [(77, { queue := ⟨false, 0⟩, records := rs, writing := writing })] }
theorem test_wit_BufferEvents_blocks : (mget (spilled0 true []).buf.blocks 77).isSome = true ∧ trafficOn (spilled0 true []) = true ∧
    ((mgetD (spilled0 true []).buf.blocks 77 {}).writing = true) ∧ (queueOf (spilled0 false []) ⟨false, 0⟩).spill = [77] ∧
    (mgetD (spilled0 false []).buf.blocks 77 {}).writing = false ∧ (mgetD (spilled0 false []).buf.blocks 77 {}).continues = false ∧
    headSegs (spilled0 false []) (queueOf (spilled0 false []) ⟨false, 0⟩) <
      (poolOf (spilled0 false []) (qcfgOf (spilled0 false []) ⟨false, 0⟩).pool).refillSeg := by decide +kernel
/-- VOQ 0 with two blocks: the first ends in a record that continues in the second. -/
def cont0 (writing : Bool) : State :=
  { voq0 { spill := [77, 78], spilled := 1 } [] with buf.blocks := [(77, { queue := q0, records := [headOf 64], continues := true }),
      (78, { queue := q0, contIn := true, writing := writing })] }
/-- The first block of VOQ 0 once its complete records are written out. -/
def contNext (s : State) : State := modBlock 77 (fun k => { k with records := [headOf 64] })
  ((blockOf s 77).records.dropLast.foldl (fun s r => refillOne q0 r s) (if (blockOf s 77).records.dropLast.isEmpty then s else readBlock 77 s))
theorem test_wit_BufferEvents_continues : (queueOf (cont0 true) q0).spill = [77, 78] ∧ (blockOf (cont0 true) 77).writing = false ∧
    headSegs (cont0 true) (queueOf (cont0 true) q0) < (poolOf (cont0 true) (qcfgOf (cont0 true) q0).pool).refillSeg ∧
    (blockOf (cont0 true) 77).continues = true ∧ (blockOf (cont0 true) 77).records.getLast? = some (headOf 64) ∧
    contEnd (contNext (cont0 true)) [78] = none ∧ contEnd (contNext (cont0 false)) [78] = some 0 ∧
    (blockOf (cont0 false) 77).continues = true := by decide +kernel
theorem test_wit_AgeScanKeepsTheYoung : qEmpty (queueOf (voq0 { head := [5] } [(5, headOf 64)]) ⟨false, 0⟩) = false ∧
    (queueOf (voq0 { head := [5] } [(5, headOf 64)]) ⟨false, 0⟩).spill = [] ∧ (queueOf (voq0 { head := [5] } [(5, headOf 64)]) ⟨false, 0⟩).packed = 0 ∧
    ∃ t, exec (.ageScan ⟨false, 0⟩) (voq0 { head := [5] } [(5, headOf 64)]) = .next t := ⟨by decide, by decide, by decide, _, rfl⟩
/-- VOQ 0 holds one packet and has credit. -/
def voqReady : State := voq0 { head := [5], credit := 4096, cfg := some { band := 0, profile := 0, parent := 1, weight := 1, pool := 0 } } [(5, headOf 64)]
theorem test_wit_EgressEvents_voq : trafficOn voqReady = true ∧ bridgeOn voqReady = true ∧ isFenced voqReady (resId 0x12 0) = false ∧
    ((selectVoq 0 voqReady).1.map (·.1)) = some ⟨false, 0⟩ ∧ (queueOf (selectVoq 0 voqReady).2 ⟨false, 0⟩).head = [5] ∧
    destLocal (selectVoq 0 voqReady).2 (voqBindOf (selectVoq 0 voqReady).2 0) = true := by decide +kernel
/-- A port that is UP at 400 Gb/s. -/
def port400 : Port :=
  { enabled := true, link := 1, phys := some { speed := 5, rate := 1, firstLane := 0, fec := 0, training := 0, framed := 0, txInvert := 0, rxInvert := 0 } }
/-- An egress queue with one packet: queue 0 of port 0, which is UP. -/
def eqReady : State := { late with
  ports := [(0, port400)],
  sched.eqs := [(0, { head := [5] })], buf.heads := [(5, headOf 64)] }
theorem test_wit_EgressEvents_egress : trafficOn eqReady = true ∧ bridgeOn eqReady = true ∧ dc1Credit eqReady = true ∧ ((selectEgress 0 eqReady).1.map (·.1)) = some ⟨true, 0⟩ ∧
    (queueOf (selectEgress 0 eqReady).2 ⟨true, 0⟩).head = [5] ∧ (eqBindOf (selectEgress 0 eqReady).2 0).kind = 1 ∧
    inFencedBank eqReady 5 = false ∧ (193 : Nat) ≤ 193 := by decide +kernel
theorem test_wit_EgressEvents_end : pktPipeOk {} up = true ∧ isFinal { stage := 8, egress := true, meta_ := metaWith 80 2 } = true ∧
    isFinal { stage := 8, egress := true, meta_ := metaWith 140 60 } = false ∧ (63 : Nat) < u16 (metaWith 140 60) 140 + 4 ∧
    u16 (metaWith 140 60) 140 + 4 ≤ 64 ∧ (mgetD (pkt1 { stage := 8, egress := true }).pkts 1 {}).mirror = none := by decide +kernel
/-- A packet that is ready, for port 0 as given. -/
def ready0 (p : Port) : State := { up with pkts := [(1, { egress := true, ready := true })], ports := [(0, p)] }
theorem test_wit_EgressEvents_transmit : (portOf (dropEgress 1 (ready0 {})) 0).enabled = false ∧ (portOf (dropEgress 1 (ready0 port400)) 0).enabled = true ∧
    faultAnswer (portOf (dropEgress 1 (ready0 { port400 with conds := [.remoteFault] })) 0) ≠ 3 ∧ faultAnswer (portOf (dropEgress 1 (ready0 port400)) 0) = 3 ∧
    ∃ bytes secured u, macsecTx 0 (fit 60 (zeros 10)) (dropEgress 1 (ready0 port400)) = (some (bytes, secured), u) :=
  ⟨by decide, by decide, by decide, by decide, _, _, _, rfl⟩
theorem test_wit_EgressEvents_mirror : bridgeOn (pkt1 { stage := 8, egress := true, mirror := some 0 }) = true ∧
    dc0Credit (pkt1 { stage := 8, egress := true, mirror := some 0 }) = true ∧
    ∃ x, (mgetD (pkt1 { stage := 8, egress := true, mirror := some 0 }).pkts 1 {}).mirror = some x := ⟨by decide, by decide, _, rfl⟩
/-- Egress queue 0 for destination kind 3, over a list of fenced units. -/
def eqPair (f : List Nat) : State := { eqReady with sched.eqBind := [(0, { kind := 3, target := 0 })], pair.link := 2, faults.fenced := f }
theorem test_wit_EgressEvents_kinds : (eqBindOf (selectEgress 193 (eqPair [])).2 0).kind = 3 ∧
    ((selectEgress 193 (eqPair [])).1.map (·.1)) = some ⟨true, 0⟩ ∧
    ((selectEgress 193 (eqPair [resId 0x0E 5])).1.map (·.1)) = some ⟨true, 0⟩ ∧ inFencedBank (eqPair [resId 0x0E 5]) 5 = true := by decide +kernel
/-- A gate list that starts at NTIME 0. -/
def gates0 : GateList := { base := 0, cycle := 1000000, fitAdj := 24, entries := [(255, 1000000)], start := 0 }
theorem test_wit_SchedulingEvents_gates : (gateOf { up with sched.gates := [(0, { admin := some gates0 })] } 0).admin = some gates0 ∧
    gates0.start ≤ up.time.ntime ∧ (gateOf { up with sched.gates := [(0, { oper := some gates0 })] } 0).oper.isSome = true := by decide +kernel
/-- Target 0 with a rate and one request of device 0, VOQ 3, offset 3; its port is UP. -/
def targetReq : State := { late with
  ports := [(0, port400)],
  sched.targets := [(0, { rateM := 1, rateE := 20, requests := [(0, 3, 3)] })] }
/-- The same after the credit earned. -/
def targetEarned : State := earnCredit 0 targetReq
theorem test_wit_SchedulingEvents_grant : targetIssues targetEarned 0 = true ∧
    (List.range 8).filter (fun o => ((targetOf targetEarned 0).requests.filter (grantable targetEarned 0)).any (fun r => r.2.2 == o)) = [3] ∧
    ((targetOf targetEarned 0).requests.filter (grantable targetEarned 0)).find? (fun r => r.2.2 == 3) = some (0, 3, 3) := by decide +kernel

/-! ### Credit, cells and lanes -/

/-- Device 1 present, with what is given. -/
def peer1 (p : Peer) : State := { late with fabric.connected := true, fabric.peers := [(1, { p with present := true })], fabric.lanes := [(192, { state := 4 })] }
/-- A credit message of device 1 for target 193. -/
def credit1 (value : Nat) : CreditMsg := { device := 1, voq := 3, target := 193, offset := 3, value := value }
theorem test_wit_CreditMessages_requests : creditLive (credit1 0) (peer1 {}) = true ∧
    (targetOf (peer1 {}) 193).requests.contains (1, 3, 3) = false ∧ requestCount (peer1 {}) < 262144 := by decide +kernel
/-- A request table with `n` entries. -/
def requestsAre (n : Nat) : State := { peer1 {} with sched.targets := [(0, { requests := List.replicate n (0, 0, 0) })] }
theorem requestsAre_count (n : Nat) : (targetOf (requestsAre n) 193).requests.contains (1, 3, 3) = false ∧ requestCount (requestsAre n) = n := by
  refine ⟨rfl, ?_⟩
  unfold requestCount
  rw [show (requestsAre n).sched.targets = [(0, { requests := List.replicate n (0, 0, 0) })] from rfl, List.foldl_cons, List.foldl_nil,
    List.length_replicate, Nat.zero_add]
theorem test_wit_CreditMessages_full : (targetOf (requestsAre 262144) 193).requests.contains (1, 3, 3) = false ∧ requestCount (requestsAre 262144) = 262144 :=
  requestsAre_count 262144
theorem test_wit_CreditMessages_grants : (bitsOf 0 28 13 + 2 ^ 16 - (mgetD (peerOf (peer1 {}) 1).audit 193 (0, 0, false)).1) % 2 ^ 16 = 0 ∧
    (bitsOf (32767 * 2 ^ 13) 28 13 + 2 ^ 16 - (mgetD (peerOf (peer1 {}) 1).audit 193 (0, 0, false)).1) % 2 ^ 16 = 2 ^ 15 - 1 := by decide +kernel
/-- A grant of target 193 to device 1 with GSEQ 0, issued at 0 and never used, and a book that shows returns. -/
def audited : State := { peer1 {} with sched.targets := [(193, { gseq := [(1, 1)], sent := [(1, [(0, 0)])], books := [(1, (0, 0, 0))] })] }
theorem test_wit_CreditMessages_audits :
    mgetD (targetOf audited 193).gseq 1 0 = 1 ∧
    (((mgetD (targetOf audited 193).sent 1 []).filter (fun g => decide ((1 + 2 ^ 16 - 1 - g.1) % 2 ^ 16 < (1 + 2 ^ 16 - bitsOf 0 28 13) % 2 ^ 16))).filter
      (fun g => decide (g.2 + 4000 < audited.time.uptime))).length ≠ 0 ∧
    (0x1000 % 2 ^ 29 + 2 ^ 29 - (mgetD (targetOf audited 193).books 1 (0, 0, 0)).2.2 % 2 ^ 29) % 2 ^ 29 < 2 ^ 28 ∧
    (2 ^ 28 + (mgetD (targetOf audited 193).books 1 (0, 0, 0)).2.2 < 2 ^ 29 ∧
    2 ^ 29 ≤ 2 ^ 28 + (2 ^ 28 : Nat)) ∧ 2 ^ 28 ≤ (2 ^ 28 % 2 ^ 29 + 2 ^ 29 - (mgetD (targetOf audited 193).books 1 (0, 0, 0)).2.2 % 2 ^ 29) % 2 ^ 29 := by decide +kernel
/-- VOQ 0 asks for credit. -/
def asking (b : Bind) : State := { peer1 {} with sched.voqs := [(1048575, { requesting := true })], sched.voqBind := [(131071, b)] }
theorem test_wit_CreditTimers_repeat : (queueOf (asking { kind := 2 }) ⟨false, 1048575⟩).requesting = true ∧
    (voqBindOf (asking { kind := 2 }) 131071).kind ≠ 0 ∧ destLocal (asking { kind := 2 }) (voqBindOf (asking { kind := 2 }) 131071) = true ∧
    destLocal (asking { kind := 1, device := 1 }) (voqBindOf (asking { kind := 1, device := 1 }) 131071) = false ∧
    trafficOn (asking { kind := 2 }) = true ∧ (asking { kind := 2 }).fabric.connected = true := by decide +kernel
/-- A record that waits for device 1 since 99,999,999,900 ns. -/
def pending1 : PendRec := { head := 0, voq := 0, start := some 0, stop := 1, since := 99999999900 }
theorem test_wit_CreditTimers_cells : (peerOf (peer1 { msgs := [(1, 99999999950)] }) 1).msgs.head? = some (1, 99999999950) ∧ spraySet (peer1 {}) ≠ [] ∧
    99999999950 + 50 ≤ late.time.uptime ∧ 8 ≤ (peerOf (peer1 { msgs := List.replicate 8 (1, 0) }) 1).msgs.length ∧
    (peerOf (peer1 { pend := [0], pendRecs := [pending1] }) 1).pend ≠ [] ∧ (peerOf (peer1 { pend := [0], pendRecs := [pending1] }) 1).pendRecs.head? = some pending1 ∧
    99999999900 + (peer1 {}).fabric.fillNs ≤ late.time.uptime := by decide +kernel
/-- A data cell of device 1 for this device with 64 octets. -/
def cellOf1 : List Byte := cellBytes { typ := 1, dest := 0, src := 1, voq := 3, seq := 0, paylen := 0, firstValid := true, firstOff := 0 } (zeros 64)
theorem test_wit_CreditTimers_arrive : fabricOn (peer1 {}) = true ∧ (laneOf (peer1 {}) 192).state = 4 ∧ (192 : Nat) < 496 ∧
    (readHead cellOf1).map (fun x => (x.1.src, x.1.paylen)) = some (1, 0) ∧ cellOf1.length = 16 + 16 * (0 + 4) := by decide +kernel
theorem test_wit_CreditTimers_gap : ∃ c ∈ (peerOf (peer1 { held := [(3, { typ := 0, firstValid := false, firstOff := 0, payload := [], voq := 0, lane := 192, at_ := 99999996000 })] }) 1).held,
    c.2.at_ + late.fabric.reorderUs * 1000 ≤ late.time.uptime := by decide +kernel
theorem test_wit_PresenceEvents : fabricOn (peer1 { seen := 99997000000, incarnation := 5 }) = true ∧ (2047 : Nat) < 2048 ∧
    (peerOf (peer1 { seen := 99997000000 }) 1).present = true ∧ (peerOf (peer1 { seen := 99997000000 }) 1).seen + 3000000 ≤ late.time.uptime ∧
    (peerOf (peer1 { incarnation := 5 }) 1).incarnation = 5 ∧ running { upFab with faults.safe := true } = true ∧
    ({ upFab with faults.safe := true } : State).fabric.connected = true := by decide +kernel
/-- Lane 192 as given, its octet in use. -/
def lane192 (x : Lane) : State := { late with
  fabric.connected := true, fabric.lanes := [(192, x)], fabric.octets := [(24, { enable := true, mask := 255 })], pair.retrain := some 0 }
theorem test_wit_LaneEvents : running (lane192 { state := 1 }) = true ∧ (laneOf (lane192 { state := 3, markers := 1 }) 192).markers < 2 ∧
    2 ≤ (laneOf (lane192 { state := 3, markers := 2 }) 192).markers ∧ (laneOf (lane192 { state := 4, farEnd := 1 }) 192).farEnd ≠ 0 ∧
    (laneOf (lane192 { state := 4 }) 192).farEnd = 0 ∧ (laneOf (lane192 { state := 5 }) 192).state = 5 ∧
    (laneOf (lane192 { state := 5, since := 99900000000 }) 192).since + laneRetryMs (lane192 {}) 192 * 1000000 ≤ late.time.uptime ∧
    laneUsable (lane192 { state := 5 }) 192 = true ∧ (laneOf (lane192 { state := 3 }) 192).state ∈ [1, 2, 3] ∧
    (laneOf (lane192 { state := 1, since := 99899999999 }) 192).since + 100000000 < late.time.uptime ∧ (lane192 {}).pair.retrain.isSome = true := by decide +kernel

/-! ### The pair -/

/-- A member of a pair in the role given, the link at full width. -/
def member (role : Nat) : State := { late with pair.cfg := { enable := true }, pair.role := role, pair.link := 2, power.pairId := true }
theorem test_wit_PairSignals : running (member 4) = true ∧ (member 4).pair.cfg.enable = true ∧ (member 4).pair.link ≠ 0 ∧ (member 4).faults.safe = false ∧
    (member 4).boot.restarting = false ∧ (domainOf (member 4) 19).on = true ∧ true ≠ (member 4).pair.beatIn ∧
    ({ member 3 with pair.switching := 2 } : State).pair.switching = 2 ∧ (member 3).pair.role = 3 ∧ 2 ≤ (member 2).pair.role ∧
    beatLink (member 2) = false ∧ beatSide (member 2) = false ∧
    ({ member 4 with pair.actIn := true, pair.actInSince := 99999990000 } : State).pair.actInSince + 10000 ≤ late.time.uptime ∧
    (member 4).power.pairId = true ∧ beatSide { member 4 with pair.link := 0, pair.sideAt := some 99999975000 } = true ∧
    (member 3).pair.switching ≠ 2 ∧
    ({ member 4 with pair.link := 0, pair.sideAt := some 99999975000 } : State).pair.link = 0 := by decide +kernel
theorem test_wit_StandbyTakesOver : running (member 3) = true ∧ (member 3).pair.role = 3 ∧ beatLink (member 3) = false ∧ beatSide (member 3) = false ∧
    (∃ t, exec .peerFailed (member 3) = .next t) ∧ (member 3).pair.actIn = false ∧ peerBusy (member 3) = false ∧ unitReceived (member 3) = false ∧
    peerBusy { member 3 with mgt.commits := [{ goal := .snapshot }] } = true ∧ journalFree (member 3).journal ≠ 0 ∧
    ({ member 3 with pair.actIn := true } : State).pair.actIn = true :=
  ⟨by decide, rfl, by decide, by decide, ⟨_, rfl⟩, rfl, by decide, by decide, by decide, by decide, rfl⟩
/-- The active member with a syncing peer, and counter 4 of table 2 with increments. -/
def syncing : State := { member 4 with
  pair.peerRole := 2, tables := [(2, { kind := 4, insts := [(0, { pairs := [(4, { deltaPackets := 1 })] })] })] }
theorem test_wit_ReplicationEvents : running syncing = true ∧ syncing.pair.peerRole = 2 ∧ syncing.pair.syncPoint = none ∧ syncing.mgt.commits = [] ∧
    mailboxReady (member 2) = true ∧ (member 2).pair.snapped = false ∧ applies (member 3) = true ∧ recordDue 1 (member 3) = true ∧
    applies { member 2 with pair.snapped := true } = true ∧ syncing.pair.link ≠ 0 ∧ deltas syncing ≠ [] ∧ trafficOn syncing = true ∧
    takes (member 3) = true ∧ takes { member 2 with pair.snapped := true } = true ∧ takes { member 2 with mgt.commits := [{ goal := .snapshot }] } = true ∧
    0 = mgetD syncing.pair.rxSeq 5 0 ∧ 0 < mgetD ({ syncing with pair.rxSeq := [(5, 1)] } : State).pair.rxSeq 5 0 ∧
    (191 : Nat) < 192 ∧ (127 + 256 - mgetD syncing.pair.changes 191 0) % 256 = 127 ∧ (1 + 256 - mgetD syncing.pair.changes 191 0) % 256 = 1 := by decide +kernel
/-- A switchover armed for NTIME 0. -/
def armed4 : State := { member 4 with pair.peerRole := 3, pair.armed := some 0 }
/-- Slot 1 of the packet-core image is valid, and its artefact's digest is zero. -/
def slotReady : State := { member 3 with boot.slots := [(5, { state := 2, data := zeros 256 })] }
theorem test_wit_SwitchoverEvents : activationOk slotReady 2 (zeros 96) = true ∧ slotReady.pair.role = 3 ∧ armed4.pair.armed = some 0 ∧ armed4.pair.role = 4 ∧ 0 ≤ armed4.time.ntime ∧ armed4.mgt.commits = [] ∧
    (member 3).pair.received = [] ∧ peerBusy (member 3) = false ∧ (member 3).pair.takingOver = false ∧ 0 ≤ (member 3).pair.appliedSeq ∧ ({ member 4 with pair.switching := 1 } : State).pair.switching = 1 ∧ following (member 3) = true ∧
    (1000 : Int) < (((2002 : Nat) : Int) - (0 : Nat) - (((0 : Nat) : Int) - (0 : Nat))) / 2 ∧
    (((2000 : Nat) : Int) - (0 : Nat) - (((0 : Nat) : Int) - (0 : Nat))) / 2 ≤ 1000 ∧ (((0 : Nat) : Int) - (2000 : Nat) - (((0 : Nat) : Int) - (0 : Nat))) / 2 = -1000 ∧
    mailboxReady (member 3) = true ∧ activationOk (member 3) 2 (zeros 96) = false := by decide +kernel
/-! ### The host -/

/-- Ring `loc` of slice 0, which is ACTIVE on link 0. -/
def hostRing (loc : Nat) (r : Ring) : State := { late with
  host.linkUp := [0], host.slices := [(0, { state := 1 })], host.rings := [(dataKey 0 loc, r)] }
/-- A TX ring at `loc` with one posted descriptor whose fetch has failed `n` times. -/
def fetching (loc n : Nat) : State := hostRing loc { kind := 1, log2 := 4, state := 1, producer := 1, tries := if n = 0 then [] else [(0, n)] }
/-- The POST_PHASE that the next entry of a ring should have. -/
def duePhase (r : Ring) : Nat := 1 - r.nextFetch / r.size % 2
theorem test_wit_RingEvents_fetch : mayFetch (fetching 63 0) (dataKey 0 63) = true ∧ (dataRing (fetching 63 0) (dataKey 0 63)).refetches = false ∧
    u8 (zeros 31 ++ [1]) ((dataRing (fetching 63 0) (dataKey 0 63)).entrySize - 1) % 2 = duePhase (dataRing (fetching 63 0) (dataKey 0 63)) ∧
    mayFetch (fetching 0 15) (dataKey 0 0) = true ∧ (dataRing (fetching 0 15) (dataKey 0 0)).refetches = true ∧
    15 ≤ mgetD (dataRing (fetching 0 15) (dataKey 0 0)).tries (dataRing (fetching 0 15) (dataKey 0 0)).nextFetch 0 ∧
    mgetD (dataRing (fetching 0 14) (dataKey 0 0)).tries (dataRing (fetching 0 14) (dataKey 0 0)).nextFetch 0 < 15 ∧
    u8 (zeros 32) ((dataRing (fetching 0 15) (dataKey 0 0)).entrySize - 1) % 2 ≠ duePhase (dataRing (fetching 0 15) (dataKey 0 0)) := by decide +kernel
theorem test_wit_RingEvents_bells : running (hostRing 64 {}) = true ∧ (sliceOf (hostRing 64 {}) 0).state = 1 ∧
    asleep (hostRing 64 {}) (pf1Key (sliceOf (hostRing 64 {}) 0).link) = false ∧ pf1Dma (hostRing 64 {}) (sliceOf (hostRing 64 {}) 0).link = true ∧
    (mget (hostRing 64 {}).host.rings (dataKey 0 64)).isSome = true ∧ (mget (hostRing 63 {}).host.rings (dataKey 0 63)).isSome = true ∧
    bitsOf 0 62 17 = 0 ∧ bitsOf (withBit 5 16 true) 62 17 = 0 ∧ bitsOf (withBit 5 63 true) 62 17 = 0 := by decide +kernel
/-- An armed completion ring with one entry that the host has not consumed. -/
def coalescing : State := hostRing 64 { log2 := 4, armed := true, producer := 1, coalNs := 1000, waitFrom := some 99999999000 }
theorem test_wit_RingEvents_coalesce : trafficOn coalescing = true ∧ sliceWrites coalescing 0 = true ∧ (dataRing coalescing (dataKey 0 64)).armed = true ∧
    (dataRing coalescing (dataKey 0 64)).dist (dataRing coalescing (dataKey 0 64)).consumer (dataRing coalescing (dataKey 0 64)).producer ≠ 0 ∧
    (dataRing coalescing (dataKey 0 64)).waitFrom = some 99999999000 ∧
    99999999000 + (dataRing coalescing (dataKey 0 64)).coalNs ≤ coalescing.time.uptime := by decide +kernel
/-- A TX descriptor for one frame of 64 octets, first and last. -/
def txDesc : List Byte := zeros 8 ++ leBytes 4 64 ++ zeros 18 ++ [0, 1]
/-- A TX ring that has fetched one descriptor, with a completion ring beside it. -/
def txRing : State := { hostRing 0 {} with host.rings := [
  (dataKey 0 0, { kind := 1, log2 := 4, state := 1, cq := 64, producer := 1, fetched := 1, entries := [(0, txDesc)] }),
  (dataKey 0 64, { kind := 4, log2 := 4, state := 1 })] }
/-- A TX ring whose 32 fetched descriptors do not end a frame. -/
def txLong : State := { hostRing 0 {} with host.rings := [
  (dataKey 0 0, { kind := 1, log2 := 6, state := 1, cq := 64, producer := 40, fetched := 32, entries := (List.range 32).map (fun n => (n, zeros 8 ++ leBytes 4 64 ++ zeros 2 ++ [1] ++ zeros 17)) }),
  (dataKey 0 64, { kind := 4, log2 := 6, state := 1 })] }
theorem test_wit_FrameAndJob_long : (txDispatchable txLong (dataKey 0 0)).map (·.2) = some false ∧
    nextTurn txLong.host.txTurn (txLong.host.rings.map (·.1)) (fun j => (txDispatchable txLong j).isSome) = some (dataKey 0 0) := by decide +kernel
theorem test_wit_FrameAndJob_tx : (txDispatchable txRing (dataKey 0 0)).map (·.2) = some true ∧ (dataRing txRing (dataKey 0 0)).passing = none ∧
    nextTurn txRing.host.txTurn (txRing.host.rings.map (·.1)) (fun j => (txDispatchable txRing j).isSome) = some (dataKey 0 0) ∧
    txFrameOk ((txDispatchable txRing (dataKey 0 0)).getD ([], false)).1 = true ∧ isFenced txRing (resId 0x0C 0) = false ∧
    trafficOn txRing = true ∧ pf1Dma txRing 0 = true ∧
    isFenced { txRing with faults.fenced := [resId 0x0C 0] } (resId 0x0C 0) = true ∧ txFrameOk [zeros 32] = false := by decide +kernel
/-- A CRC job of the second engine over 4 bytes. -/
def jobDesc : List Byte := [3, 1] ++ zeros 14 ++ leBytes 4 4 ++ zeros 43 ++ [1]
/-- A JOB ring that has fetched it. -/
def jobRing : State := { hostRing 0 {} with host.rings := [
  (dataKey 0 0, { kind := 3, log2 := 4, state := 1, cq := 64, producer := 1, fetched := 1, entries := [(0, jobDesc)] }),
  (dataKey 0 64, { kind := 4, log2 := 4, state := 1 })] }
theorem test_wit_FrameAndJob_dispatch : readyJob jobRing 3 (dataKey 0 0) = some jobDesc ∧
    (drr jobRing 3 ((jobRing.host.rings.map (·.1)).filter (fun j => (readyJob jobRing 3 j).isSome))
      (260 * (((jobRing.host.rings.map (·.1)).filter (fun j => (readyJob jobRing 3 j).isSome)).length + 1))
      (mgetD jobRing.host.turn 3 0) jobRing.host.deficits).map (·.1) = some (dataKey 0 0) ∧
    jobOk jobDesc = true ∧ jobRing.faults.fenced.contains (engineUnit 3) = false ∧ jobOk (zeros 64) = false ∧
    ({ jobRing with faults.fenced := [engineUnit 3] } : State).faults.fenced.contains (engineUnit 3) = true ∧
    pf1Dma jobRing (sliceOf jobRing 0).link = true := by decide +kernel
/-- A job of engine 1 in work. -/
def working (x : Job) : State := { hostRing 0 {} with host.jobs := [(1 * 2 ^ 32 + (2 ^ 32 - 1), x)] }
theorem test_wit_FrameAndJob_complete : pf1Dma (working { slice := 0, loc := 0, desc := [], src := none }) 0 = true ∧
    trafficOn (working { slice := 0, loc := 0, desc := [], src := none }) = true ∧
    mget (working { slice := 0, loc := 0, desc := [], src := none }).host.jobs (1 * 2 ^ 32 + (2 ^ 32 - 1)) =
      some { slice := 0, loc := 0, desc := [], src := none } ∧
    ({ slice := 0, loc := 0, desc := [2, 1], src := some [], preset := none } : Job).preset = none ∧
    ¬(u8 [2, 1] 0 = 2 ∧ u8 [2, 1] 1 = 2) ∧ ({ slice := 0, loc := 0, desc := [], src := none, preset := some 0x86 } : Job).preset = some 0x86 := by decide +kernel
/-- Ring 1 of PF0 in host memory with one posted entry. -/
def mbRemote : State := { up with mgt.rings := [(1, { state := 1, log2 := 4, producer := 1 })] }
theorem test_wit_FrameAndJob_errors : trafficOn mbRemote = true ∧ ringKey (.pf0 1) = some 1 ∧ (mbRing mbRemote 1).state = 1 ∧
    (mbRing mbRemote 1).resident = false ∧ (mbRing mbRemote 1).posted ≠ 0 ∧ (mbRing mbRemote 1).executing = false := by decide +kernel
/-- Slice 0 in a quiesce that began at 99 s with 1 s to go. -/
def quiescing : State := { late with host.slices := [(0, { state := 2, quiesce := some (none, 99000000000, 1000000, false) })] }
theorem test_wit_FrameAndJob_quiesce : running quiescing = true ∧ (sliceOf quiescing 0).quiesce = some (none, 99000000000, 1000000, false) ∧
    drained quiescing 0 = true ∧ 99000000000 + 1000000 * 1000 ≤ quiescing.time.uptime := by decide +kernel
theorem test_wit_PcieEvents : running (hostRing 0 {}) = true ∧ linkExists (hostRing 0 {}) 0 = true ∧ 0 ∈ (hostRing 0 {}).host.linkUp ∧
    0 ∉ (hostRing 0 {}).host.perst ∧ linkExists { up with power := { up.power with hostSplit := true } } 1 = true ∧ 1 ∉ up.host.linkUp ∧
    1 ∉ up.host.perst ∧ (configIds { hostRing 0 {} with boot.cfgReady := true } 0 1).isSome = true := by decide +kernel

/-! ### Threads of the packet cores -/

/-- Thread 0 with the registers given on a core that runs. -/
def thread0 (t : Thread) : State := { late with tahr.threads := [(0, t)], tahr.cores := [(0, { released := true })] }
theorem test_wit_Threads_issue : issues (thread0 { haveReset := false }) 0 = true := by decide +kernel
/-- What a test reads after issue: register 1 and the events pending. -/
def startOf (t : Thread) : State := startIssue 0 200000000000 (thread0 t)
theorem test_wit_EventAndChannel_wfe : issues (thread0 { regs := [(1, 15)], evpend := 8 }) 0 = true ∧
    xreg (startOf {}) 0 1 % 16 = 0 ∧ (threadOf (startOf { regs := [(1, 15)], evpend := 8 }) 0).evpend &&& (xreg (startOf { regs := [(1, 15)] }) 0 1 % 16) ≠ 0 ∧
    xreg (startOf { regs := [(1, 7)], evpend := 8 }) 0 1 % 16 ≠ 0 ∧
    (threadOf (startOf { regs := [(1, 7)], evpend := 8 }) 0).evpend &&& (xreg (startOf { regs := [(1, 7)] }) 0 1 % 16) = 0 := by decide +kernel
theorem test_wit_EventAndChannel_channels : channelOperand (xreg (startOf { regs := [(1, 1023)] }) 0 1) = some 1023 ∧
    (channelOf (startOf {}) 1023).enable = true ∧ admitsThread (channelOf (startOf {}) 1023) 1023 0 = true ∧ reserving (threadOf (startOf {}) 0) = false ∧
    freeChSlot (channelOf (startOf {}) 1023) = some 0 ∧ channelOperand (xreg (startOf { regs := [(1, 2 ^ 63)] }) 0 1) = none ∧
    slotOffset 57 = false ∧ slotOffset 56 = true ∧ slotOffset 0 = true := by decide +kernel
/-- Thread 0 holds slot 0 of channel 5 of its cluster, reserved or taken; register 1 names it. -/
def holding (taken : Bool) (reg : Nat) : State :=
  let s := startOf { regs := [(1, reg)], resv := if taken then none else some (5, 0, false), taken := if taken then [(5, 0)] else [] }
  { s with tahr.channels := [(5, { slots := [(0, ⟨if taken then 3 else 1, zeros 64, 0, false⟩)], order := [] })] }
theorem test_wit_EventAndChannel_slots : (threadOf (holding false (slotHandle 5 0)) 0).resv = some (5, 0, false) ∧
    xreg (holding false (slotHandle 5 0)) 0 1 = slotHandle 5 0 ∧ xreg (holding false 0x55) 0 1 ≠ slotHandle 5 0 ∧
    (threadOf (holding true 0) 0).resv = none ∧ takenSlot (threadOf (holding true (slotHandle 5 0)) 0) (xreg (holding true (slotHandle 5 0)) 0 1) = some (5, 0) ∧
    mget (channelOf (holding true 0) 5).slots 0 = some ⟨3, zeros 64, 0, false⟩ ∧ takenSlot (threadOf (holding false 0) 0) 0 = none := by decide +kernel
/-- Channel 5 of cluster 0 with one message in slot 0. -/
def messaged : State :=
  let s := startOf { regs := [(1, 5)] }
  { s with tahr.channels := [(5, { slots := [(0, ⟨2, zeros 64, 0, false⟩)], order := [0] })] }
theorem test_wit_EventAndChannel_get : channelOperand (xreg messaged 0 1) = some 5 ∧ 5 / 1024 = threadCluster 0 ∧
    (channelOf (skipVoids 5 16 messaged) 5).order = [0] ∧ mget (channelOf (skipVoids 5 16 messaged) 5).slots 0 = some ⟨2, zeros 64, 0, false⟩ := by decide +kernel
/-- Thread 0 of cluster 0 and the packet in segment 5 that the cluster owns, its handle in register 1 and `off` in register 2. -/
def owning (off : Nat) : State :=
  { thread0 { regs := [(1, 5), (2, off)] } with buf.heads := [(5, { owner := 0x10, frame := zeros 64, recLen := 64, meta_ := zeros 256, hv := zeros 256 })] }
/-- The state PLD and PST look at. -/
def looked (off : Nat) : State := corePmc 0 7 1 (startIssue 0 200000000000 (owning off))
theorem test_wit_PacketAndControl_packets : issues (owning 0) 0 = true ∧ handleFails (looked 0) (threadCluster 0) (xreg (startOf {}) 0 1) ≠ none ∧
    handleFails (looked 16127) (threadCluster 0) (xreg (startIssue 0 200000000000 (owning 16127)) 0 1) = none ∧ xreg (startIssue 0 200000000000 (owning 16127)) 0 2 < 16128 ∧
    inFencedBank (looked 0) (xreg (startIssue 0 200000000000 (owning 0)) 0 1 % 2 ^ 20) = false ∧
    pstFails (looked 0) (mgetD (looked 0).buf.heads 5 {}) 120 = none ∧ (pstFails (looked 0) (mgetD (looked 0).buf.heads 5 {}) 16127).isSome = true := by decide +kernel
theorem test_wit_PacketAndControl_disp : xreg (owning 0) 0 2 % 16 = 0 ∧ xreg (owning 1) 0 2 % 16 = 1 ∧ xreg (owning 2) 0 2 % 16 = 2 ∧
    xreg (owning 3) 0 2 % 16 = 3 ∧ xreg (owning 4) 0 2 % 16 = 4 := by decide +kernel
theorem test_wit_PacketAndControl_go : 7 < xreg (startOf { regs := [(1, 8)] }) 0 1 ∧ xreg (startOf { regs := [(1, 7)] }) 0 1 ≤ 7 ∧
    (setOf (startOf { regs := [(1, 7)] }) 15).busy = false ∧
    (setOf { startOf { regs := [(1, 7)] } with sets := [(15, { busy := true })] } 15).busy = true := by decide +kernel
/-- Thread 0 at the last half of a cache line, where its code memory holds `w`. -/
def coded (w : Nat) : State := { thread0 { pc := 0x1000103E } with mem := Memory.writes [] (clusterBase 0 + 0x103E) (leBytes 4 w) }
theorem test_wit_BaseInstructionsRun : issues (coded 0x13) 0 = true ∧
    (fetchHalf 0 0x1000103E (startIssue 0 200000000000 (coded 0x13))).1 = some 0x13 ∧ 0x13 % 4 = 3 ∧
    (fetchHalf 0 0x10001040 (fetchHalf 0 0x1000103E (startIssue 0 200000000000 (coded 0x13))).2).1 = some 0 ∧ 1 % 4 ≠ 3 ∧ expandC 0x0001 = some 0x13 ∧ expandC 0 = none := by decide +kernel
theorem test_wit_ExceptionsTrap : (threadOf (startOf { csrs := [(0x305, 0x40)] }) 0).inTrap = false ∧
    mgetD (threadOf (startOf { csrs := [(0x305, 0x40)] }) 0).csrs 0x305 0 = 0x40 ∧
    bit (csrOf (trap 0 2 0 (startOf { csrs := [(0x305, 0x40)] })) 0 0x7B0) 2 = false ∧
    illegal (startOf { csrs := [(0x305, 0x40)] }) = (startOf { csrs := [(0x305, 0x40)] }, some (2, 0)) := by decide +kernel
/-- Core 0 at a cycle of slot 0, only thread 2 not faulted. -/
def alone2 (metered : Bool) : State := { late with
  tahr.cores := [(0, { released := true })]
  tahr.threads := (List.range 8).map (fun t => (t, ({ faulted := t != 2, metered := metered } : Thread))) }
theorem test_wit_ExceptionsTrap_slots : nextCycle (alone2 true) 0 % 8 ≠ 2 % 8 ∧ (nextCycle (alone2 true) 0 + 1) % 8 ≠ 2 % 8 ∧
    canIssue (alone2 true) 2 = true ∧ (threadOf (alone2 true) 2).metered = true ∧ canIssue (alone2 false) 2 = true ∧
    nextCycle (alone2 false) (threadCore 2) % 8 ≠ 2 % 8 ∧ (threadOf (alone2 false) 2).metered = false ∧
    (threadOf (alone2 false) 2).busyUntil ≤ nextCycle (alone2 false) 0 ∧ passesNow (alone2 false) (nextCycle (alone2 false) 0) = true ∧
    rivals (alone2 false) 2 (nextCycle (alone2 false) 0) = [] ∧ triggerAction (alone2 false) 2 2 (threadOf (alone2 false) 2).pc = none := by decide +kernel
theorem test_wit_ThreadEvents_threads : (threadOf (thread0 { tcmp := 1 }) 0).tcmp ≠ 0 ∧ (threadOf (thread0 { tcmp := 1 }) 0).tcmp ≤ cyclesOf (thread0 { tcmp := 1 }) 0 ∧
    (threadOf (thread0 { waiting := some (8, 0), evpend := 8 }) 0).evpend &&& 8 ≠ 0 ∧ coreFenced (thread0 {}) 0 = false ∧ trafficOn (thread0 {}) = true := by decide +kernel
/-- A reset of core 0 whose grace has ended. -/
def resetting : State := { late with tahr.resets := [{ cmd := none, resource := resId 9 0, cores := [0], graceUntil := 100000000000, reclaim := false, cause := 1 }] }
theorem test_wit_ThreadEvents_clusters : (resetting.tahr.resets.find? (fun r => r.resource == resId 9 0)).isSome = true ∧ mailboxReady resetting = true ∧
    (∀ r ∈ resetting.tahr.resets, r.graceUntil ≤ resetting.time.uptime) ∧
    (clusterOf { late with tahr.clusters := [(1, { stalled := true })] } 1).stalled = true ∧ (1 : Nat) < 2 ∧ (127 : Nat) < 128 := by decide +kernel
/-- Cluster 0 with one thread alive, waiting for events without a timer. -/
def stalling : State := { late with
  tahr.clusters := [(0, { quiet := 65536 })], tahr.cores := [(0, { released := true })],
  tahr.threads := (List.range 256).map (fun t => (t, ({ waiting := some (1, 0), faulted := t != 0 } : Thread))) }
theorem test_wit_ThreadEvents_stall : (clusterOf stalling 0).stalled = false ∧ stalls stalling 0 = true := by decide +kernel
/-- Thread 3 has been halted for 1 ms with a reservation, which cluster 0 lets it hold for that long. -/
def haltHeld : State := { late with
  tahr.clusters := [(0, { holdTimeout := 1000 })],
  tahr.threads := [(3, { halted := true, haltSince := 99999000000, resv := some (5, 0, false) })] }
theorem test_wit_ThreadEvents_hold : mailboxReady haltHeld = true ∧ (clusterOf haltHeld (threadCluster 3)).holdTimeout ≠ 0 ∧
    (threadOf haltHeld 3).halted = true ∧ reserving (threadOf haltHeld 3) = true ∧ 99999000000 + 1000 * 1000 ≤ haltHeld.time.uptime := by decide +kernel
/-- Cluster 1 dumps to stack 2 every 100 µs. -/
def dumping (dest : Nat) : State := { late with tahr.clusters := [(1, { dumpDest := dest, dumpPeriod := 100, dumpBase := 0x180000000000, dumpDepth := 4, dumpAt := 99999900000 })] }
theorem test_wit_ClusterDumps : trafficOn (dumping 1) = true ∧ (clusterOf (dumping 1) 1).dumpDest ≠ 0 ∧ 99999900000 + (0 + 1) * 100 * 1000 ≤ late.time.uptime ∧
    isFenced (dumping 1) (resId 0x11 1) = false ∧ isFenced { dumping 1 with faults.fenced := [resId 0x11 1] } (resId 0x11 1) = true ∧
    (clusterOf (dumping 2) 1).dumpDest = 2 ∧ someLost (dumping 2) (dumpRange 1 (clusterOf (dumping 2) 1)) 4096 = false := by decide +kernel

/-! ### Tables -/

theorem test_wit_TableSets : setTakes 0 up = true ∧ setWaits 0 (setWritten 0 (withBits 0 2 0 1) up) up = false ∧
    up.faults.stagHeld = false ∧ running up = true := by decide +kernel
/-- A table 5 of kind 0, its instance 0 as given. -/
def tabled (p : Policy) (n : TInst) : State := { late with tables := [(5, { kind := 0, keyBytes := 8, dataBytes := 8, capacity := 1, buckets := 16, policy := p, insts := [(0, n)] })] }
theorem test_wit_TableSets_waits : setWaits 8 (setWritten 8 (withBits (5 * 2 ^ 16) 2 0 5) (tabled {} { held := true })) (tabled {} { held := true }) = true := by decide +kernel
/-- Set 3 busy with a result. -/
def setBusy : State := { up with sets := [(3, { busy := true, result := some { status := 0, evicted := false, found := true, relocations := 0, handle := 0, key := [], data := [] } })] }
theorem test_wit_TableSets_busy : (setOf setBusy 3).busy = true ∧ (setOf setBusy 3).waiting = false ∧ (setOf setBusy 3).result.isSome = true ∧
    running setBusy = true := by decide +kernel
/-- An entry with the key 1. -/
def entry1 (hit seen static : Bool) : Entry := { key := leBytes 8 1, data := zeros 8, hit := hit, clearSeen := seen, static := static }
/-- Table 5 with one entry in the stash and one learn event for the key given. -/
def learning (k : Nat) (n : TInst) : State := tabled {} { n with learnQ := [(leBytes 8 k, zeros 8)] }
theorem test_wit_TableEvents_learn : trafficOn (learning 1 {}) = true ∧ learningPaused (learning 1 {}) = false ∧ onStandby (learning 1 {}) = false ∧
    onStandby { learning 1 {} with pair.role := 3 } = true ∧ (learning 1 {}).pair.cfg.standbyLearn = false ∧
    (findEntry (mgetD (learning 1 {}).tables 5 {}) { stash := [(0, entry1 true false false)] } (leBytes 8 1)).isSome = true ∧
    findEntry (mgetD (learning 1 {}).tables 5 {}) {} (leBytes 8 1) = none ∧
    (insertExact 5 0 (mgetD (learning 1 {}).tables 5 {}) (leBytes 8 1) (zeros 8) { replace := false, learned := true } (learning 1 {})).isOk = true ∧
    (let s := learning 2 { stash := [(0, entry1 true false false)] }
     (insertExact 5 0 (mgetD s.tables 5 {}) (leBytes 8 2) (zeros 8) { replace := false, learned := true } s).isOk) = false := by decide +kernel
/-- Table 5 in HBM stack H0, which is not ready where asked, with a learn event and a sweep. -/
def hbmTabled (ready bad : Bool) : State := { late with
  hbm := [(0, { ready := ready })], pchans := [(0, { bad := bad })]
  tables := [(5, { kind := 0, memory := 1, regions := [0], keyBytes := 8, dataBytes := 8, capacity := 64, buckets := 16, insts := [(0, { learnQ := [(leBytes 8 1, zeros 8)], sweeping := true })] })] }
theorem test_wit_TableEvents_reach : tableDown (hbmTabled false false) (mgetD (hbmTabled false false).tables 5 {}) = true ∧
    tableDown (hbmTabled true false) (mgetD (hbmTabled true false).tables 5 {}) = false ∧ tableBurst (hbmTabled true false) (mgetD (hbmTabled true false).tables 5 {}) = false ∧
    tableDown (learning 1 {}) (mgetD (learning 1 {}).tables 5 {}) = false ∧ tableBurst (learning 1 {}) (mgetD (learning 1 {}).tables 5 {}) = false := by decide +kernel
theorem test_wit_TableEvents_times : (instOf (mgetD (tabled {} { rel := some (entry1 true false false, 99999999750) }).tables 5 {}) 0).rel =
      some (entry1 true false false, 99999999750) ∧ 99999999750 + 250 ≤ late.time.uptime ∧
    (tableOf { late with tables := [(6, { kind := 1 })] } 6).map (·.kind) = some 1 ∧
    (tableOf (tabled { ageMs := 1000 } { sweepAt := some 99000000000 }) 5).isSome = true ∧
    99000000000 + 1000 * 1000000 ≤ unpausedIn { sweepAt := some 99000000000 } (tabled { ageMs := 1000 } { sweepAt := some 99000000000 }) ∧ (instOf (mgetD (tabled {} {}).tables 5 {}) 0).sweeping = false := by decide +kernel
theorem test_wit_TableEvents_visits :
    nextPosition (mgetD (tabled {} {}).tables 5 {}) { sweeping := true, stash := [(0, entry1 true false false)] } = some (64, entry1 true false false) ∧
    nextPosition (mgetD (tabled {} {}).tables 5 {}) { sweeping := true, sweepPos := 65, stash := [(0, entry1 true false false)] } = none ∧
    (entry1 false true false).clearSeen = true ∧ (entry1 false false true).static = true ∧ (entry1 false false false).clearSeen = false := by decide +kernel

/-! ### HBM -/

theorem test_wit_HbmEvents_temp : running up = true ∧ (domainOf up 12).on = true ∧ (domainOf up 16).on = true ∧ (105 : Int) ≤ 105 ∧ (105 : Int) < 106 := by decide
/-- Pseudo-channel 191 as given. -/
def pchan191 (x : PChan) : State := { late with pchans := [(191, x)] }
theorem test_wit_HbmEvents_modes : (hbmOf (pchan191 {}) 5).ready = true ∧ (pchanOf (pchan191 { mode := 1 }) 191).mode ≠ 0 ∧
    (∀ a, (pchanOf (pchan191 {}) 191).windowAt = some a → a + (pchanOf (pchan191 {}) 191).windowNs ≤ late.time.uptime) ∧
    (pchanOf (pchan191 { windowAt := some 99968000000, windowNs := 32000000 }) 191).windowAt = some 99968000000 ∧ 99968000000 + 32000000 ≤ late.time.uptime ∧
    (pchanOf (pchan191 { windowAt := some 99968000001, windowNs := 32000000 }) 191).windowAt = some 99968000001 ∧ late.time.uptime < 99968000001 + 32000000 ∧
    (pchanOf (pchan191 { mode := 2, window := true }) 191).window = true ∧ (pchanOf (pchan191 {}) 191).window = false := by
  refine ⟨by decide +kernel, by decide +kernel, fun a h => ?_, by decide +kernel⟩
  rw [show (pchanOf (pchan191 {}) 191).windowAt = none from by decide +kernel] at h
  exact absurd h (by simp)
theorem test_wit_HbmEvents_activate : pcServes (pchan191 { mode := 3 }) 191 = true ∧ (47 : Nat) < 48 ∧ (16383 : Nat) < 16384 ∧
    bankHolds (pchanOf (pchan191 { mode := 3, queue := [(47, [1, 2, 3])] }) 191) 47 16383 = false ∧
    bankHolds (pchanOf (pchan191 { mode := 3, queue := [(47, [1, 2, 3])] }) 191) 47 3 = true ∧
    bankHolds (pchanOf (pchan191 { queue := [(47, [1, 2, 3, 4])] }) 191) 47 16383 = true ∧ bankHolds (pchanOf (pchan191 { queue := [(47, [3])] }) 191) 47 3 = false ∧
    (actEntry (mgetD (pchanOf (pchan191 { mode := 3, act := [(47, [(0, (16383, 2047))])] }) 191).act 47 []) 16383).2 = (pchanOf (pchan191 {}) 191).rhNow ∧
    (actEntry [(0, (16383, 2046))] 16383).2 < (pchanOf (pchan191 {}) 191).rhNow ∧ (pchanOf (pchan191 {}) 191).mode ≠ 3 ∧
    mgetD (pchanOf (pchan191 { queue := [(47, [1])] }) 191).queue 47 [] = [1] := by decide +kernel
theorem test_wit_HbmEvents_pauses : pausePhase { up with time.uptime := 0 } 0 400 = 400 ∧ pausePhase { up with time.uptime := 63999999 } 0 400 = 399 ∧
    up.retrainHold = none ∧ pausePhase { up with time.uptime := 47750999 } 191 0 = 999 ∧ pcServes up 191 = true ∧
    pausePhase { pchan191 { paused := true } with time.uptime := 47751000 } 191 0 = 1000 ∧
    (hbmOf { up with hbm := [] } 5).ready = false ∧
    holdsFor { up with retrainHold := some 63999600 } 0 = true ∧ holdsFor { up with retrainHold := some 63999599 } 0 = false ∧
    (hbmOf up 5).ready = true ∧ 1000 ≤ pausePhase { up with time.uptime := 1000 } 0 0 ∧ (pchanOf up 0).paused = false := by decide +kernel

/-! ### Faults -/

theorem test_wit_FaultEvents_reports : resKind (resId 0x18 0) = sourceKind 24 ∧ resValid (resId 0x18 0) = true ∧ sourceClass 24 = some 2 ∧
    resKind (resId 0x08 63) = sourceKind 2 ∧ resValid (resId 0x08 63) = true ∧ sourceClass 2 = some 1 ∧ windowOf up 2 = none ∧
    reportTargets 2 (resId 0x08 63) [] = some [resId 0x08 63] ∧ [resId 0x08 63].all (isFenced up) = false ∧ upSafe.faults.safe = true ∧
    sourceClass 23 = some 1 ∧ u8 [1] 0 ∈ [0, 1, 14, 15] ∧ u8 [17] 0 ∉ [0, 1, 14, 15] ∧ sourceWindow 2 = none ∧ sourceWindow 23 = none ∧
    (∃ ts, reportTargets 23 (resId 0x18 0) [17] = some ts ∧ ts.all (isFenced up) = false) := by
  and_intros
  all_goals decide +kernel
/-- Bank 3 fenced, by a count that was reached in this clock where asked. -/
def bankFenced (now : Bool) : State := { up with
  faults.fenced := [resId 0x0E 3], faults.fencedNow := if now then [⟨0, true, resId 0x0E 3⟩] else [] }
theorem test_wit_FaultEvents_fenced : sourceClass 11 = some 1 ∧ sourceWindow 11 = none ∧ resKind (resId 0x0E 3) = sourceKind 11 ∧ resValid (resId 0x0E 3) = true ∧
    reportTargets 11 (resId 0x0E 3) [] = some [resId 0x0E 3] ∧ [resId 0x0E 3].all (isFenced (bankFenced false)) = true ∧
    sameFence (bankFenced true) [resId 0x0E 3] true false = true ∧ sameFence (bankFenced false) [resId 0x0E 3] true false = false ∧
    upSafe.faults.fatalAt ≠ some upSafe.time.uptime ∧ ({ upSafe with faults.fatalAt := some 0 } : State).faults.fatalAt = some ({ upSafe with faults.fatalAt := some 0 } : State).time.uptime := by decide +kernel
/-- A pending record and a self-test of bank 3 for the command given, failed or not. -/
def testing (f : Bool) : State := { up with
  faults.pending := [mkRecord up 2 (resId 0x08 63) 1 1 0 (resId 0x08 63) []]
  faults.tests := [{ unit := resId 0x0E 3, cmd := if f then some (entry 0 []) else none, failed := f }] }
theorem test_wit_FaultEvents_records : (testing false).faults.pending ≠ [] ∧ running (testing false) = true ∧ (testing false).boot.restarting = false ∧
    (testing false).faults.stagHeld = false ∧ 2 ≤ (testing false).boot.phase ∧ mailboxReady (testing false) = true ∧
    (testing false).faults.tests.find? (fun t => t.unit == resId 0x0E 3 && t.trial.isNone) = some { unit := resId 0x0E 3, cmd := none, failed := false } ∧
    journalFree (testing true).journal ≠ 0 ∧ mailboxReady (testing true) = true ∧
    (testing true).faults.tests.find? (fun t => t.unit == resId 0x0E 3 && t.trial.isNone) = some { unit := resId 0x0E 3, cmd := some (entry 0 []), failed := true } := by decide +kernel
theorem test_wit_FatalEvents : ∃ t, exec (.faultReport 24 (resId 0x18 0) []) up = .next t ∧ exec (.faultReport 24 (resId 0x18 0) []) upSafe = .next (after (exec (.faultReport 24 (resId 0x18 0) []) upSafe) up) :=
  ⟨_, rfl, rfl⟩
theorem test_wit_TheSafeStateForwardsNothing : upSafe.faults.safe = true := rfl

/-! ### Observation, time and dumps -/

theorem test_wit_Observation_window : pf0Answers { up with host.linkUp := [0] } = true ∧ 0 % 8 = 0 ∧ (0x1FF8 : Nat) < 0x2000 ∧
    (2 ^ 23 - 1 : Nat) < 2 ^ 23 ∧ up.boot.rcvState = 0 ∧ (0x2100 ≤ 0x1FFF8 ∧ 0x1FFF8 < 0x20000) ∧ (0x30008 ≤ 0x7FFFF8 ∧ 0x7FFFF8 < 0x800000) := by decide
/-- The pulse units: an output on, due, and high; an input on with an edge captured at `u`. -/
def pulses (u : Nat) : State := { late with time := { late.time with
  ppsOutOn := true, ppsNext := 0, ppsHigh := true, ppsFallAt := 100000000000, ppsInOn := true, ppsInCount := 1, ppsInUptime := u }, faults.alert := true }
theorem test_wit_Observation_pulses : running (pulses 0) = true ∧ (pulses 0).time.ppsNext ≤ (pulses 0).time.ntime ∧
    (pulses 0).time.ppsFallAt ≤ (pulses 0).time.uptime ∧ true ≠ (pulses 0).time.ppsFalling ∧
    (pulses 99999999001).time.uptime < (pulses 99999999001).time.ppsInUptime + 1000 ∧
    (pulses 99999999000).time.ppsInUptime + 1000 ≤ (pulses 99999999000).time.uptime ∧ (pulses 0).time.ppsInCount ≠ 0 ∧
    (pulses 0).faults.alert = true ∧ (5 : Nat) < 6 := by decide
/-- TIME_SET_RATE of a rate. -/
def setRate (v : Int) : Cmd := entry 0 (leBytes 8 (v % 2 ^ 64).toNat)
theorem test_wit_RatesApply : signed 64 ((setRate (-500000001)).at 0 8) = -500000001 ∧ signed 64 ((setRate 500000000).at 0 8) = 500000000 ∧
    signed 64 ((setRate (-500000000)).at 0 8) = -500000000 ∧ (setRate 0).txnId = 0 ∧ (setRate 0).resource = 0 ∧ following up = false ∧
    refusedWith 0x1103 (setRate 500000001) (badField 0) up = true ∧ up.power.porst = false ∧ up.power.brownout = false ∧ up.power.refclkLost = false ∧
    ({ up with time := { up.time with nextRate := some 5 } } : State).time.nextRate = some 5 := by decide
/-- Stream 0 dumps its first frame at 100 s into H0; the last one is still being written where asked. -/
def streaming (w : Option Nat) : State := { late with dumps := [(0, { dest := 1, period := 1000, base := 0x100200000000, depth := 4, start := 99999000000, writing := w })] }
theorem test_wit_DumpFrames : (mgetD (streaming none).dumps 0 {}).dest = 1 ∧ 99999000000 + (0 + 1) * 1000 * 1000 ≤ late.time.uptime ∧
    frameLost (streaming none) 0 (mgetD (streaming none).dumps 0 {}) = false ∧ (mgetD (streaming (some 0)).dumps 0 {}).writing = some 0 ∧
    frameLost { streaming none with hbm := [] } 0 (mgetD (streaming none).dumps 0 {}) = true ∧ trafficOn (streaming none) = true ∧
    asleep { late with dumps := [(0, { dest := 2, period := 1000, depth := 4, start := 99000000000 })] } 0 = false ∧
    asleep { late with host.d3hot := [0] } 0 = true := by decide +kernel
theorem test_wit_MemoryHolds : Memory.wf [(5, 1#8), (2 ^ 48 - 1, 2#8)] = true := by decide

/-! ### Power and reset -/

/-- The device with a supply that was low for `n` µs. -/
def lowFor (n : Nat) : State := { up with power := { up.power with lowUs := n } }
theorem test_wit_PowerEvents_samples : (supplyCounts 10500 (lowFor 9).power).lowUs < 10 ∧ 10 ≤ (supplyCounts 10499 (lowFor 9).power).lowUs ∧
    (lowFor 9).power.samples ≠ 99 ∧ ({ up with power := { up.power with samples := 99 } } : State).power.samples = 99 ∧ (lowFor 9).power.porst = false ∧ (14500 : Nat) ≤ 14500 := by decide
/-- Domain 5 ramping. -/
def ramping5 : State := { up with power := { up.power with domains := [(5, { ramping := true })] } }
theorem test_wit_PowerEvents_domains : running up = true ∧ (domainOf up 5).on = true ∧ trialsOf 5 up = [] ∧ (domainOf ramping5 5).ramping = true ∧
    trialsOf 5 ramping5 = [] ∧
    trialsOf 17 { up with faults.tests := [{ unit := resId 1 192, cmd := none, trial := some 17 }] } ≠ [] ∧ up.power.refclkLost = false := by decide
/-- PD_STAG about to ramp, or ramping, after the release of PORST_N. -/
def bringsUp (r : Bool) : State := { State.reset with power := { State.reset.power with porst := false, bringUp := [1, 2], domains := [(1, { ramping := r })] } }
theorem test_wit_PowerEvents_bringUp : running (bringsUp false) = true ∧ (bringsUp true).power.bringUp = 1 :: [2] ∧
    (bringsUp true).power.bringAt ≤ (bringsUp true).time.uptime ∧ (domainOf (bringsUp true) 1).on = false ∧ (domainOf (bringsUp true) 1).heldOff = false ∧
    (domainOf (bringsUp false) 1).ramping = false ∧ (domainOf (bringsUp true) 1).ramping = true ∧
    (bringsUp true).power.domains.all (fun x => !x.2.ramping || x.1 == 1) = true := by decide
/-- The states between the resets. -/
def heldBy (porst brown warm : Bool) : State := { up with power := { up.power with porst := porst, brownout := brown, warm := warm, backUs := 10000 } }
theorem test_wit_ResetEvents : (heldBy true false false).power.porst = true ∧ (heldBy true false false).power.brownout = false ∧
    (heldBy true true false).power.brownout = true ∧ 10000 ≤ (heldBy false true false).power.backUs ∧ (heldBy false true false).power.porst = false ∧
    (1000 : Nat) ≤ 1000 ∧ (999 : Nat) < 1000 ∧ (heldBy false false true).power.warm = true ∧
    (heldBy false false true).power.warmAt + 2000000 ≤ ({ heldBy false false true with time.uptime := 2000000 } : State).time.uptime ∧
    ({ late with mgt.resetAt := some 100000000000 } : State).mgt.resetAt = some 100000000000 ∧
    running { late with boot := { late.boot with watch := some 99000000000 } } = true ∧ 99000000000 + 1000000000 ≤ late.time.uptime := by decide
/-- An activation armed for NTIME 0. -/
def armedFor (kinds : Nat) : State := { up with boot := { up.boot with armed := some { kinds := kinds, at_ := 0, expect := zeros 96, withPeer := false } } }
theorem test_wit_ResetEvents_activation : mailboxReady (armedFor 2) = true ∧ bit 2 0 = false ∧ bit 1 0 = true ∧ noneExecuting (armedFor 1) = true ∧
    (armedFor 2).boot.stage = 0 ∧ (armedFor 2).boot.activating = none ∧ (0 : Nat) ≤ (armedFor 2).time.ntime := by decide
/-- The header of an artefact of kind 1 with a body of one zero octet. -/
def head1 : List Byte := leBytes 4 0x54465241 ++ [1, 1, 0, 0] ++ zeros 8 ++ leBytes 4 1 ++ zeros 4 ++ sha256 (zeros 1) ++ zeros 200
/-- The artefact, its signature of zeros. -/
def artefact1 : List Byte := head1 ++ zeros 37728
/-- An artefact staged in cluster A of a device with the digest of the key of zeros as vendor key 0. -/
def staged (a : List Byte) : State := { up with
  mem := Memory.writes [] 0x20001000 a
  boot := { up.boot with rcvState := 1, rcvLength := a.length,
                         otp := (List.range 4).map (fun i => (6 + i, leNat (slice (sha256 (zeros 64)) (8 * i) 8))) } }
theorem staged_artefact (a : List Byte) : stagedArtefact (staged a) = a := Memory.reads_writes a [] 0x20001000 rfl
theorem artefact1_length : artefact1.length = 37984 := by
  rw [artefact1, List.length_append, zeros, List.length_replicate, show head1.length = 256 from by decide +kernel]
theorem test_wit_ResetEvents_artefact : headerOk 1 artefact1 = true ∧ artefactLen artefact1 = 37984 ∧
    keyOk (staged []) 1 (artefactHeader artefact1) (artefactBody artefact1) = true ∧ fusedSv (staged []) 1 ≤ headerSv (artefactHeader artefact1) ∧
    sha256 (artefactBody artefact1) = headerDigest (artefactHeader artefact1) ∧ bodyOk 1 (artefactBody artefact1) = true ∧
    headerKey (artefactHeader artefact1) = zeros 64 := by decide +kernel
/-- The verdict is 0 where the signature verifies, which the model leaves to the standard (log entry 20). -/
theorem test_wit_ResetEvents_recovery (h : Config.slhVerify (zeros 64) (artefactHeader artefact1 ++ zeros 64) (artefactSignature artefact1) = true) :
    running (staged artefact1) = true ∧ (staged artefact1).boot.rcvState = 1 ∧ (staged artefact1).boot.rcvLength ≤ 8384512 ∧
    (staged artefact1).boot.restarting = false ∧ verdict (staged artefact1) 1 (stagedArtefact (staged artefact1)) = 0 := by
  obtain ⟨h2, h3, h4, h5, h6, h7, h8⟩ := test_wit_ResetEvents_artefact
  have h4' : keyOk (staged artefact1) 1 (artefactHeader artefact1) (artefactBody artefact1) = true := h4
  have h5' : ¬headerSv (artefactHeader artefact1) < fusedSv (staged artefact1) 1 := Nat.not_lt.mpr h5
  refine ⟨rfl, rfl, ?_, rfl, ?_⟩
  · show artefact1.length ≤ 8384512
    rw [artefact1_length]; decide
  · rw [staged_artefact]
    simp [verdict, artefact1_length, h2, h3, h4', h6, h7, h8, h, h5']
theorem test_wit_ResetEvents_long : ({ up with boot := { up.boot with rcvState := 1, rcvLength := 8384513 } } : State).boot.rcvState = 1 ∧
    8384512 < 8384513 ∧ ({ up with boot := { up.boot with rcvState := 3, restarting := true } } : State).boot.restarting = true := by decide
theorem test_wit_ResetHoldsTheMailbox : (heldBy true false false).power.porst = true ∧ readRow (.mboxNop (entry 0 [])) = some (0x0201, entry 0 []) :=
  ⟨by decide, rfl⟩
theorem test_wit_ValuesFallInTheirBucket : 3 / 2 ^ 0 < 4 ∧ 4 ≤ 4 / 2 ^ 0 ∧ 2 ^ 2 ≤ 4 ∧ 4 < 2 ^ 3 ∧ 131071 < 2 ^ 17 ∧ 2 ^ 16 ≤ 131071 ∧ 2 ^ 17 ≤ 131072 ∧
    ({ shift := 4 } : Monitor).shift = 4 ∧ ({ last := some 7 } : Monitor).last = some 7 ∧ ({ last := some 7 } : Monitor).last ≠ some 8 := by decide

/-! ### Worked examples of the spec -/

/-- R412: 1,354 ns with S = 2 fall in bucket 29, x from 114,688 in bucket 63. -/
theorem test_bucket_example : bucketOf 2 1354 = 29 ∧ bucketOf 0 114688 = 63 ∧ bucketOf 0 114687 = 62 := by decide
/-- R156, R157: the words of the example and the member of six. -/
theorem test_hash_example : mixHash 0x3C6EF372 [0x9133D510, 0x0D33150E, 0xC9DD0000, 0xC9990000, 0x06000000] = 0x89170008 ∧
    selectMember 0x89170008 6 = 3 := by decide +kernel
/-- R155: the sum and the xor of the two addresses. -/
theorem test_hash_words_example :
    hashWords (1 * 2 ^ 32 + (64 + 68 * 2 ^ 8 + 4 * 2 ^ 16) * 2 ^ 64) (zeros 64 ++ beBytes 4 0xC6336407 ++ beBytes 4 0xCB007109 ++ zeros 184) =
      [0x9133D510, 0x0D33150E] := by decide +kernel
/-- R274: a list with BASE 1,000 s committed at NTIME 1,000,123,456,789. -/
theorem test_gate_start_example : gateStart 1000000000000 250000 1000123456789 = 1000123500000 := by decide
/-- R275: the three entries of the example, at 73,211 ns of its time line. -/
theorem test_gate_entries_example : (gateAt 0 30000 [(0x80, 30000), (0x7F, 200000), (0, 20000)]).1 = 1 ∧
    (gateAt 0 29999 [(0x80, 30000), (0x7F, 200000), (0, 20000)]).1 = 0 := by decide
/-- R263: the rate word of the shaped customer. -/
theorem test_rate_example : cirOf 0x0000008989669896 = 2499968 ∧ pirOf 0x0000008989669896 = 9999872 ∧ unlimited 0x0000008989669896 = false := by decide
/-- R260: what queues 808 and 809 gain for 1,000 octets at weights 3 and 1. -/
theorem test_share_example : 1000 * 4096 / 3 = 1365333 ∧ tagBefore 1365333 4096000 = true ∧ tagBefore (2 ^ 48 - 1) 0 = true := by decide
/-- R420: block 0x0A1_3C40 of the example: banks 2, 6, 10 and 14 of SID 2, row 632 of pseudo-channel 0. -/
theorem test_hbm_map_example : (List.range 4).map (fun g => hbmPlace 0 [] (4275264 * 4096 + 1024 * g + 32 * (8 * g))) =
    [⟨0, 34, 632, 0⟩, ⟨0, 38, 632, 8⟩, ⟨0, 42, 632, 16⟩, ⟨0, 46, 632, 24⟩] ∧ blockPc 10566720 = 32 ∧ blockIn 32 133602 = 10566720 := by decide
/-- R221: the checksum of the routed frame. -/
theorem test_checksum_example : csumAdj 0xB1E6 [0x4006] [0x3F06] = 0xB2E6 := by decide
/-- R97, R95: the default region and its levels. -/
theorem test_journal_levels_example : journalCap State.reset.journal = 58720256 ∧ 58720256 / 512 = 114688 ∧ 58720256 / 1024 = 57344 ∧
    58720256 / 256 = 229376 := by decide
/-- R416: the frame of a stream with sections 1 and 2. -/
theorem test_dump_frame_example : dumpFrame 1 3 = 49152 := by decide +kernel
/-- R19: pseudo-channel 5 of H3. -/
theorem test_resource_example : resId 0x0D (3 * 32 + 5) = 0x68000065 ∧ resValid 0x68000065 = true ∧ groupOf 0x68000065 = some (resId 0x13 3) := by decide
/-- R33: index 0x47 of a ring of 64 takes POST_PHASE 0, index 0x00 POST_PHASE 1. -/
theorem test_post_phase_example : phaseMatches { consumer := 0x47, log2 := 6 } 2 = true ∧
    phaseMatches { consumer := 0, log2 := 6 } 1 = true ∧ phaseMatches { consumer := 0x47, log2 := 6 } 3 = false := by decide
/-- R124, R125: at 400 Gb/s the quanta 0xFFFF last 83,884.8 ns, half of them 41,943.04 ns, both counted up to whole ns. -/
theorem test_quanta_example : quantaNs eqReady 0 0xFFFF = 83885 ∧ quantaNs eqReady 0 32768 = 41944 := by decide +kernel
/-- FIPS 180-4: the SHA-256 digest of "abc", which the chain of R92 names. -/
theorem test_sha256_abc : (sha256 [0x61, 0x62, 0x63]).take 4 = [0xBA, 0x78, 0x16, 0xBF] := by decide +kernel

/-! ### No word spells a command, and each check of WellFormed refuses something -/

theorem test_no_words : decodeTableWord 64 0 = none ∧ State.reset.withFetchWord 64 0 = State.reset := by decide
/-- A command with one field out of its width each. -/
theorem test_illformed_commands :
    [Instr.mboxNop { entry 0 [] with path := .pf0 4 }, .mboxNop { entry 0 [] with path := .slice 4096 }, .mboxNop { entry 0 [] with flags := 256 },
     .mboxNop { entry 0 [] with version := 256 }, .mboxNop { entry 0 [] with payloadLen := 2 ^ 32 }, .mboxNop { entry 0 [] with tag := 2 ^ 64 },
     .mboxNop { entry 0 [] with bufAddr := 2 ^ 64 }, .mboxNop { entry 0 [] with bufCap := 2 ^ 32 }, .mboxNop { entry 0 [] with txnId := 2 ^ 32 },
     .mboxNop { entry 0 [] with resource := 2 ^ 32 }, .mboxNop { entry 0 [] with rsvd := 256 }, .mboxNop { entry 0 [] with phase := 256 },
     .mboxNop { entry 0 [0] with payloadLen := 0 }].all (fun i => !i.wf) = true ∧ (Instr.mboxNop (entry 0 [])).wf = true := by decide +kernel
theorem test_illformed_mailbox :
    [Instr.mbDoorbell (.pf0 4) 0, .mbDoorbell (.pf0 0) (2 ^ 64), .mbRingReset (.pf0 0) (2 ^ 64), .mailboxFetch (.pf0 0) ⟨some [], none, true⟩,
     .mboxAddr 65536, .mboxDataUpdate (2 ^ 64), .txnIdleTimeout (2 ^ 32), .epochDrain 8, .tombstoneExpiry 2 0 0, .batchClose 1024 0 0,
     .batchClose 0 6 0].all (fun i => !i.wf) = true := by decide +kernel
theorem test_illformed_ports :
    [Instr.frameReceive { frame0 60 false true with port := 192 }, .frameReceive { frame0 60 false true with fec := [(8, 1, 0, 1)] }, .linkGood 192, .ttiMultiframe 0 ⟨zeros 63, false⟩, .ttiMultiframe 192 ⟨zeros 64, true⟩,
     .storm 0 8, .storm 192 0, .waitToRestore 4096, .parserEntry 194 0, .parserEntry 0 12, .packing ⟨false, 1048576⟩, .packing ⟨true, 131072⟩,
     .blockWriteComplete 25165824, .voqDequeue 8, .egressDequeue 194, .requestRepeat 1048576].all (fun i => !i.wf) = true := by decide +kernel
theorem test_illformed_fabric :
    [Instr.grant { credit1 0 with device := 2048 }, .grant { credit1 0 with voq := 2 ^ 20 }, .grant { credit1 0 with target := 256 },
     .grant { credit1 0 with offset := 8 }, .grant (credit1 (2 ^ 29)), .cellFill 2048, .cellReceive 512 (zeros 80), .cellReceive 0 (zeros 64),
     .cellReceive 0 (zeros 288), .cellReceive 0 (zeros 81), .presence 2048 0 (zeros 64), .presence 0 (2 ^ 24) (zeros 64), .presence 0 0 [],
     .portStatus 2048 0 (zeros 64), .portStatus 0 (2 ^ 24) (zeros 64), .portStatus 0 0 [], .deviceDown 2048 0, .deviceDown 0 65536, .laneLock 512,
     .laneMarker 512 0 0 true, .laneMarker 0 2048 0 true, .laneMarker 0 0 512 true, .laneFailure 512 1, .laneFailure 0 16].all (fun i => !i.wf) = true := by decide +kernel
theorem test_illformed_pair :
    [Instr.heartbeat { role := 8, incarnation := 0, journalHead := 0, applied := 0, ports := [], priority := 0, stepping := 0, mode := 0, pairId := true },
     .snapshot [(65536, entry 0 [])], .journalRecord 0 0 65536 0 false (entry 0 []), .journalRecord 0 0 0 65536 false (entry 0 []), .commitAck (2 ^ 64),
     .counterDelta (0, [(1024, 0, 0, 0)]), .pairPortMessage 192 0 0, .pairPortMessage 0 2 0, .pairPortMessage 0 0 256, .timeAlign (2 ^ 64) 0 0 0 0 false,
     .activationArm 8 0 (zeros 96), .activationArm 0 (2 ^ 64) (zeros 96), .activationArm 0 0 []].all (fun i => !i.wf) = true := by decide +kernel
theorem test_illformed_host :
    [Instr.ringFetch 4096 0 none, .ringFetch 0 128 none, .submissionDoorbell 0 0 (2 ^ 64), .jobDispatch 0 0 0 none, .jobDispatch 4 0 0 none,
     .jobDispatch 1 4096 0 none, .jobComplete 4 0, .dmaReadError (.mailbox (.pf0 4)), .dmaReadError (.descriptor 4096 0), .dmaReadError (.jobSource 0 0),
     .quiesceTimeout 4096, .pf1Flr 2, .pciePowerState 2 0 true, .pciePowerState 0 8 true].all (fun i => !i.wf) = true := by decide +kernel
theorem test_illformed_cores :
    [Instr.wfe 512 0 0, .wfe 0 32 0, .wfeReturn 512, .cyc 0 32, .chWr 0 0 32 0, .chWr 0 0 0 4096, .chRd 0 0 0 4096, .pld 0 0 0 32, .pst 0 0 0 0 32,
     .tcmp 512 0, .tcmp 0 (2 ^ 64), .stall 2, .dmiAccess 2 true 0 0, .dmiAccess 0 true 128 0, .dmiAccess 0 true 0 (2 ^ 32), .tblCmdRead 24 0,
     .tblCmdRead 0 (2 ^ 64), .relClear 1024 0, .relClear 0 6, .trieFree 1024, .tblCmdBusyClear 24].all (fun i => !i.wf) = true := by decide +kernel
theorem test_illformed_platform :
    [Instr.hbmTempRead 6 0, .refreshWindow 192, .hbmActivate 192 0 0, .hbmActivate 0 48 0, .hbmActivate 0 0 16384, .neighbourRefresh 192 0,
     .neighbourRefresh 0 48, .faultReport 0 0 [], .faultReport 32 0 [], .faultReport 1 (2 ^ 32) [], .faultReport 1 0 (zeros 17),
     .selfTestComplete (2 ^ 32) true, .observationRead (2 ^ 32) 8, .observationRead 0 0, .observationRead 0 9, .registerWrite (2 ^ 32) 0,
     .registerWrite 0 (2 ^ 64), .bridgeDepthSample 6 0, .bridgeDepthSample 0 (2 ^ 32), .dumpCapture 2, .supplySample 65536, .regulatorFault 20,
     .laneRefclkLoss 16, .porstRelease { strapped with smbAddr := 4 }, .porstRelease { strapped with badSlots := [1] },
     .porstRelease { strapped with hangs := [3] }, .porstRelease { strapped with badDirs := [2] }, .porstRelease { strapped with flashed := [(8, [])] },
     .porstRelease { strapped with otp := [(128, 0)] }].all (fun i => !i.wf) = true := by decide +kernel
/-- R418: LAST_SEQ, MISSED and WRITING of stream 1. -/
theorem test_dump_status : regWord { State.reset with dumps := [(1, { lastSeq := 5, missed := 3, writing := some 6 })] } (12 * 2 ^ 26 + 8)
    = 5 + 3 * 2 ^ 32 + 2 ^ 48 := by decide +kernel
/-- R368: a function level reset of PF1 on link 0 resets PF0 too. -/
theorem test_pf1_flr_resets_pf0 : (linkFunctions 0 { State.reset with host.msix := [(0, 1)], host.obsBase := 0 }).host.msix = [] := by decide +kernel

end Sys2Proof.Tests
end

/-! PROOFS. The command mailbox (02_command_mailbox): what the safe state refuses (R50), and the one command of the serial path (R61). -/

namespace Sys2Proof.Machine

/-! ### The checks of R47 -/

/-- The refusal of a list of checks is that of one of them which failed. -/
theorem firstFail_eq_some {l : List (Bool × Fail)} {f : Fail} (h : firstFail l = some f) : (false, f) ∈ l := by
  induction l with
  | nil => cases h
  | cons p l ih =>
    obtain ⟨ok, g⟩ := p
    cases ok with
    | false =>
      obtain rfl : g = f := Option.some.inj h
      exact List.mem_cons_self
    | true => exact List.mem_cons_of_mem _ (ih h)

/-- A command that passes every check before the last step is left to that step. -/
theorem checkCmd_eq_stateFail {sp : CmdSpec} {c : Cmd} {s : State} (hversion : c.version = 1) (hheader : headerRsvd c = none)
    (hpayload : payloadRsvd sp c s = none) (hlength : lengthFail sp c s = none) (hrights : rightsFail sp c s = none)
    (hfields : fieldsFail sp c s = none) : checkCmd sp c s = stateFail sp c s := by
  simp [checkCmd, hversion, hheader, hpayload, hlength, hrights, hfields]

/-- The checks run in order and stop at the first that names a refusal, so what passes them all has passed the last step. -/
theorem stateFail_of_checkCmd_none {sp : CmdSpec} {c : Cmd} {s : State} (h : checkCmd sp c s = none) : stateFail sp c s = none := by
  unfold checkCmd at h
  iterate 6 (split at h; · cases h)
  exact h

/-- R50: in the safe state the last step refuses a change that is not let through. -/
theorem stateFail_safe {sp : CmdSpec} {s : State} (c : Cmd) (hsafe : s.faults.safe = true) (hkind : sp.kind ≠ .r)
    (hin : sp.inSafe = false) : stateFail sp c s = some (failWith St.safeState) := by
  simp [stateFail, firstFail, hsafe, hkind, hin]

/-- The other checks of the last step refuse with JOURNAL_FULL or WRONG_STATE, so SAFE_STATE is for the changes that the safe state bars. -/
theorem stateFail_ne_safeState {sp : CmdSpec} (c : Cmd) (s : State) (h : sp.kind = .r ∨ sp.inSafe = true) :
    stateFail sp c s ≠ some (failWith St.safeState) := by
  have hjournal : failWith St.safeState ≠ failWith St.journalFull := by decide
  have hwrong : failWith St.safeState ≠ failWith St.wrongState := by decide
  intro hf
  have hmem := firstFail_eq_some hf
  rcases h with h | h <;> simp [h, hjournal, hwrong] at hmem

/-! ### The rows that change something -/

/-- Every row of kind C or O and TXN_COMMIT goes through the firmware. -/
theorem exec_changingRow {i : Instr} {op : Nat} {c : Cmd}
    (h : configRow i = some (op, c) ∨ operateRow i = some (op, c) ∨ (i = .txnCommit c ∧ op = 0x0402)) (s : State) :
    exec i s = answer s (runCmd op c s) := by
  rcases h with h | h | ⟨rfl, rfl⟩
  · exact exec_configRow h s
  · exact exec_operateRow h s
  · rfl

/-- DEVICE_RESET alone of the rows that change something is let through in the safe state (R50). -/
theorem spec_changingRow {i : Instr} {op : Nat} {c : Cmd} {sp : CmdSpec} (hs : specOf op = some sp)
    (h : configRow i = some (op, c) ∨ (operateRow i = some (op, c) ∧ op ≠ 0x0103) ∨ (i = .txnCommit c ∧ op = 0x0402)) :
    sp.kind ≠ .r ∧ sp.inSafe = false := by
  rcases h with h | ⟨h, hop⟩ | ⟨-, rfl⟩
  · obtain ⟨-, hkind, -, hin⟩ := spec_configRow h hs
    exact ⟨by simp [hkind], hin⟩
  · obtain ⟨-, hkind, -, hin⟩ := spec_operateRow h hs
    exact ⟨by simp [hkind], by simpa [hop] using hin⟩
  · obtain rfl : txnCommitSpec = sp := Option.some.inj hs
    exact ⟨by decide, rfl⟩

/-- The rows that the safe state lets through. -/
theorem spec_safeRow {i : Instr} {op : Nat} {c : Cmd} {sp : CmdSpec} (hs : specOf op = some sp)
    (h : readRow i = some (op, c) ∨ (operateRow i = some (op, c) ∧ op = 0x0103)) : sp.kind = .r ∨ sp.inSafe = true := by
  rcases h with h | ⟨h, hop⟩
  · obtain ⟨-, hkind, -⟩ := spec_readRow h hs
    exact .inl hkind
  · obtain ⟨-, -, -, hin⟩ := spec_operateRow h hs
    exact .inr (hin.mpr hop)

/-- A refusal but DENIED leaves no record (R48). -/
theorem refuseChecked_of_ne_denied {f : Fail} (h : f.status ≠ St.denied) (c : Cmd) (op : Nat) (s : State) :
    refuseChecked c op f s = refuse c op f s := by
  simp [refuseChecked, h]

/-- Settles O16: the safe state is the first check of the last step of R47, and only reads and DEVICE_RESET pass it. -/
theorem safeStateRefusesChanges : Obligations.SafeStateRefusesChanges := by
  intro i op c sp s hsafe hs
  refine ⟨fun hrow => ?_, fun hrow href => ?_, fun hrow => stateFail_ne_safeState c s (spec_safeRow hs hrow)⟩
  · obtain ⟨hkind, hin⟩ := spec_changingRow hs hrow
    have hbarred := stateFail_safe c hsafe hkind hin
    constructor
    · intro hpass
      simp [stateFail_of_checkCmd_none hpass] at hbarred
    · intro hversion hheader hpayload hlength hrights hfields
      rw [checkCmd_eq_stateFail hversion hheader hpayload hlength hrights hfields, hbarred]
  · rw [exec_changingRow hrow, runCmd_refused href, refuseChecked_of_ne_denied (by decide)]
    rfl

/-! ### The serial path -/

/-- A malformed body has no room for the vendor identifier and a header (R60), or another identifier; its two bytes are read in network order (the model's choice, log entry 37). -/
theorem exec_mctpRequest_malformed {body : List Byte} {s : State} (hrun : running s = true)
    (h : body.length < 66 ∨ beNat (body.take 2) ≠ pciVendor) :
    exec (.mctpRequest body) s = answer s { s with mgt.serialDrops := s.mgt.serialDrops + 1 } := by
  simp [exec, execMctpRequest, hrun, h]

/-- A request while another is outstanding. -/
theorem exec_mctpRequest_busy {body : List Byte} {s : State} (hrun : running s = true) (hlen : 66 ≤ body.length)
    (hvendor : beNat (body.take 2) = pciVendor) (hbusy : s.mgt.serialBusy = true) :
    exec (.mctpRequest body) s = answer s (emit (.serialBusy (busyHeader (body.drop 2) s)) s) := by
  simp [exec, execMctpRequest, hrun, hvendor, hbusy, Nat.not_lt.mpr hlen]

/-- The state in which a request stands posted on the serial ring. -/
def serialPosted (body : List Byte) (s : State) : State :=
  modRing 4 (fun r => { r with waits := [s.time.uptime] }) { s with mgt.serialBusy := true, mgt.serialReq := some (body.drop 2) }

/-- A request on the idle path is posted, and executed where the serial ring's turn has come (R44); before the mailbox is ready it waits (the model's choice, log entry 57). -/
theorem exec_mctpRequest_idle {body : List Byte} {s : State} (hrun : running s = true) (hlen : 66 ≤ body.length)
    (hvendor : beNat (body.take 2) = pciVendor) (hidle : s.mgt.serialBusy = false) :
    exec (.mctpRequest body) s = answer s (if mailboxReady (serialPosted body s) && ringTurn 4 (serialPosted body s) then
      dispatchOrHold .serial 4 (parseEntry .serial (body.drop 2) none true) (serialPosted body s) else serialPosted body s) := by
  simp [exec, execMctpRequest, serialPosted, hrun, hvendor, hidle, Nat.not_lt.mpr hlen]

/-- Settles O17, by the three answers to a request: malformed, busy and idle. -/
theorem serialPathHoldsOneCommand : Obligations.SerialPathHoldsOneCommand := by
  intro body s hrun
  refine ⟨fun hbad => ?_, fun hlen hvendor hbusy => ?_, fun hlen hvendor hidle => ?_⟩
  · exact exec_mctpRequest_malformed hrun hbad
  · exact exec_mctpRequest_busy hrun hlen hvendor hbusy
  · exact ⟨serialPosted body s, rfl, rfl, exec_mctpRequest_idle hrun hlen hvendor hidle⟩

end Sys2Proof.Machine

/-! PROOFS. Queues and scheduling (09_queues_and_scheduling): the bindings that every reset leaves (R254). -/

namespace Sys2Proof.Machine

/-! ### The scheduler after a reset -/

/-- No setting of the scheduler outlives a power-on reset (R480). -/
@[simp] theorem porReset_sched (s : State) : (porReset s).sched = State.reset.sched := rfl

/-- No setting of the scheduler is among what a warm reset keeps (R483). -/
@[simp] theorem warmState_sched (s : State) : (warmState s).sched = State.reset.sched := by
  simp only [warmState, journalLevels_frame, pinsKept]

/-- The three reset states have one scheduler. -/
theorem sched_of_mem_resets {s t : State} (h : t ∈ [State.reset, porReset s, warmState s]) : t.sched = State.reset.sched := by
  simp only [List.mem_cons, List.not_mem_nil, or_false] at h
  obtain rfl | rfl | rfl := h
  · rfl
  · exact porReset_sched s
  · exact warmState_sched s

/-- A reset scheduler holds no binding that differs from R254. -/
theorem voqBindOf_of_reset {t : State} (h : t.sched = State.reset.sched) (g : Nat) : voqBindOf t g = voqBindReset g := by
  rw [voqBindOf, h]; rfl

theorem eqBindOf_of_reset {t : State} (h : t.sched = State.reset.sched) (e : Nat) : eqBindOf t e = eqBindReset e := by
  rw [eqBindOf, h]; rfl

/-! ### The bindings of R254 -/

/-- The group that R254 numbers for port p is decoded to p again. -/
theorem voqBindReset_port {p : Nat} (hp : p < 192) :
    voqBindReset (p % 8 * 16384 + p / 8) = { kind := 1, device := 0, target := p, mapped := true } := by
  have hoffset : (p % 8 * 16384 + p / 8) % 16384 = p / 8 := by omega
  have hsector : (p % 8 * 16384 + p / 8) / 16384 = p % 8 := by omega
  rw [voqBindReset, hoffset, hsector, if_pos (by omega), Nat.div_add_mod']

/-- A group that R254 numbers for no port lies past the first 24 of its sector: one of those 24 would be the group of the port that it decodes to. -/
theorem voqBindReset_unbound {g : Nat} (hg : g < 131072) (hfree : ∀ p < 192, g ≠ p % 8 * 16384 + p / 8) : voqBindReset g = {} := by
  refine if_neg fun hbound => hfree (g % 16384 * 8 + g / 16384) ?_ ?_
  · omega
  · omega

theorem eqBindReset_port {p : Nat} (hp : p < 192) : eqBindReset p = { kind := 1, target := p, mapped := true } := if_pos hp

theorem eqBindReset_unbound {e : Nat} (he : 192 ≤ e) : eqBindReset e = {} := if_neg (Nat.not_lt.mpr he)

/-- Settles O7: every reset leaves the scheduler of the reset state, which holds the bindings of R254. -/
theorem resetBindsEachPortToItsQueues : Obligations.ResetBindsEachPortToItsQueues := by
  intro s t ht
  have hsched := sched_of_mem_resets ht
  simp only [voqBindOf_of_reset hsched, eqBindOf_of_reset hsched]
  refine ⟨fun p hp => ?_, fun p hp => ?_, fun g hg hfree => ?_, fun e he _ => ?_⟩
  · simp [voqBindReset_port hp]
  · simp [eqBindReset_port hp]
  · rw [voqBindReset_unbound hg hfree]
  · rw [eqBindReset_unbound he]

end Sys2Proof.Machine

/-! PROOFS. Time and monitors (14_time_and_monitors): the buckets of a monitored value (R412), the events of one clock (R410), and the rate of the clock (R402). -/

namespace Sys2Proof.Machine

/-! ### The bucket of a value (R412) -/

theorem bucketOf_low {shift v : Nat} (h : v / 2 ^ shift < 4) : bucketOf shift v = v / 2 ^ shift := if_pos h

theorem bucketOf_top {shift v : Nat} (h : 2 ^ 17 ≤ v / 2 ^ shift) : bucketOf shift v = 63 := by
  have hlow : ¬ v / 2 ^ shift < 4 := by omega
  simp only [bucketOf, if_neg hlow, if_pos h]

/-- The buckets between: e numbers the power of two, and the two bits below its leading bit the quarter. -/
theorem bucketOf_mid {shift v e : Nat} (hlow : 4 ≤ v / 2 ^ shift) (htop : v / 2 ^ shift < 2 ^ 17)
    (he : 2 ^ e ≤ v / 2 ^ shift) (he' : v / 2 ^ shift < 2 ^ (e + 1)) :
    bucketOf shift v = 4 * (e - 1) + v / 2 ^ shift / 2 ^ (e - 2) % 4 := by
  have hlog : log2 (v / 2 ^ shift) = e := (Nat.log2_eq_iff (by omega)).mpr ⟨he, he'⟩
  simp only [bucketOf, hlog, if_neg (Nat.not_lt.mpr hlow), if_neg (Nat.not_le.mpr htop)]

/-- The bits of x from f on are its three leading ones where its leading bit is f + 2. -/
theorem leadingBits_iff (x f : Nat) : 4 ≤ x / 2 ^ f ∧ x / 2 ^ f < 8 ↔ 2 ^ (f + 2) ≤ x ∧ x < 2 ^ (f + 2 + 1) := by
  rw [Nat.le_div_iff_mul_le (Nat.two_pow_pos f), Nat.div_lt_iff_lt_mul (Nat.two_pow_pos f)]
  simp only [Nat.pow_succ]
  omega

/-- Every value from 4 on has three leading bits. -/
theorem exists_leadingBits {x : Nat} (hlow : 4 ≤ x) : ∃ f, 4 ≤ x / 2 ^ f ∧ x / 2 ^ f < 8 := by
  have hlog : 2 ≤ x.log2 := (Nat.le_log2 (by omega)).mpr hlow
  refine ⟨x.log2 - 2, (leadingBits_iff _ _).mpr ?_⟩
  rw [Nat.sub_add_cancel hlog]
  exact ⟨Nat.log2_self_le (by omega), Nat.lt_log2_self⟩

/-- The bucket by the three leading bits of the scaled value. -/
theorem bucketOf_leadingBits {shift v f : Nat} (htop : v / 2 ^ shift < 2 ^ 17)
    (hq : 4 ≤ v / 2 ^ shift / 2 ^ f) (hq' : v / 2 ^ shift / 2 ^ f < 8) :
    bucketOf shift v = 4 * f + v / 2 ^ shift / 2 ^ f := by
  obtain ⟨he, he'⟩ := (leadingBits_iff _ _).mp ⟨hq, hq'⟩
  have hlow : 4 ≤ v / 2 ^ shift := Nat.le_trans hq (Nat.div_le_self _ _)
  rw [bucketOf_mid hlow htop he he', Nat.add_sub_cancel]
  omega

/-- The scaled values of bucket b from 4 on are those whose three leading bits, at b / 4 - 1, are 4 + b % 4. -/
theorem bucketOf_eq_iff {shift v b : Nat} (htop : v / 2 ^ shift < 2 ^ 17) (hb : 4 ≤ b) :
    bucketOf shift v = b ↔ v / 2 ^ shift / 2 ^ (b / 4 - 1) = 4 + b % 4 := by
  constructor
  · intro h
    have hlow : 4 ≤ v / 2 ^ shift := by
      refine Nat.le_of_not_lt fun hlt => ?_
      rw [bucketOf_low hlt] at h
      omega
    obtain ⟨f, hq, hq'⟩ := exists_leadingBits hlow
    rw [bucketOf_leadingBits htop hq hq'] at h
    obtain rfl : b / 4 - 1 = f := by omega
    omega
  · intro h
    rw [bucketOf_leadingBits htop (f := b / 4 - 1) (by omega) (by omega)]
    omega

/-- The range of values of a bucket from 4 on, as R412 gives it. -/
theorem bucketOf_eq_iff_range {shift v b : Nat} (htop : v / 2 ^ shift < 2 ^ 17) (hb : 4 ≤ b) :
    bucketOf shift v = b ↔ (4 + b % 4) * 2 ^ (b / 4 + 1 - 2) ≤ v / 2 ^ shift ∧
      v / 2 ^ shift ≤ (5 + b % 4) * 2 ^ (b / 4 + 1 - 2) - 1 := by
  have hexp : b / 4 + 1 - 2 = b / 4 - 1 := by omega
  rw [bucketOf_eq_iff htop hb, hexp, Nat.div_eq_iff (Nat.two_pow_pos _), Nat.add_right_comm 4 1, Nat.add_one_mul]

/-! ### What a value and an event change (R410, R413) -/

/-- The bucket of the value counts it, up to its 32 bits. -/
theorem Monitor.record_bucket_self (m : Monitor) (v : Nat) :
    mgetD (m.record v).buckets (bucketOf m.shift v) 0 = Nat.min (mgetD m.buckets (bucketOf m.shift v) 0 + 1) 0xFFFFFFFF :=
  mgetD_mset_self ..

theorem Monitor.record_bucket_other (m : Monitor) {v b : Nat} (h : b ≠ bucketOf m.shift v) :
    mgetD (m.record v).buckets b 0 = mgetD m.buckets b 0 :=
  mgetD_mset_other _ _ _ h.symm

theorem Monitor.take_newClock {m : Monitor} {clock : Nat} (h : m.last ≠ some clock) (same : Bool) (v : Nat) :
    m.take clock same v = { m.record v with last := some clock } := by
  simp [Monitor.take, h]

/-- Whether an event at the same count is one of the same clock is a free value (log entry 31). -/
theorem Monitor.take_sameClock {m : Monitor} {clock : Nat} (h : m.last = some clock) (v : Nat) :
    m.take clock true v = m.skip := by
  simp [Monitor.take, h]

/-- Settles O60: the three branches of the bucket, its range by the three leading bits of the scaled value, and the one bucket that a record writes. -/
theorem valuesFallInTheirBucket : Obligations.ValuesFallInTheirBucket := by
  rintro shift v x rfl
  refine ⟨bucketOf_low, fun e => bucketOf_mid, bucketOf_top, fun b htop hb _ => bucketOf_eq_iff_range htop hb, ?_, fun clock m => ?_⟩
  · rintro m rfl
    exact ⟨m.record_bucket_self v, fun b => m.record_bucket_other⟩
  · exact ⟨fun hnew same => Monitor.take_newClock hnew same v, fun hsame => Monitor.take_sameClock hsame v⟩

/-! ### The rate of the clock (R402) -/

/-- A command outside a transaction that names no resource is left to the checks of its own fields. -/
theorem fieldsFail_eq_fields {sp : CmdSpec} {c : Cmd} (htxn : c.txnId = 0) (hres : c.resource = 0) (s : State) :
    fieldsFail sp c s = sp.fields c s := by
  simp [fieldsFail, htxn, hres]

/-- A refusal but DENIED leaves no record, so the row only completes. -/
theorem exec_operateRow_refused {i : Instr} {op : Nat} {c : Cmd} {s : State} {f : Fail} (hrow : operateRow i = some (op, c))
    (href : refusedWith op c f s = true) (hf : f.status ≠ St.denied) :
    exec i s = .next (settled s (refuse c op f (dispatched c s))) := by
  rw [exec_operateRow hrow, runCmd_refused href, refuseChecked_of_ne_denied hf, answer]

theorem timeSetRate_fields_out {c : Cmd} (s : State) (h : signed 64 (c.at 0 8) < -500000000 ∨ 500000000 < signed 64 (c.at 0 8)) :
    timeSetRateSpec.fields c s = some (badField 0) := by
  have hout : -500000000 ≤ signed 64 (c.at 0 8) → 500000000 < signed 64 (c.at 0 8) := by omega
  simpa [timeSetRateSpec, firstFail] using hout

theorem timeSetRate_fields_in {c : Cmd} (s : State) (hlo : -500000000 ≤ signed 64 (c.at 0 8)) (hhi : signed 64 (c.at 0 8) ≤ 500000000) :
    timeSetRateSpec.fields c s = none := by
  simp [timeSetRateSpec, firstFail, hlo, hhi]

/-- A device that follows no peer takes the rate, which waits for the tick. -/
theorem timeSetRate_run (c : Cmd) {s : State} (h : following s = false) :
    timeSetRateSpec.run c s = .ok { s := { s with time := { s.time with nextRate := some (signed 64 (c.at 0 8)), steered := true } } } := by
  simp [timeSetRateSpec, h]

/-- CK_TIME ticks where neither reset holds the device nor REFCLK is lost. -/
theorem tick_time {s : State} (hporst : s.power.porst = false) (hbrown : s.power.brownout = false) (hclk : s.power.refclkLost = false) :
    (tick s).time = tickTime s.time := by
  simp [tick, hporst, hbrown, hclk]

@[simp] theorem tickTime_uptime (t : Timebase) : (tickTime t).uptime = t.uptime + 1 := rfl
@[simp] theorem tickTime_rate (t : Timebase) : (tickTime t).rate = t.nextRate.getD t.rate := rfl
@[simp] theorem tickTime_nextRate (t : Timebase) : (tickTime t).nextRate = none := rfl

/-- Settles O54: the row's own check refuses a rate out of range, its execution leaves the rate to the tick, and the tick takes it. -/
theorem ratesApplyFromTheNextTick : Obligations.RatesApplyFromTheNextTick := by
  rintro c s v rfl
  refine ⟨rfl, rfl, fun hout htxn hres => ⟨?_, fun href => ?_⟩, fun hlo hhi htxn hres => ⟨?_, fun hfree => ?_⟩, fun hwaits hporst hbrown hclk => ?_⟩
  · rw [fieldsFail_eq_fields htxn hres, timeSetRate_fields_out s hout]
  · exact exec_operateRow_refused rfl href (by decide)
  · rw [fieldsFail_eq_fields htxn hres, timeSetRate_fields_in s hlo hhi]
  · exact ⟨_, timeSetRate_run c hfree, rfl, rfl⟩
  · simp [tick_time hporst hbrown hclk, hwaits]

end Sys2Proof.Machine

/-! PROOFS. The queue, the step and the output pins (95_what_each_step_holds, 18_power_clocks_reset). -/

namespace Sys2Proof.Machine

/-! ### A settled state -/

theorem pinLevels_settled (s u : State) : pinLevels (settled s u) = pinLevels u := rfl

/-- The pins of a settled state are at its levels. -/
theorem settled_pins (s u : State) : (settled s u).pins = pinLevels (settled s u) := rfl

/-! ### The step -/

theorem step_nil {s : State} (h : s.pending = []) : step s = .next (settled s (deviceTick s)) := by
  simp [step, h, answer]

theorem step_cons {c : Instr} {rest : List Instr} {s : State} (h : s.pending = c :: rest) :
    step s = exec c { s with pending := rest } := by
  simp [step, h]

/-- Settles O1. -/
theorem stepRunsTheFrontCommand : Obligations.StepRunsTheFrontCommand :=
  fun _ _ _ => step_cons rfl

/-- Settles O3: every answer is a settled state, which keeps the queue. -/
theorem everyCommandAnswers : Obligations.EveryCommandAnswers := by
  refine ⟨fun c s h => ?_, fun mv s h => ?_⟩
  · obtain ⟨u, hu⟩ := exec_settled c s h
    exact ⟨settled s u, hu, rfl⟩
  · simp [exec, execSupplySample, h]

/-- A step answers a settled state whose queue is the rest of the queue. -/
theorem step_answers {s : State} (h : s.pending.all withinRatings = true) :
    ∃ t : State, step s = .next t ∧ t.pending = s.pending.tail := by
  cases hq : s.pending with
  | nil => exact ⟨_, step_nil hq, hq⟩
  | cons c rest =>
    rw [hq, List.all_cons, Bool.and_eq_true] at h
    obtain ⟨u, hu⟩ := exec_settled c { s with pending := rest } h.1
    exact ⟨_, (step_cons hq).trans hu, rfl⟩

theorem step_keeps_ratings {s : State} (h : s.pending.all withinRatings = true) :
    ∃ t : State, step s = .next t ∧ t.pending.all withinRatings = true ∧ t.pending = s.pending.tail := by
  obtain ⟨t, ht, hq⟩ := step_answers h
  refine ⟨t, ht, ?_, hq⟩
  rw [List.all_eq_true] at h ⊢
  exact fun c hc => h c (List.mem_of_mem_tail (hq ▸ hc))

/-- Settles O4, by induction on the number of steps: each leaves a queue within the ratings. -/
theorem noRunStops : Obligations.NoRunStops := by
  refine ⟨fun s => step_keeps_ratings, fun n => ?_⟩
  induction n with
  | zero => exact fun _ _ => rfl
  | succ n ih =>
    intro s h
    obtain ⟨t, ht, hq, -⟩ := step_keeps_ratings h
    rw [safeFor, ht]
    exact ih t hq

/-- What a step answers is settled. -/
theorem step_settled {s t : State} (h : step s = .next t) : ∃ v u : State, t = settled v u := by
  cases hq : s.pending with
  | nil =>
    rw [step_nil hq] at h
    cases h
    exact ⟨_, _, rfl⟩
  | cons c rest =>
    rw [step_cons hq] at h
    obtain ⟨u, hu⟩ := next_settled h
    exact ⟨_, u, hu⟩

theorem pinLevels_faultN (t : State) :
    (pinLevels t).faultN = false ↔ (t.faults.safe = true ∨ t.power.porst = true ∨ t.power.brownout = true) := by
  cases h : t.faults.safe <;> cases h' : t.power.porst <;> simp [pinLevels, h, h']

/-- Settles O5: what a step answers is settled, and the levels of a settled state are those of its latches. -/
theorem pinsFollowTheState : Obligations.PinsFollowTheState := by
  intro s t _ h
  obtain ⟨v, u, rfl⟩ := step_settled h
  have hpins := settled_pins v u
  refine ⟨hpins, ?_, ?_, ?_, ?_, ?_⟩ <;> rw [hpins]
  · exact pinLevels_faultN _
  all_goals simp [pinLevels]

end Sys2Proof.Machine

/-! PROOFS. The command mailbox (02_command_mailbox, 03_transactions_and_journal): what a command of each kind answers, and what a refusal leaves. -/

namespace Sys2Proof.Machine

/-! ### Rows -/

/-- Every row of the mailbox goes through the firmware. -/
theorem exec_mailboxRow {i : Instr} {op : Nat} {c : Cmd}
    (h : readRow i = some (op, c) ∨ configRow i = some (op, c) ∨ operateRow i = some (op, c) ∨ (i = .txnCommit c ∧ op = 0x0402)) (s : State) :
    exec i s = answer s (runCmd op c s) :=
  h.elim (exec_readRow · s) (exec_changingRow · s)

/-- Settles O59: a device in reset has no firmware that executes commands. -/
theorem resetHoldsTheMailbox : Obligations.ResetHoldsTheMailbox := by
  intro i op c s hporst hrow
  have hready : mailboxReady s = false := by simp [mailboxReady, running, hporst]
  rw [exec_mailboxRow hrow, runCmd]
  simp [hready, answer]

/-! ### Noting a dispatch -/

@[simp] theorem touchTxn_generation (c : Cmd) (s : State) : (touchTxn c s).mgt.generation = s.mgt.generation := by
  unfold touchTxn; (repeat' split) <;> rfl

@[simp] theorem noteDispatch_generation (p : Path) (s : State) : (noteDispatch p s).mgt.generation = s.mgt.generation := by
  unfold noteDispatch; (repeat' split) <;> rfl

@[simp] theorem dispatched_generation (c : Cmd) (s : State) : (dispatched c s).mgt.generation = s.mgt.generation := by
  simp [dispatched]

/-! ### Refusals -/

@[simp] theorem settleDisables_generation (n : Nat) (s : State) : (settleDisables n s).mgt.generation = s.mgt.generation := by
  induction n generalizing s with
  | zero => rfl
  | succ n ih =>
    unfold settleDisables
    dsimp only
    repeat' split
    · rfl
    · rfl
    · simp [ih, modRing]

@[simp] theorem complete_generation (c : Cmd) (op status detail : Nat) (result : List Byte) (seq gen : Nat) (s : State) :
    (complete c op status detail result seq gen s).mgt.generation = s.mgt.generation := by
  simp [complete]

@[simp] theorem refuse_generation (c : Cmd) (op : Nat) (f : Fail) (s : State) : (refuse c op f s).mgt.generation = s.mgt.generation := by
  simp [refuse]

@[simp] theorem refuseChecked_generation (c : Cmd) (op : Nat) (f : Fail) (s : State) :
    (refuseChecked c op f s).mgt.generation = s.mgt.generation := by
  unfold refuseChecked
  dsimp only
  (repeat' split) <;> simp

/-- Settles O14: a refusal writes its completion, and a record where it is DENIED. -/
theorem refusedCommandsChangeNothing : Obligations.RefusedCommandsChangeNothing := by
  intro i op c f s hrow href
  refine ⟨_, by rw [exec_mailboxRow hrow, runCmd_refused href, answer], rfl, ?_, ?_⟩
  · simp [sameDevice, settled, dispatched]
  · simp [settled]

/-! ### Reads -/

/-- An operation of kind R writes no record and, but for DEBUG_READ, leaves the state. -/
theorem readRow_run {i : Instr} {op : Nat} {c : Cmd} {sp : CmdSpec} {s : State} {r : Ran}
    (hrow : readRow i = some (op, c)) (hs : specOf op = some sp) (hr : sp.run c s = .ok r) :
    r.log = .silent ∧ (op ≠ 0x1701 → r.s = s) := by
  cases i <;> simp only [readRow, Option.some.injEq, Prod.mk.injEq, reduceCtorEq] at hrow
  all_goals
    obtain ⟨rfl, rfl⟩ := hrow
    cases hs
    revert hr
    dsimp only [deviceInfoSpec, mboxNopSpec, mboxRingStatusSpec, rightsGetSpec, txnStatusSpec, journalReadSpec, portGetSpec, parserGetSpec,
      tableReadSpec, tableSearchSpec, stageGetSpec, bufferGetSpec, schedGetSpec, fabricGetSpec, pairGetSpec, tahrGetSpec, sliceGetSpec,
      ringGetSpec, timeGetSpec, monitorGetSpec, faultGetSpec, firmwareGetSpec, firmwareAttestSpec, hbmGetSpec, debugReadSpec]
    (repeat' split) <;> rintro ⟨⟩ <;> simp

/-- What the execution of an R command that passed its checks answers. -/
theorem runPlain_silent {sp : CmdSpec} {c : Cmd} {s : State} {r : Ran} (hdry : dryRun c = false) (hr : sp.run c (occupy c s) = .ok r)
    (hlog : r.log = .silent) : runPlain sp c s = complete c sp.opcode St.success 0 r.result 0 r.s.mgt.generation r.s := by
  simp [runPlain, hdry, hr, hlog]

/-- Settles O8: a read writes no record and leaves the state; a burst that stands where it reads leaves the choice to a free value. -/
theorem readCommandsComplete : Obligations.ReadCommandsComplete := by
  intro i op c sp s r hrow hs hacc
  obtain ⟨hop, hkind, hne⟩ := spec_readRow hrow hs
  obtain ⟨-, hdry, -⟩ := accepted_spec hacc hs
  have hrun : exec i s = answer s (runNow sp c (dispatched c s)) := by
    rw [exec_readRow hrow, runCmd_accepted hacc hs]
    simp [hne, hkind]
  subst hop
  refine ⟨fun u hburst hu hok => ?_, fun hburst hok => ⟨?_, fun hdebug => (readRow_run hrow hs hok).2 hdebug⟩⟩
  · have hplain := runPlain_silent hdry hok (readRow_run hrow hs hok).1
    rw [hrun, runNow]
    simp only [hburst, if_true, ← hu, hplain, answer]
  · have hplain := runPlain_silent hdry hok (readRow_run hrow hs hok).1
    rw [hrun, runNow]
    simp [hburst, hplain, answer]

/-! ### Operational changes -/

/-- Settles O9, by how the operation's record is written. -/
theorem operationalCommandsComplete : Obligations.OperationalCommandsComplete := by
  intro i op c sp s r hrow hs hacc hburst hok
  obtain ⟨hop, hkind, hne, -⟩ := spec_operateRow hrow hs
  obtain ⟨-, hdry, -⟩ := accepted_spec hacc hs
  have hrun : exec i s = answer s (runPlain sp c (dispatched c s)) := by
    rw [exec_operateRow hrow, runCmd_accepted hacc hs]
    simp [hne, hkind, runNow, hburst]
  have htime : (dispatched c s).time = s.time := by simp [dispatched]
  subst hop
  refine ⟨fun hlog j hj => ?_, fun hlog => ?_, fun seq hlog => ?_, fun hlog => ?_⟩
  · simp only [hrun, runPlain, hdry, hok, hlog, hkind, htime, ← hj, Bool.false_eq_true, if_false, answer]
  · rw [hrun, runPlain_silent hdry hok hlog, answer]
  · simp only [hrun, runPlain, hdry, hok, hlog, hkind, Bool.false_eq_true, if_false, answer]
  · simp only [hrun, runPlain, hdry, hok, hlog, hkind, Bool.false_eq_true, if_false, answer]

/-! ### Configuration -/

/-- Settles O10: nothing stands in the way of staging. -/
theorem configurationCommandsAreStaged : Obligations.ConfigurationCommandsAreStaged := by
  intro i op c sp x s hrow hs hacc htxn hcheck hx hmeets hstage hlimit
  obtain ⟨hop, hkind, hne, -⟩ := spec_configRow hrow hs
  obtain ⟨-, hdry, -⟩ := accepted_spec hacc hs
  have hx' : mgetD (dispatched c s).mgt.txns c.txnId {} = x := by simp [mgetD, hx]
  subst hop
  rw [exec_configRow hrow, runCmd_accepted hacc hs]
  simp [hne, hkind, htxn, hcheck, hx', stageCmd, hmeets, hstage, hlimit, hdry, answer]

end Sys2Proof.Machine

/-! PROOFS. Transactions and the journal (03_transactions_and_journal): how a commit starts, waits and reaches its commit point, and the chain of records. -/

namespace Sys2Proof.Machine

/-! ### What keeps the configuration generation -/

@[simp] theorem makeTomb_mgt_generation (kind table index : Nat) (s : State) :
    (makeTomb kind table index s).mgt.generation = s.mgt.generation := rfl

@[simp] theorem applyDelete_generation (t i : Nat) (key : List Byte) (s : State) :
    (applyDelete t i key s).mgt.generation = s.mgt.generation := by
  unfold applyDelete
  dsimp only
  (repeat' split) <;> simp [modInst]

@[simp] theorem applyDestroy_generation (t : Nat) (s : State) : (applyDestroy t s).mgt.generation = s.mgt.generation := by
  have htombs : ∀ (l : List Nat) (s : State), (l.foldl (fun s idx => makeTomb 0 t idx s) s).mgt.generation = s.mgt.generation :=
    foldl_keeps (fun s : State => s.mgt.generation) (fun s idx => makeTomb 0 t idx s) fun _ _ => rfl
  unfold applyDestroy
  dsimp only
  (repeat' split) <;> simp [htombs]

/-- Phase B changes no generation (R80). -/
@[simp] theorem applyDeferred_generation (d : Deferred) (s : State) : (applyDeferred d s).mgt.generation = s.mgt.generation := by
  cases d <;> simp only [applyDeferred, applyDelete_generation, applyDestroy_generation] <;> rfl

@[simp] theorem settleHeld_mgt (s : State) : (settleHeld s).mgt = s.mgt := rfl

@[simp] theorem writeRecs_mgt (k : Commit) (s : State) : (writeRecs k s).2.mgt = s.mgt := by
  unfold writeRecs
  rw [foldl_keeps (fun a : Nat × State => a.2.mgt)]
  simp

@[simp] theorem answerCommit_generation (k : Commit) (seq : Nat) (s : State) : (answerCommit k seq s).mgt.generation = s.mgt.generation := by
  unfold answerCommit
  (repeat' split) <;> simp

@[simp] theorem programDone_generation (hash header : List Byte) (act : Option (Nat × Nat)) (s : State) :
    (programDone hash header act s).mgt.generation = s.mgt.generation := by
  unfold programDone
  split <;> simp [activationRec]

@[simp] theorem finishCommit_generation (k : Commit) (s : State) : (finishCommit k s).mgt.generation = s.mgt.generation := by
  unfold finishCommit
  dsimp only
  (repeat' split) <;> simp [commitRec]

/-- A commit point advances the generation by one (R80). -/
theorem commitPoint_generation (k : Commit) (p : PlacedOp) (behind : List Nat) (s : State) :
    (commitPoint k p behind s).mgt.generation = s.mgt.generation + 1 := by
  have hdeferred : ∀ (l : List Deferred) (s : State), (l.foldl (fun s d => applyDeferred d s) s).mgt.generation = s.mgt.generation :=
    foldl_keeps (fun s : State => s.mgt.generation) (fun s d => applyDeferred d s) fun s d => applyDeferred_generation d s
  unfold commitPoint
  dsimp only
  split <;> simp [hdeferred]

/-! ### Starting a commit -/

/-- What a command occupies is no part of what a commit waits for. -/
@[simp] theorem occupy_epoch (c : Cmd) (s : State) :
    (occupy c s).mgt.commits = s.mgt.commits ∧ (occupy c s).mgt.live = s.mgt.live ∧ (occupy c s).mgt.curTag = s.mgt.curTag ∧
    (occupy c s).mgt.generation = s.mgt.generation ∧ (occupy c s).mgt.ingressRetired = s.mgt.ingressRetired ∧
    (occupy c s).mgt.egressRetired = s.mgt.egressRetired := by
  unfold occupy
  (repeat' split) <;> simp [modRing]

theorem epochWait_occupy (ops : List Staged) (c : Cmd) (s : State) : epochWait ops (occupy c s) = epochWait ops s := by
  simp [epochWait, phaseBOpen, nextTag]

theorem mustWait_occupy (ops : List Staged) (c : Cmd) (s : State) : mustWait ops (occupy c s) = mustWait ops s := by
  simp [mustWait, phaseAOpen, epochWait_occupy]

/-- A commit of a command that nothing makes wait runs at once. -/
theorem startCommit_runs {op txn : Nat} {c : Cmd} {ops : List Staged} {s : State} (h : mustWait ops s = false) :
    startCommit { cmd := some c, opcode := op, txn := txn, origin := originOf c.path, ops := ops } s =
      runCommit (commitOf op c txn ops s) (committing c txn s) := by
  have hnumber : mustWait ops { s with mgt.nextCommit := s.mgt.nextCommit + 1 } = false := h
  simp only [startCommit, mustWait_occupy, hnumber, Bool.false_eq_true, if_false]
  rfl

/-- A commit of a command that must wait joins those under way. -/
theorem startCommit_waits {op txn : Nat} {c : Cmd} {ops : List Staged} {s : State} (h : mustWait ops s = true) :
    ∃ u : State, startCommit { cmd := some c, opcode := op, txn := txn, origin := originOf c.path, ops := ops } s = u ∧
      u.mgt.commits = s.mgt.commits ++ [{ commitOf op c txn ops s with waiting := true, waited := epochWait ops s }] ∧
      u.mgt.generation = s.mgt.generation ∧ u.mgt.curTag = s.mgt.curTag ∧ u.bank = s.bank ∧ u.tables = s.tables ∧ u.mem = s.mem := by
  have hnumber : mustWait ops { s with mgt.nextCommit := s.mgt.nextCommit + 1 } = true := h
  refine ⟨_, rfl, ?_⟩
  simp only [startCommit, mustWait_occupy, epochWait_occupy, hnumber, if_true]
  simp [commitOf]
  rfl

/-- No operation meets a burst where none stands (R429). -/
theorem burstIndex_none {ops : List Staged} {s : State} (h : ops.any (fun st => opBurst st s) = false) (i : Nat) :
    burstIndex i ops s = (none, s) := by
  induction ops generalizing i with
  | nil => rfl
  | cons st ops ih =>
    rw [List.any_cons, Bool.or_eq_false_iff] at h
    simp only [burstIndex, h.1, Bool.false_eq_true, if_false]
    exact ih h.2 (i + 1)

/-- A commit of a command whose operations can be placed reaches its commit point, or phase A where that takes time. -/
theorem runCommit_placed {op txn : Nat} {c : Cmd} {ops : List Staged} {p : PlacedOp} {s u : State}
    (hburst : ops.any (fun st => opBurst st u) = false) (hplace : placeAll true ops u = .ok p) :
    runCommit (commitOf op c txn ops s) u = if phased (commitOf op c txn ops s) u = true then beginPhaseA (commitOf op c txn ops s) p u
      else commitPoint (commitOf op c txn ops s) p (ingressPkts u) u := by
  have hops : (commitOf op c txn ops s).ops = ops := rfl
  have hcheck : placeAllWith (checkOf (commitOf op c txn ops s)) ops u = .ok p := hplace
  simp only [runCommit, placeCommit, hops, burstIndex_none hburst 0, hcheck]

/-- Settles O11: nothing makes the command wait, so its commit runs. -/
theorem configurationCommandsCommitAlone : Obligations.ConfigurationCommandsCommitAlone := by
  intro i op c sp p s hrow hs hacc htxn hmeets hburst hwait hplace
  obtain ⟨hop, hkind, hne, -⟩ := spec_configRow hrow hs
  obtain ⟨-, hdry, -⟩ := accepted_spec hacc hs
  have hburst' : [(⟨op, c⟩ : Staged)].any (fun st => opBurst st (committing c 0 (dispatched c s))) = false := by simp [hburst]
  have hrun : exec i s = answer s (runCommit (commitOf op c 0 [⟨op, c⟩] (dispatched c s)) (committing c 0 (dispatched c s))) := by
    subst hop
    rw [exec_configRow hrow, runCmd_accepted hacc hs, if_neg hne, if_neg (by simp [hkind]), if_pos htxn]
    simp only [runSingle, hmeets, hdry, Bool.false_eq_true, if_false, startCommit_runs hwait]
  rw [hrun, runCommit_placed hburst' hplace]
  refine ⟨fun hphase => ?_, fun hphase => ?_⟩ <;> simp [hphase, answer]

/-! ### TXN_COMMIT -/

/-- TXN_COMMIT starts the commit of what its transaction has staged. -/
theorem exec_txnCommit {c : Cmd} {s : State} (hacc : accepted 0x0402 c s = true) (hcheck : txnCheck c (dispatched c s) = none)
    (hroom : commitRoom (mgetD (dispatched c s).mgt.txns c.txnId {}).staged (dispatched c s) = true) :
    exec (.txnCommit c) s = answer s (startCommit
      { cmd := some c, opcode := 0x0402, txn := c.txnId, origin := originOf c.path,
        ops := (mgetD (dispatched c s).mgt.txns c.txnId {}).staged } (dispatched c s)) := by
  obtain ⟨-, hdry, -⟩ := accepted_spec hacc rfl
  rw [exec_changingRow (.inr (.inr ⟨rfl, rfl⟩)), runCmd_accepted hacc rfl, if_pos rfl]
  simp [runTxnCommit, hcheck, hroom, hdry]

/-- The phase A of a TXN_COMMIT takes time where it writes a table in HBM. -/
theorem phased_txnCommit (c : Cmd) (txn : Nat) (ops : List Staged) (s u : State) :
    phased (commitOf 0x0402 c txn ops s) u = ops.any (fun st => writesHbm st u) := by
  simp [phased, commitOf]

/-- Settles O12: every commit point advances the generation, and the commit runs. -/
theorem transactionsCommit : Obligations.TransactionsCommit := by
  refine ⟨fun op txn c ops p behind s u => commitPoint_generation _ p behind s, ?_⟩
  rintro c p ops s u hacc hcheck rfl hroom hwait rfl hburst hplace
  rw [exec_txnCommit hacc hcheck hroom, startCommit_runs hwait, runCommit_placed hburst hplace, phased_txnCommit]
  refine ⟨fun hhbm => ?_, fun hhbm => ?_⟩ <;> simp [hhbm, answer]

/-- What a dispatch notes is no part of a commit. -/
theorem dispatched_epoch (c : Cmd) (s : State) :
    (dispatched c s).mgt.commits = s.mgt.commits ∧ (dispatched c s).mgt.curTag = s.mgt.curTag := by
  simp only [dispatched, touchTxn, noteDispatch]
  (repeat' split) <;> simp

/-- Settles O13: a commit that must wait takes its number, occupies its path and joins those under way. -/
theorem commitsWaitForTheirEpoch : Obligations.CommitsWaitForTheirEpoch := by
  rintro c ops s hacc hcheck rfl hroom hwait
  obtain ⟨hcommits, htag⟩ := dispatched_epoch c s
  obtain ⟨u, hu, hlast, hgen, hcur, hbank, htables, hmem⟩ := startCommit_waits (op := 0x0402) (txn := c.txnId) (c := c) hwait
  refine ⟨settled s u, by rw [exec_txnCommit hacc hcheck hroom, hu, answer], ?_⟩
  simp [settled, hlast, hgen, hcur, hbank, htables, hmem, hcommits, htag]
  simp [dispatched]

end Sys2Proof.Machine

/-! PROOFS. A completion that waits in D3hot (R41, R366; log entry 71), and the chain of the change journal (R88, R97). -/

namespace Sys2Proof.Machine

/-! ### A completion that waits -/

/-- A command of PF0 ring 1 whose result has no buffer that can be written. -/
def unwritableCmd : Cmd :=
  { path := .pf0 1, flags := 0, version := 1, payloadLen := 0, tag := 0, bufAddr := 0, bufCap := 0, txnId := 0,
    resource := 0, rsvd := 0, phase := 0, payload := [], readable := true, writable := false }

/-- PF0 is in D3hot, and ring 1 in host memory has one entry posted. -/
def sleepingHost : State :=
  { State.reset with host.d3hot := [0], mgt.rings := [(1, { state := 1, producer := 1 })] }

/-- The completion that waits is the one that will be written, with RESULT_LOST. -/
theorem done_of_sleepingHost :
    ((mbRing (complete unwritableCmd 0x0101 St.success 0 [0] 0 0 sleepingHost) 1).done.map (·.status)) = some St.resultLost := by
  decide

/-- Refutes O15: a result that cannot be written turns SUCCESS into RESULT_LOST before the completion waits for D0, so what waits on the ring is not the status given. -/
theorem not_completionsAdvanceTheRing : ¬ Obligations.CompletionsAdvanceTheRing := by
  intro h
  obtain ⟨hheld, -⟩ := h unwritableCmd 1 0x0101 St.success 0 [0] 0 0 sleepingHost _ [] rfl (by decide) (by decide) rfl (by decide) (by decide)
  have hdone := done_of_sleepingHost
  rw [hheld (by decide)] at hdone
  exact absurd hdone (by decide)

end Sys2Proof.Machine

/-! PROOFS. The safe state and the chain of the change journal (R88, R97, R436, R444). -/

namespace Sys2Proof.Machine

/-! ### The safe state -/

/-- The lines of the ports change no fault latch. -/
theorem settleLines_faults (l : List Nat) (down : Bool) (s : State) :
    (l.foldl (fun s p => settleLine down p s) s).faults = s.faults := by simp

/-- Entering the safe state latches it, with the cause where none was latched (R444). -/
theorem enterSafe_latch (source resource : Nat) (s : State) :
    (enterSafe source resource s).faults.safe = true ∧
    (s.faults.safe = false → (enterSafe source resource s).faults.causeSource = source ∧
      (enterSafe source resource s).faults.causeResource = resource ∧ (enterSafe source resource s).faults.causeValid = true) ∧
    (s.faults.safe = true → (enterSafe source resource s).faults.causeSource = s.faults.causeSource ∧
      (enterSafe source resource s).faults.causeResource = s.faults.causeResource) := by
  cases h : s.faults.safe
  · by_cases hp : s.pair.cfg.enable = true ∧ s.pair.role ≠ 0 <;> simp [enterSafe, h, hp]
  · simp [enterSafe, h]

/-- Putting a record in front of the firmware changes no latch. -/
@[simp] theorem pendRecord_latch (r : FRec) (s : State) :
    (pendRecord r s).faults.safe = s.faults.safe ∧ (pendRecord r s).faults.causeSource = s.faults.causeSource ∧
    (pendRecord r s).faults.causeResource = s.faults.causeResource ∧ (pendRecord r s).faults.causeValid = s.faults.causeValid := by
  unfold pendRecord
  split <;> simp

/-- What a fatal event latches (R436, R444). -/
theorem fatal_latch (source resource : Nat) (detail : List Byte) (s : State) :
    (fatal source resource detail s).faults.safe = true ∧
    (s.faults.safe = false → (fatal source resource detail s).faults.causeSource = source ∧
      (fatal source resource detail s).faults.causeResource = resource ∧ (fatal source resource detail s).faults.causeValid = true) ∧
    (s.faults.safe = true → (fatal source resource detail s).faults.causeSource = s.faults.causeSource ∧
      (fatal source resource detail s).faults.causeResource = s.faults.causeResource) := by
  obtain ⟨hsafe, hfirst, hkept⟩ := enterSafe_latch source resource (if s.faults.safe then s else overrideClock s)
  unfold fatal
  dsimp only
  cases h : s.faults.safe <;> simp only [h, Bool.false_eq_true, if_false, if_true] at hsafe hfirst hkept ⊢
  · obtain ⟨hsource, hresource, hvalid⟩ := hfirst h
    split <;> simp [hsafe, hsource, hresource, hvalid]
  · obtain ⟨hsource, hresource⟩ := hkept trivial
    split <;> simp [hsafe, hsource, hresource]

theorem faultN_of_safe {s : State} (h : s.faults.safe = true) : (pinLevels s).faultN = false := (pinLevels_faultN s).mpr (.inl h)

/-! ### The journal -/

@[simp] theorem notePause_chain (s : State) :
    (notePause s).journal.recs = s.journal.recs ∧ (notePause s).journal.head = s.journal.head ∧ (notePause s).journal.chain = s.journal.chain := by
  unfold notePause
  (repeat' split) <;> simp

/-- The levels of the journal change no record. -/
@[simp] theorem journalLevels_chain (s : State) :
    (journalLevels s).journal.recs = s.journal.recs ∧ (journalLevels s).journal.head = s.journal.head ∧
    (journalLevels s).journal.chain = s.journal.chain := by
  unfold journalLevels
  dsimp only
  (repeat' split) <;> simp

/-- A record without room is a fatal event (R97). -/
theorem appendRec_noRoom {s : State} (h : journalFree s.journal = 0) (typ : Nat) (rep : Bool) (body : List Byte) :
    appendRec typ rep body s = fatal 30 (resId 0x18 0) [] s := by
  simp [appendRec, h]

/-- The record that an append writes. -/
def recordOf (typ : Nat) (body : List Byte) (j : Journal) : JRec :=
  ⟨j.head, typ, leBytes 8 j.head ++ fit 40 body, leNat ((sha256 (leBytes 16 j.chain ++ (leBytes 8 j.head ++ fit 40 body))).take 16)⟩

/-- A record with room stands last, and the chain ends in it (R88). -/
theorem appendRec_room {s : State} (h : journalFree s.journal ≠ 0) (typ : Nat) (rep : Bool) (body : List Byte) :
    (appendRec typ rep body s).journal.recs = s.journal.recs ++ [recordOf typ body s.journal] ∧
    (appendRec typ rep body s).journal.head = s.journal.head + 1 ∧
    (appendRec typ rep body s).journal.chain = (recordOf typ body s.journal).chain := by
  unfold appendRec
  rw [if_neg h]
  dsimp only
  split <;> simp [recordOf]

/-- Settles O21: the journal without room is a fatal event, and with room the record is appended. -/
theorem journalRecordsChain : Obligations.JournalRecordsChain := by
  refine ⟨fun typ rep body s hfree hsafe => ?_, fun typ rep body s hfree => ?_⟩
  · obtain ⟨hlatch, hcause, -⟩ := fatal_latch 30 (resId 0x18 0) [] s
    rw [appendRec_noRoom hfree]
    exact ⟨hlatch, (hcause hsafe).1, (fatal_frame ..).2.2.1, faultN_of_safe hlatch⟩
  · obtain ⟨hrecs, hhead, hchain⟩ := appendRec_room hfree typ rep body
    exact ⟨recordOf typ body s.journal, rfl, rfl, rfl, rfl, hrecs, hhead, hchain, by simp [sameDevice], by simp⟩

/-! ### Fatal reports -/

/-- A report that crosses the bridge, its burst counted, changes the bridge's counters and a pseudo-channel only. -/
theorem countBurst_reportCross (src resource : Nat) (s : State) :
    (countBurst src resource (reportCross resource s)).faults = s.faults ∧ (countBurst src resource (reportCross resource s)).mem = s.mem ∧
    (countBurst src resource (reportCross resource s)).counters = s.counters ∧
    (countBurst src resource (reportCross resource s)).tables = s.tables ∧ (countBurst src resource (reportCross resource s)).ports = s.ports := by
  unfold countBurst reportCross bridgeCross
  (repeat' split) <;> simp

/-- A report of a fatal source drives the safe state (R436). -/
theorem report_fatal {src resource : Nat} {s : State} (detail : List Byte) (hrun : running s = true) (hkind : resKind resource = sourceKind src)
    (hvalid : resValid resource = true) (hclass : sourceClass src = some 2) :
    report src resource detail s = fatal src resource detail (countBurst src resource (reportCross resource s)) := by
  have hlane : src ≠ 3 := by rintro rfl; exact absurd hclass (by decide)
  simp [report, hclass, hrun, hkind, hvalid, hlane]

/-- Settles O51: the report is fatal, and counting its burst changes no latch. -/
theorem fatalEventsLatchTheirCause : Obligations.FatalEventsLatchTheirCause := by
  intro src resource detail s t hrun hkind hvalid hclass hexec
  have hreport := report_fatal detail hrun hkind hvalid hclass
  obtain ⟨hsafe, hfirst, hkept⟩ := fatal_latch src resource detail (countBurst src resource (reportCross resource s))
  obtain ⟨hfaults, hmem, hcounters, htables, hports⟩ := countBurst_reportCross src resource s
  obtain rfl : settled s (report src resource detail s) = t := by
    simpa [exec, execFaultReport, answer] using hexec
  rw [hfaults] at hfirst hkept
  rw [hreport]
  exact ⟨hsafe, faultN_of_safe hsafe, by simp [settled, hmem], by simp [settled, hcounters], by simp [settled, htables],
    by simp [settled, hports], hfirst, hkept⟩

end Sys2Proof.Machine

/-! PROOFS. Reset, device memory, and the rings that dumps write (01, R3, R362, R416 to R418). -/

namespace Sys2Proof.Machine

/-! ### Reset -/

/-- Settles O6: every clause is read off the reset state. -/
theorem resetLeavesTheBlockIdle : Obligations.ResetLeavesTheBlockIdle := by
  refine ⟨rfl, rfl, rfl, rfl, rfl, rfl, rfl, rfl, rfl, fun p => ?_, fun k => rfl, ?_, ?_, rfl, rfl⟩
  · rfl
  · decide
  · decide

/-! ### Device memory -/

/-- The first cell of a canonical memory is the lowest address that reads other than 0. -/
theorem Memory.read_head {c : Host.Cell} {m : List Host.Cell} : Memory.read (c :: m) c.1 = c.2 := by
  simp [Memory.read]

/-- Past its first cell a memory reads as its rest. -/
theorem Memory.read_tail {c : Host.Cell} {m : List Host.Cell} {k : Nat} (h : k ≠ c.1) :
    Memory.read (c :: m) k = Memory.read m k := by
  simp [Memory.read, Ne.symm h]

/-- Canonical memories that read alike start at the same address. -/
theorem Memory.head_le {c d : Host.Cell} {m n : List Host.Cell} (hc : Memory.wf (c :: m) = true) (hd : Memory.wf (d :: n) = true)
    (hread : ∀ k, Memory.read (c :: m) k = Memory.read (d :: n) k) : d.1 ≤ c.1 := by
  refine Nat.le_of_not_lt fun hlt => ?_
  obtain ⟨hz, -⟩ := (Memory.wf_iff _).mp hc
  obtain ⟨-, hp⟩ := (Memory.wf_iff _).mp hd
  have hbelow : Memory.read (d :: n) c.1 = 0 := by
    refine Memory.read_below fun x hx => ?_
    rcases List.mem_cons.mp hx with rfl | hx
    · omega
    · have := (List.pairwise_cons.mp hp).1 x hx
      omega
  rw [← hread, Memory.read_head] at hbelow
  exact hz c (List.mem_cons_self ..) hbelow

/-- The rest of a canonical memory is canonical and reads 0 at the address of its first cell. -/
theorem Memory.wf_cons {c : Host.Cell} {m : List Host.Cell} (h : Memory.wf (c :: m) = true) :
    Memory.wf m = true ∧ Memory.read m c.1 = 0 := by
  obtain ⟨hz, hp⟩ := (Memory.wf_iff _).mp h
  obtain ⟨hlt, hp⟩ := List.pairwise_cons.mp hp
  exact ⟨(Memory.wf_iff _).mpr ⟨fun x hx => hz x (List.mem_cons_of_mem _ hx), hp⟩, Memory.read_below hlt⟩

/-- A canonical memory with a cell reads other than 0 somewhere. -/
theorem Memory.ne_zero_head {c : Host.Cell} {m : List Host.Cell} (h : Memory.wf (c :: m) = true) :
    Memory.read (c :: m) c.1 ≠ 0 := by
  rw [Memory.read_head]
  exact ((Memory.wf_iff _).mp h).1 c (List.mem_cons_self ..)

/-- Canonical memories are determined by what they read. -/
theorem Memory.ext {m n : List Host.Cell} (hm : Memory.wf m = true) (hn : Memory.wf n = true)
    (hread : ∀ k, Memory.read m k = Memory.read n k) : m = n := by
  induction m generalizing n with
  | nil =>
    cases n with
    | nil => rfl
    | cons d n => exact absurd (hread d.1).symm (Memory.ne_zero_head hn)
  | cons c m ih =>
    cases n with
    | nil => exact absurd (hread c.1) (Memory.ne_zero_head hm)
    | cons d n =>
      have haddr : c.1 = d.1 := Nat.le_antisymm (Memory.head_le hn hm fun k => (hread k).symm) (Memory.head_le hm hn hread)
      have hbyte : c.2 = d.2 := by
        have := hread c.1
        rwa [Memory.read_head, haddr, Memory.read_head] at this
      obtain ⟨hm', hm0⟩ := Memory.wf_cons hm
      obtain ⟨hn', hn0⟩ := Memory.wf_cons hn
      have hrest : m = n := ih hm' hn' fun k => by
        by_cases hk : k = c.1
        · rw [hk, hm0, haddr, hn0]
        · rw [← Memory.read_tail hk, hread k, Memory.read_tail (haddr ▸ hk)]
      rw [hrest, Prod.ext haddr hbyte]

/-- Settles O56: what was written reads back, every other byte stays, and canonical memories are told apart by their bytes. -/
theorem memoryHoldsWhatIsWritten : Obligations.MemoryHoldsWhatIsWritten :=
  ⟨fun m a bs h => ⟨Memory.wf_writes bs a h, Memory.reads_writes bs m a h, fun k hk => Memory.read_writes_outside bs m a k hk⟩,
    fun _ _ hm hn hread => Memory.ext hm hn hread⟩

/-! ### Cluster dumps -/

@[simp] theorem leBytes_length (n v : Nat) : (leBytes n v).length = n := by
  induction n generalizing v with
  | zero => rfl
  | succ n ih => simp [leBytes, ih]

/-- Lists of one length, one after the other. -/
theorem length_flatten_map {α : Type} {f : Nat → List α} {k : Nat} (hf : ∀ i, (f i).length = k) (l : List Nat) :
    (l.map f).flatten.length = l.length * k := by
  induction l with
  | nil => simp only [List.map_nil, List.flatten_nil, List.length_nil, Nat.zero_mul]
  | cons a l ih => simp only [List.map_cons, List.flatten_cons, List.length_append, List.length_cons, hf, ih, Nat.add_mul, Nat.one_mul, Nat.add_comm]

/-- The record of a core is 128 bytes. -/
theorem coreRecord_length (s : State) (p c : Nat) : (coreRecord s p c).length = 128 := by
  simp only [coreRecord, List.length_append, leBytes_length, length_flatten_map (fun i => leBytes_length 8 _), List.length_range, List.length_cons, List.length_nil]

/-- The records of the cores of a cluster fill 4,096 bytes. -/
theorem coreRecords_length (s : State) (p cl : Nat) :
    ((List.range 32).map (fun i => coreRecord s p (i + cl * 32))).flatten.length = 4096 := by
  rw [length_flatten_map (fun i => coreRecord_length s p (i + cl * 32)), List.length_range]

/-- A core that has been recorded is no longer marked as reset since. -/
def clearMark (s : State) (c : Nat) : State :=
  if (coreOf s c).resetSince then modCore c (fun x => { x with resetSince := false }) s else s

/-- The records of a period in memory, the reservations they meet dropped, and the marks of the cores cleared. -/
def dumpCores (cl base p : Nat) (s : State) : State :=
  ((List.range 32).map (· + cl * 32)).foldl clearMark (dropReservations 512 base 4096
    { s with mem := Memory.writes s.mem base (((List.range 32).map (fun i => coreRecord s p (i + cl * 32))).flatten) })

/-- A mark changes the cores only. -/
@[simp] theorem clearMark_frame (s : State) (c : Nat) :
    (clearMark s c).mem = s.mem ∧ (clearMark s c).tahr.clusters = s.tahr.clusters ∧
    (clearMark s c).buf = s.buf ∧ (clearMark s c).tables = s.tables := by
  unfold clearMark
  split
  · exact ⟨rfl, rfl, rfl, rfl⟩
  · exact ⟨rfl, rfl, rfl, rfl⟩

/-- Clearing marks changes the cores only. -/
theorem clearMarks_frame (cores : List Nat) (s : State) :
    (cores.foldl clearMark s).mem = s.mem ∧ (cores.foldl clearMark s).tahr.clusters = s.tahr.clusters ∧
    (cores.foldl clearMark s).buf = s.buf ∧ (cores.foldl clearMark s).tables = s.tables :=
  ⟨foldl_keeps (·.mem) clearMark (fun s c => (clearMark_frame s c).1) cores s,
    foldl_keeps (·.tahr.clusters) clearMark (fun s c => (clearMark_frame s c).2.1) cores s,
    foldl_keeps (·.buf) clearMark (fun s c => (clearMark_frame s c).2.2.1) cores s,
    foldl_keeps (·.tables) clearMark (fun s c => (clearMark_frame s c).2.2.2) cores s⟩

/-- A write that drops the reservations it meets changes memory and threads only. -/
theorem dropReservations_frame (t d n : Nat) (m : List Host.Cell) (s : State) :
    (dropReservations t d n { s with mem := m }).mem = m ∧
    (dropReservations t d n { s with mem := m }).tahr.clusters = s.tahr.clusters ∧
    (dropReservations t d n { s with mem := m }).buf = s.buf ∧
    (dropReservations t d n { s with mem := m }).tables = s.tables := ⟨rfl, rfl, rfl, rfl⟩

/-- The records of a period stand in memory; clusters, buffers and tables stay. -/
theorem dumpCores_frame (cl base p : Nat) (s : State) :
    (dumpCores cl base p s).mem = Memory.writes s.mem base (((List.range 32).map (fun i => coreRecord s p (i + cl * 32))).flatten) ∧
    (dumpCores cl base p s).tahr.clusters = s.tahr.clusters ∧ (dumpCores cl base p s).buf = s.buf ∧
    (dumpCores cl base p s).tables = s.tables := by
  unfold dumpCores
  obtain ⟨hmem, hcl, hbuf, htab⟩ := clearMarks_frame ((List.range 32).map (· + cl * 32)) (dropReservations 512 base 4096
    { s with mem := Memory.writes s.mem base (((List.range 32).map (fun i => coreRecord s p (i + cl * 32))).flatten) })
  rw [hmem, hcl, hbuf, htab]
  exact dropReservations_frame ..

/-- A dump that is due of a cluster writes its slot, or counts in MISSED where its memory is lost (R362). -/
theorem exec_tahrDump {cl : Nat} {s : State} (hon : trafficOn s = true) (hcl : cl < 2) (hdest : (clusterOf s cl).dumpDest ≠ 0)
    (hdue : (clusterOf s cl).dumpAt + ((clusterOf s cl).dumpNext + 1) * (clusterOf s cl).dumpPeriod * 1000 ≤ s.time.uptime) :
    exec (.tahrDump cl) s = .next (settled s (
      let x := clusterOf s cl
      let base := dumpRange cl x + x.dumpNext % x.dumpDepth * 4096
      if (if x.dumpDest = 1 then isFenced s (resId 0x11 cl) else someLost s base 4096) then
        modCluster cl (fun y => { y with dumpNext := x.dumpNext + 1, missed := (y.missed + 1) % 2 ^ 16 }) s
      else modCluster cl (fun y => { y with dumpNext := x.dumpNext + 1, lastSeq := x.dumpNext % 2 ^ 32 })
        (dumpCores cl base x.dumpNext s))) := by
  have hbefore : ¬ s.time.uptime < (clusterOf s cl).dumpAt + ((clusterOf s cl).dumpNext + 1) * (clusterOf s cl).dumpPeriod * 1000 :=
    Nat.not_lt.mpr hdue
  change execTahrDump cl s = _
  unfold execTahrDump answer
  simp [hon, hdest, hbefore, Nat.not_le.mpr hcl]
  rfl

/-- Changing a cluster answers the changed cluster. -/
@[simp] theorem clusterOf_modCluster (c : Nat) (f : Cluster → Cluster) (s : State) :
    clusterOf (modCluster c f s) c = f (clusterOf s c) := by
  simp [clusterOf, modCluster, mmod]

/-- What a step is settled to leaves clusters as they are. -/
@[simp] theorem clusterOf_settled (s t : State) (c : Nat) : clusterOf (settled s t) c = clusterOf t c := rfl

/-- Settles O46: the 32 records of 128 bytes are the slot, and every other part of a dump leaves memory alone. -/
theorem clusterDumpsStayInTheirSlot : Obligations.ClusterDumpsStayInTheirSlot := by
  rintro cl base x s hon hcl rfl hdest hdue rfl
  rw [exec_tahrDump hon hcl hdest hdue]
  refine ⟨fun hlost => ?_, fun hkept => ?_⟩
  · rw [if_pos hlost]
    rfl
  · rw [if_neg (by simp [hkept])]
    obtain ⟨hmem, hclusters, hbuf, htab⟩ :=
      dumpCores_frame cl (dumpRange cl (clusterOf s cl) + (clusterOf s cl).dumpNext % (clusterOf s cl).dumpDepth * 4096) (clusterOf s cl).dumpNext s
    generalize dumpCores cl (dumpRange cl (clusterOf s cl) + (clusterOf s cl).dumpNext % (clusterOf s cl).dumpDepth * 4096)
      (clusterOf s cl).dumpNext s = u at hmem hclusters hbuf htab ⊢
    refine ⟨_, rfl, hmem, fun a ha => ?_, by simp, by simp, hbuf, htab⟩
    show Memory.read u.mem a = _
    rw [hmem]
    exact Memory.read_writes_outside _ _ _ _ (by rwa [coreRecords_length])

/-! ### Dump frames -/

/-- Stream 1 to host memory, without a section, whose first frame is due. -/
def streaming : State := { Tests.up with dumps := [(1, { dest := 2 })] }

/-- Refutes O55: a capture keeps the header it wrote, so that DUMP_FRAME_WRITTEN can write it again with its SEQ; the statement leaves the header of the stream as it was. -/
theorem not_dumpFramesStayInTheirSlot : ¬ Obligations.DumpFramesStayInTheirSlot := by
  intro h
  obtain ⟨-, hhost, -⟩ := h.1 1 0 { dest := 2 } streaming (by decide) (by decide) (by decide) (by decide) (by decide)
  obtain ⟨t, ht, -, -, -, hdump, -⟩ := hhost rfl rfl (by decide)
  have hheader : (mgetD (Tests.after (exec (.dumpCapture 1) streaming) streaming).dumps 1 {}).header.length = 64 := by decide
  rw [ht] at hheader
  simp [Tests.after, mgetD, hdump] at hheader

end Sys2Proof.Machine

/-! PROOFS. The events of the mailbox (R33 to R37, R62). -/

namespace Sys2Proof.Machine

/-! ### Doorbells and ring resets -/

theorem bitsOf_eq_zero {v hi lo : Nat} (h : v < 2 ^ lo) : bitsOf v hi lo = 0 := by simp [bitsOf, Nat.div_eq_of_lt h]

theorem bit_eq_false {v i : Nat} (h : v < 2 ^ i) : bit v i = false := Nat.testBit_lt_two_pow h

/-- The ring of a path that takes a doorbell: running, not asleep, and its slice running. -/
structure RingAnswers (p : Path) (k : Nat) (s : State) : Prop where
  running : running s = true
  key : ringKey p = some k
  notSerial : k ≠ 4
  notDebug : k ≠ 6
  awake : pathAsleep p s = false
  slice : 0x1000 ≤ k → (mgetD s.host.slices (k - 0x1000) {}).state = 1

/-- The slice of a ring that takes a doorbell is neither absent nor on its way out. -/
theorem RingAnswers.slice_running {p : Path} {k : Nat} {s : State} (h : RingAnswers p k s) :
    (decide (0x1000 ≤ k) && (mgetD s.host.slices (k - 0x1000) {}).state == 0) = false ∧
    (decide (0x1000 ≤ k) && (mgetD s.host.slices (k - 0x1000) {}).state != 1) = false := by
  by_cases hk : 0x1000 ≤ k
  · simp [h.slice hk]
  · simp [hk]

/-- A doorbell of a running ring whose PRODUCER is ahead, by no more than the ring holds, advances it (R35). -/
theorem doorbell_advances {p : Path} {k v ahead : Nat} {s : State} (hring : RingAnswers p k s) (hstate : (mbRing s k).state = 1)
    (hv : v < 2 ^ 13) (hm : v < 2 * (mbRing s k).size) (hmoved : v ≠ (mbRing s k).producer)
    (hdef : ahead = (v + 2 * (mbRing s k).size - (mbRing s k).consumer % (2 * (mbRing s k).size)) % (2 * (mbRing s k).size))
    (hahead : (mbRing s k).posted < ahead) (hroom : ahead ≤ (mbRing s k).size) :
    doorbell p v s = modRing k (fun r' => { r' with
      producer := v, waits := r'.waits ++ List.replicate (ahead - r'.posted) s.time.uptime }) s := by
  have hbit : bit v 63 = false := bit_eq_false (by omega)
  obtain ⟨habsent, hleaving⟩ := hring.slice_running
  obtain ⟨hrun, hkey, h4, h6, hawake, -⟩ := hring
  have hlow : ¬ 2 * (mbRing s k).size ≤ v := Nat.not_le.mpr hm
  have hnear : ¬ ahead ≤ (mbRing s k).posted := Nat.not_le.mpr hahead
  have hfits : ¬ (mbRing s k).size < ahead := Nat.not_lt.mpr hroom
  simp only [doorbell, hkey, habsent, hleaving, Nat.mod_eq_of_lt hv, ← hdef, bitsOf_eq_zero hv, hbit]
  simp [h4, h6, hrun, hawake, hstate, hmoved, hlow, hnear, hfits]

/-- A write with RING_RESET to a halted ring empties it and sets it running (R37). -/
theorem doorbell_resets {p : Path} {k v : Nat} {s : State} (hring : RingAnswers p k s) (hstate : (mbRing s k).state = 2)
    (hv : v < 2 ^ 13) : doorbell p (v % 2 ^ 63 + 2 ^ 63) s = ringReset p k s := by
  obtain ⟨habsent, hleaving⟩ := hring.slice_running
  obtain ⟨hrun, hkey, h4, h6, hawake, -⟩ := hring
  have hmod : v % 2 ^ 63 = v := Nat.mod_eq_of_lt (by omega)
  have hbits : bitsOf (v + 2 ^ 63) 62 13 = 0 := by simp only [bitsOf]; omega
  have hbit : bit (v + 2 ^ 63) 63 = true := by
    simp only [bit, Nat.testBit_eq_decide_div_mod_eq, decide_eq_true_eq]
    omega
  simp only [doorbell, hkey, habsent, hleaving, hmod, hbits, hbit]
  simp [h4, h6, hrun, hawake, hstate]

/-! ### Fetches -/

/-- A ring whose entry is fetched: not the serial or the debug one, with work, and no entry held. -/
structure RingFetches (p : Path) (k : Nat) (s : State) : Prop where
  key : ringKey p = some k
  notSerial : k ≠ 4
  notDebug : k ≠ 6
  ready : mailboxReady s = true
  work : hasWork s k = true
  free : (mbRing s k).fetched = none

/-- A fetch of a ring whose turn it is, or again of one that failed, reads its next entry (R33, R34). -/
theorem fetchRing_fetches {p : Path} {k : Nat} {f : Fetched} {s : State} (h : RingFetches p k s) (retry : Bool)
    (hturn : retry = false → ringTurn k s = true) (htries : retry = true → (mbRing s k).tries ≠ 0) :
    fetchRing retry p f s = fetchEntry p k f s := by
  obtain ⟨hkey, h4, h6, hready, hwork, hfree⟩ := h
  have hpath : p ≠ .serial ∧ p ≠ .debug :=
    ⟨fun hp => h4 (by simpa [hp, ringKey, eq_comm] using hkey), fun hp => h6 (by simpa [hp, ringKey, eq_comm] using hkey)⟩
  obtain ⟨hserial, hdebug⟩ := hpath
  unfold fetchRing
  cases retry
  · simp [hkey, hready, hwork, hfree, hturn]
  · simp [hkey, hready, hwork, hfree, htries]

/-- Either row of a fetch, under its own condition, reads the ring's next entry. -/
theorem exec_mailboxFetch {p : Path} {k : Nat} {f : Fetched} {s : State} {i : Instr} (h : RingFetches p k s)
    (hi : i ∈ [Instr.mailboxFetch p f, Instr.mbFetchRetry p f]) (hturn : i = .mailboxFetch p f → ringTurn k s = true)
    (htries : i = .mbFetchRetry p f → (mbRing s k).tries ≠ 0) : exec i s = .next (settled s (fetchEntry p k f s)) := by
  simp only [List.mem_cons, List.not_mem_nil, or_false] at hi
  rcases hi with rfl | rfl
  · rw [← fetchRing_fetches h false (fun _ => hturn rfl) nofun]
    rfl
  · rw [← fetchRing_fetches h true nofun (fun _ => htries rfl)]
    rfl

/-- An entry with the phase of its index, readable and held by nothing, is dispatched. -/
theorem fetchEntry_dispatches {p : Path} {k : Nat} {e : List Byte} {f : Fetched} {s : State} (h4 : k ≠ 4)
    (hentry : (if (mbRing s k).resident then some (pageEntry s) else f.entry) = some e)
    (hphase : phaseMatches (mbRing s k) (u8 e 47) = true) (hread : unreadable (parseEntry p e f.buffer f.writable).2 = none)
    (hfree : mustHold (parseEntry p e f.buffer f.writable).1 (parseEntry p e f.buffer f.writable).2 s = false) :
    fetchEntry p k f s = dispatch (parseEntry p e f.buffer f.writable).1 (parseEntry p e f.buffer f.writable).2
      (modRing k (fun r => { r with tries := 0, fetched := none }) (noteDispatch p s)) := by
  simp [fetchEntry, dispatchOrHold, hentry, hphase, hread, hfree, h4]

/-- An entry with the other phase is one more try. -/
theorem fetchEntry_tries {p : Path} {k : Nat} {e : List Byte} {f : Fetched} {s : State}
    (hentry : (if (mbRing s k).resident then some (pageEntry s) else f.entry) = some e)
    (hphase : phaseMatches (mbRing s k) (u8 e 47) = false) (htries : (mbRing s k).tries < 15) :
    fetchEntry p k f s = modRing k (fun r => { r with tries := r.tries + 1 }) s := by
  have : ¬ 16 ≤ (mbRing s k).tries + 1 := by omega
  simp only [fetchEntry, hentry, hphase, this]
  rfl

/-- The sixteenth try with the other phase halts the ring. -/
theorem fetchEntry_halts {p : Path} {k : Nat} {e : List Byte} {f : Fetched} {s : State}
    (hentry : (if (mbRing s k).resident then some (pageEntry s) else f.entry) = some e)
    (hphase : phaseMatches (mbRing s k) (u8 e 47) = false) (htries : 15 ≤ (mbRing s k).tries) :
    fetchEntry p k f s = haltMbRing k 1 s := by
  simp [fetchEntry, hentry, hphase, htries]

/-! ### The debug port -/

/-- MBOX_ADDR sets the word address (R62). -/
theorem exec_mboxAddr (v : Nat) {s : State} (hrun : running s = true) :
    exec (.mboxAddr v) s = .next (settled s { s with mgt.dbgAddr := v % 2 ^ 16 }) := by
  change execMboxAddr v s = _
  rw [execMboxAddr, if_pos hrun]
  rfl

/-- MBOX_DATA reads the word at the address, and a read of word 0 in state 2 takes the completion (R62). -/
theorem exec_mboxDataCapture {s : State} (hrun : running s = true) :
    exec .mboxDataCapture s = .next (settled s (emit (.data (dbgRead s s.mgt.dbgAddr)) { s with
      mgt.dbgShift := dbgRead s s.mgt.dbgAddr, mgt.dbgAddr := (s.mgt.dbgAddr + 1) % 2 ^ 16,
      mgt.dbgState := if s.mgt.dbgAddr = 0 ∧ s.mgt.dbgState = 2 ∧ s.boot.restarting = false then 0 else s.mgt.dbgState })) := by
  change execMboxDataCapture s = _
  rw [execMboxDataCapture, if_pos hrun]
  by_cases htake : s.mgt.dbgAddr = 0 ∧ s.mgt.dbgState = 2 ∧ s.boot.restarting = false
  · obtain ⟨haddr, hstate, hrestart⟩ := htake
    simp [emit, dbgAdvance, answer, haddr, hstate, hrestart]
  · rw [if_neg htake]
    dsimp only
    split
    · rename_i hcond
      simp only [Bool.and_eq_true, decide_eq_true_eq, Bool.not_eq_true'] at hcond
      obtain ⟨⟨haddr, hstate⟩, hrestart⟩ := hcond
      exact absurd ⟨haddr, hstate, hrestart⟩ htake
    · rfl

/-- MBOX_DATA writes a word of the entry (R62). -/
theorem exec_mboxDataUpdate_word (v : Nat) {s : State} (hrun : running s = true) (haddr : s.mgt.dbgAddr < 136) :
    exec (.mboxDataUpdate v) s = .next (settled s { s with
      mgt.dbgWords := mput s.mgt.dbgWords s.mgt.dbgAddr (v % 2 ^ 64), mgt.dbgAddr := s.mgt.dbgAddr + 1 }) := by
  have hnext : (s.mgt.dbgAddr + 1) % 2 ^ 16 = s.mgt.dbgAddr + 1 := Nat.mod_eq_of_lt (by omega)
  change execMboxDataUpdate v s = _
  rw [execMboxDataUpdate, if_pos hrun]
  simp only [haddr, if_true, dbgAdvance, hnext]
  rfl

/-- The write of word 0x0FFF posts the entry (R62). -/
theorem exec_mboxDataUpdate_post (v : Nat) {s : State} (hrun : running s = true) (haddr : s.mgt.dbgAddr = 0xFFF)
    (hstate : s.mgt.dbgState ≠ 1) (hpost : s.mgt.dbgPost = false) :
    exec (.mboxDataUpdate v) s = .next (settled s { s with
      mgt.dbgPost := true, mgt.dbgAddr := 0x1000, mgt.dbgState := if s.boot.restarting then s.mgt.dbgState else 1 }) := by
  change execMboxDataUpdate v s = _
  rw [execMboxDataUpdate, if_pos hrun]
  cases hrestart : s.boot.restarting <;> simp [haddr, dbgAdvance, dbgPostEntry, hpost, hstate, hrestart, answer]

/-- A write past the entry only moves the address on (R62). -/
theorem exec_mboxDataUpdate_past (v : Nat) {s : State} (hrun : running s = true) (hlow : 136 ≤ s.mgt.dbgAddr)
    (haddr : s.mgt.dbgAddr ≠ 0xFFF) :
    exec (.mboxDataUpdate v) s = .next (settled s { s with mgt.dbgAddr := (s.mgt.dbgAddr + 1) % 2 ^ 16 }) := by
  change execMboxDataUpdate v s = _
  rw [execMboxDataUpdate, if_pos hrun]
  simp only [Nat.not_lt.mpr hlow, haddr, if_false]
  rfl

/-- Settles O18: each event by the lemma on its ring, the debug port by the word its address names. -/
theorem mailboxEventsTakeEffect : Obligations.MailboxEventsTakeEffect := by
  refine ⟨?_, ?_, ?_, fun v s hrun => exec_mboxAddr v hrun, fun s hrun => exec_mboxDataCapture hrun, fun v s hrun =>
    ⟨exec_mboxDataUpdate_word v hrun, exec_mboxDataUpdate_post v hrun, exec_mboxDataUpdate_past v hrun⟩⟩
  · rintro p k v s r hrun hkey h4 h6 hawake hslice rfl hstate hv hm hmoved hahead hroom
    rw [← doorbell_advances ⟨hrun, hkey, h4, h6, hawake, hslice⟩ hstate hv hm hmoved rfl hahead hroom]
    rfl
  · rintro p k v s u hrun hkey h4 h6 hawake hslice hstate hv rfl
    change Host.Outcome.next (settled s (doorbell p (v % 2 ^ 63 + 2 ^ 63) s)) = _
    rw [doorbell_resets ⟨hrun, hkey, h4, h6, hawake, hslice⟩ hstate hv]
    rfl
  · rintro p k e f q s hkey h4 h6 hready hwork hfree hentry rfl i hi hturn htries
    rw [exec_mailboxFetch ⟨hkey, h4, h6, hready, hwork, hfree⟩ hi hturn htries]
    refine ⟨fun hphase hread hhold => ?_, fun hphase hfew => ?_, fun hphase hmany => ?_⟩
    · rw [fetchEntry_dispatches h4 hentry hphase hread hhold]
    · rw [fetchEntry_tries hentry hphase hfew]
    · rw [fetchEntry_halts hentry hphase hmany]
      rfl

end Sys2Proof.Machine

/-! PROOFS. The events of transactions, epochs and the journal (R66 to R84, R90 to R93, R318). -/

namespace Sys2Proof.Machine

/-! ### Acknowledgements on the pair link -/

/-- Taking a message acknowledges it; of the pair's state only the numbers of its classes and the bond move. -/
@[simp] theorem pairTaken_keeps (cls : Nat) (s : State) :
    running (pairTaken cls s) = running s ∧ (pairTaken cls s).mgt = s.mgt ∧ (pairTaken cls s).pair.link = s.pair.link ∧
    (pairTaken cls s).pair.role = s.pair.role ∧ (pairTaken cls s).pair.ackedSeq = s.pair.ackedSeq := by
  unfold pairTaken
  split
  · simp
  · simp [pairEmit, bondNext, running]

/-! ### Commits -/

/-- A waiting commit that nothing makes wait any more runs. -/
theorem exec_commitResume_runs {id : Nat} {k : Commit} {s : State} (hfind : s.mgt.commits.find? (fun k => k.id == id) = some k)
    (hready : mailboxReady s = true) (hack : k.ackSeq = none) (hwriting : k.writing = false) (hwaiting : k.waiting = true)
    (hfree : mustWait k.ops s = false) : exec (.commitResume id) s = .next (settled s (peerSettle (runCommit k s))) := by
  change execCommitResume id s = _
  simp [execCommitResume, hfind, hready, hack, hwriting, hwaiting, hfree, answer]

/-- Phase A ends at the commit point where no unit is fenced and what its pass found can be placed. -/
theorem endPhaseA_commits {k : Commit} {p : PlacedOp} {s : State} (hfence : fencedIndex k.ops (restoreEntries k s) = none)
    (hplace : placeAll false k.ops (restoreEntries k s) = .ok p) :
    endPhaseA k s = commitPoint { k with writing := false, before := [] } p (ingressPkts (restoreEntries k s)) (restoreEntries k s) := by
  simp [endPhaseA, hfence, hplace]

/-- A commit in phase A goes on to the end of phase A. -/
theorem exec_commitResume_phaseA {id : Nat} {k : Commit} {s : State} (hfind : s.mgt.commits.find? (fun k => k.id == id) = some k)
    (hready : mailboxReady s = true) (hack : k.ackSeq = none) (hwriting : k.writing = true) :
    exec (.commitResume id) s = .next (settled s (peerSettle (endPhaseA k s))) := by
  change execCommitResume id s = _
  simp [execCommitResume, hfind, hready, hack, hwriting, answer]

/-- A commit that waits for an acknowledgement of a standby that is gone completes without it. -/
theorem exec_commitResume_alone {id seq : Nat} {k : Commit} {s : State} (hfind : s.mgt.commits.find? (fun k => k.id == id) = some k)
    (hready : mailboxReady s = true) (hack : k.ackSeq = some seq) (hgone : s.pair.link = 0 ∨ s.pair.peerRole ≠ 3 ∨ s.pair.role ≠ 4) :
    exec (.commitResume id) s = .next (settled s (peerSettle (answerCommit { k with recs := [] } seq
      { s with mgt.commits := s.mgt.commits.filter (fun x => x.id != id) }))) := by
  have hpair : (s.pair.link != 0 && s.pair.peerRole == 3 && s.pair.role == 4) = false := by
    simp only [Bool.and_eq_false_iff, bne_eq_false_iff_eq, beq_eq_false_iff_ne]
    exact or_assoc.mpr hgone
  change execCommitResume id s = _
  simp only [execCommitResume, hfind, hready, hack, hpair, answer]
  rfl

/-- Phase B of a commit past its commit point applies what waited for the packets under way (R70). -/
theorem exec_phaseB {id : Nat} {k : Commit} {s : State} (hfind : s.mgt.commits.find? (fun k => k.id == id) = some k)
    (hready : mailboxReady s = true) (hwaiting : k.waiting = false) (hwriting : k.writing = false) (hack : k.ackSeq = none)
    (hgone : k.behind.any (ingressPkts s).contains = false) :
    exec (.phaseB id) s = .next (settled s (peerSettle (finishCommit k (k.deferred.foldl (fun s d => applyDeferred d s) s)))) := by
  change execPhaseB id s = _
  simp only [execPhaseB, hfind, hready, hwaiting, hwriting, hack, hgone, answer]
  rfl

/-- An acknowledgement that no completion waits for only moves the acknowledged SEQ (R318). -/
theorem exec_commitAck_none {seq : Nat} {s : State} (hrun : running s = true) (hlink : s.pair.link ≠ 0) (hrole : s.pair.role = 4)
    (hnone : s.mgt.commits.all (fun k => k.ackSeq.isNone) = true) :
    exec (.commitAck seq) s = .next (settled s { pairTaken 3 s with pair.ackedSeq := max s.pair.ackedSeq seq }) := by
  have hnone' : ∀ k ∈ s.mgt.commits, k.ackSeq = none := fun k hk => by simpa using List.all_eq_true.mp hnone k hk
  change execCommitAck seq s = _
  unfold execCommitAck
  simp only [pairTaken_keeps, hrun, hlink, hrole]
  change answer s (List.foldl _ _ (s.mgt.commits.filter _)) = _
  rw [List.filter_eq_nil_iff.mpr fun k hk => ?_]
  · rfl
  · rw [hnone' k hk]
    exact Bool.false_ne_true

/-- An acknowledgement completes the commit that waits for it (R318). -/
theorem exec_commitAck_one {seq q : Nat} {k : Commit} {s : State} (hrun : running s = true) (hlink : s.pair.link ≠ 0)
    (hrole : s.pair.role = 4) (hone : s.mgt.commits = [k]) (hack : k.ackSeq = some q) (hq : q ≤ seq) :
    exec (.commitAck seq) s = .next (settled s (answerCommit { k with recs := [] } q
      { pairTaken 3 s with pair.ackedSeq := max s.pair.ackedSeq seq, mgt.commits := [] })) := by
  change execCommitAck seq s = _
  simp [execCommitAck, hrun, hlink, hrole, hone, hack, hq, answer]

/-! ### Tombstones -/

/-- A tombstone that is due goes, and every one of another kind, table or index stays (R84). -/
theorem exec_tombstoneExpiry {kind table index : Nat} {b : Tomb} {s : State} (hrun : running s = true) (hb : b ∈ s.mgt.tombs)
    (hkind : b.kind = kind) (htable : b.table = table) (hindex : b.index = index) (hdue : b.at_ + b.limit ≤ s.time.uptime) :
    ∃ t : State, exec (.tombstoneExpiry kind table index) s = .next t ∧ b ∉ t.mgt.tombs ∧
      (∀ d ∈ s.mgt.tombs, (d.kind ≠ kind ∨ d.table ≠ table ∨ d.index ≠ index) → d ∈ t.mgt.tombs) ∧ t.mem = s.mem ∧ t.ports = s.ports := by
  subst hkind htable hindex
  have hany : s.mgt.tombs.any (fun d => d.kind == b.kind && d.table == b.table && d.index == b.index &&
      decide (d.at_ + d.limit ≤ s.time.uptime)) = true := List.any_eq_true.mpr ⟨b, hb, by simp [hdue]⟩
  have hgone : b ∉ s.mgt.tombs.filter (fun d => !(d.kind == b.kind && d.table == b.table && d.index == b.index &&
      decide (d.at_ + d.limit ≤ s.time.uptime))) := by simp [List.mem_filter, hdue]
  have hstay : ∀ d ∈ s.mgt.tombs, (d.kind ≠ b.kind ∨ d.table ≠ b.table ∨ d.index ≠ b.index) →
      d ∈ s.mgt.tombs.filter (fun d => !(d.kind == b.kind && d.table == b.table && d.index == b.index &&
        decide (d.at_ + d.limit ≤ s.time.uptime))) := by
    intro d hd hother
    simp only [List.mem_filter, hd, Bool.not_eq_true', Bool.and_eq_false_iff, beq_eq_false_iff_ne, true_and]
    exact .inl (or_assoc.mpr hother)
  change ∃ t, execTombstoneExpiry b.kind b.table b.index s = .next t ∧ _
  simp only [execTombstoneExpiry, hrun, hany, answer, Bool.not_true, Bool.or_self, Bool.false_eq_true, if_false]
  refine ⟨_, rfl, ?_⟩
  (repeat' split) <;> exact ⟨hgone, hstay, rfl, rfl⟩

/-- Settles O19: each event by the lemma on what it finds. -/
theorem transactionEventsTakeEffect : Obligations.TransactionEventsTakeEffect := by
  refine ⟨?_, fun id k s hfind hready => ⟨exec_commitResume_runs hfind hready, ?_, fun seq hack hgone =>
    exec_commitResume_alone hfind hready hack hgone⟩, ?_, ?_, ?_, fun id k s hfind hready hwaiting hwriting hack hgone =>
    exec_phaseB hfind hready hwaiting hwriting hack hgone, fun kind table index b s hrun hb hkind htable hindex hdue =>
    exec_tombstoneExpiry hrun hb hkind htable hindex hdue, fun seq s hrun hlink hrole =>
    ⟨exec_commitAck_none hrun hlink hrole, fun k q hone hack hq => exec_commitAck_one hrun hlink hrole hone hack hq⟩⟩
  · intro t x s hx hready hstate hidle
    change execTxnIdleTimeout t s = _
    simp [execTxnIdleTimeout, hx, hready, hstate, hidle, answer]
  · rintro hack hwriting u p rfl hfence hplace
    rw [exec_commitResume_phaseA hfind hready hack hwriting, endPhaseA_commits hfence hplace]
  · intro s hrun hnone
    change execEpochRetire false s = _
    simp only [execEpochRetire, hrun, hnone, answer]
    rfl
  · intro s hrun hnone
    change execEpochRetire true s = _
    simp only [execEpochRetire, hrun, hnone, answer]
    rfl
  · intro tag s hrun hcur hlive hheld
    change execEpochDrain tag s = _
    simp [execEpochDrain, hrun, hcur, hlive, hheld, answer]

/-! ### The journal -/

/-- Settles O20: each event under its condition. -/
theorem journalEventsTakeEffect : Obligations.JournalEventsTakeEffect := by
  refine ⟨?_, ?_, ?_, ?_⟩
  · intro t i r b s hfind hold
    change execBatchClose t i r s = _
    simp [execBatchClose, hfind, hold, answer]
  · intro s hready hdue
    change execCheckpoint s = _
    simp [execCheckpoint, hready, hdue, answer]
  · rintro seq c s hfind hready hsram hroom u rfl
    change execSignature seq s = _
    simp only [execSignature, hfind, hready, hsram, Nat.not_lt.mpr hroom, answer, decide_false, Bool.not_true, Bool.or_self,
      Bool.false_eq_true, if_false, bootNo]
  · intro at_ object rest s hpending hready
    change execLinkStateRecord s = _
    simp [execLinkStateRecord, hpending, hready, answer]

end Sys2Proof.Machine

/-! PROOFS. The events of the ports (R101 to R126). -/

namespace Sys2Proof.Machine

/-! ### Ports -/

@[simp] theorem portOf_modPort_self (p : Nat) (f : Port → Port) (s : State) : portOf (modPort p f s) p = f (portOf s p) := by
  simp [portOf, modPort, mmod]

@[simp] theorem portOf_settled (s t : State) (p : Nat) : portOf (settled s t) p = portOf t p := rfl

@[simp] theorem portOf_noteLink (o : Nat) (s : State) (p : Nat) : portOf (noteLink o s) p = portOf s p := rfl

theorem portOf_modPort_other {p q : Nat} (f : Port → Port) (s : State) (h : q ≠ p) : portOf (modPort p f s) q = portOf s q := by
  simp [portOf, modPort, mmod, mgetD_mset_other _ _ _ (Ne.symm h)]

/-- A bit that is cleared reads false. -/
theorem bit_withBit_false (v i : Nat) : bit (withBit v i false) i = false := by
  cases h : bit v i with
  | false => simp [withBit, h]
  | true =>
    have hset : v / 2 ^ i % 2 = 1 := by simpa [bit, Nat.testBit_eq_decide_div_mod_eq] using h
    have hclear : (v - 2 ^ i) / 2 ^ i = v / 2 ^ i - 1 := by simpa using Nat.sub_mul_div v (2 ^ i) 1
    rw [withBit, if_neg (by simp [h]), if_neg Bool.false_ne_true, bit, Nat.testBit_eq_decide_div_mod_eq, hclear,
      decide_eq_false_iff_not]
    omega

/-! ### Reception -/

/-- A frame of a port that is no framed one, or that was adapted, is not dropped as unadapted. -/
theorem framed_and_not_adapted {f : RxFrame} {p : Port} (h : isFramed p = true → f.adapted = true) :
    (isFramed p && !f.adapted) = false := by
  cases hp : isFramed p
  · rfl
  · simp [h hp]

theorem exec_frameReceive (f : RxFrame) (s : State) : exec (.frameReceive f) s = .next (settled s (frameReceive f s)) := rfl

/-- Settles O22: each clause is one of the tests, the ones before it passed. -/
theorem framesAreStagedOrCounted : Obligations.FramesAreStagedOrCounted := by
  rintro f s v hrec hadapt hroom rfl hpipe
  have hframed := framed_and_not_adapted hadapt
  rw [exec_frameReceive]
  unfold frameReceive
  refine ⟨fun hfec => ?_, fun hfec hlen => ?_, fun hfec hlen hmax => ?_, fun hfec hlen hmax hfcs => ?_,
    fun hfec hlen hmax hfcs htype r u hsec => ?_⟩
  · simp [hrec, hframed, hroom, hpipe, hfec]
  · simp [hrec, hframed, hroom, hpipe, hfec, hlen]
  · simp [hrec, hframed, hroom, hpipe, hfec, Nat.not_lt.mpr hlen, hmax]
  · simp [hrec, hframed, hroom, hpipe, hfec, Nat.not_lt.mpr hlen, Nat.not_lt.mpr hmax, hfcs]
  · simp [hrec, hframed, hroom, hpipe, hfec, Nat.not_lt.mpr hlen, Nat.not_lt.mpr hmax, hfcs, htype, hsec]

/-! ### Pause -/

/-- The end of a pause of a priority. -/
theorem pausePrio_end (port prio : Nat) (s : State) : pausePrio port prio 0 s = modPort port (fun p => { p with
    rxPaused := withBit p.rxPaused prio false, pauseEnd := mdel p.pauseEnd prio, pausedSince := mdel p.pausedSince prio }) s := rfl

/-- Settles O23: each event under its condition changes its port alone. -/
theorem pauseEventsTakeEffect : Obligations.PauseEventsTakeEffect := by
  refine ⟨?_, ?_, ?_, ?_, ?_⟩
  · intro port bs s hrec htype
    change execPauseFrame port bs s = _
    simp [execPauseFrame, hrec, htype, answer]
  · intro port prio s hprio hflow hpaused hdue
    refine ⟨settled s (pausePrio port prio 0 s), ?_, ?_, fun q hq => ?_, ?_, ?_⟩
    · change execPauseExpiry port prio s = _
      simp [execPauseExpiry, hprio, hflow, hpaused, hdue, answer]
    · show bit (portOf (pausePrio port prio 0 s) port).rxPaused prio = false
      rw [pausePrio_end, portOf_modPort_self]
      exact bit_withBit_false _ _
    · show portOf (pausePrio port prio 0 s) q = _
      rw [pausePrio_end, portOf_modPort_other _ _ hq]
    · rfl
    · rfl
  · intro port prio s hprio hoff hdue
    change execXoffRepeat port prio s = _
    simp [execXoffRepeat, hprio, hoff, hdue, answer]
  · intro port prio at_ s hon hsince hflow hms hlink hstorm hdue
    refine ⟨settled s (noteLink port (modPort port (fun p => { p with storm := withBit p.storm prio true, stormSince := mset p.stormSince prio s.time.uptime })
          (pausePrio port prio 0 s))), ?_, ?_, ?_, ?_, ?_⟩
    · change execStorm port prio s = _
      simp [execStorm, hon, hsince, hflow, hms, hlink, hstorm, hdue, answer]
    · simp [pausePrio_end]
    · rfl
    · rfl
    · rfl
  · intro port prio at_ s hsince hdue
    refine ⟨settled s (noteLink port (modPort port (fun p => { p with storm := withBit p.storm prio false, stormSince := mdel p.stormSince prio }) s)),
      ?_, ?_, ?_, ?_, ?_⟩
    · change execStormEnd port prio s = _
      simp [execStormEnd, hsince, hdue, answer]
    · simp
    · rfl
    · rfl
    · rfl

/-! ### Links -/

/-- Settles O24: each event under its condition. -/
theorem linkEventsTakeEffect : Obligations.LinkEventsTakeEffect := by
  refine ⟨?_, ?_, ?_, ?_, ?_, ?_, ?_⟩
  · intro port c s hrun hport
    change execPortFailure port c s = _
    simp [execPortFailure, hrun, hport, answer]
  · intro port s hrun hport
    change execLinkGood port s = _
    simp [execLinkGood, hrun, hport, answer]
  · intro port h s hrun hsince hlink hdue
    change execHoldTime port s = _
    simp [execHoldTime, hrun, hsince, hlink, hdue, answer]
  · intro port at_ s hrun hsince hgood hdue
    refine ⟨fun hlink => ?_, fun h hlink hhold hearly => ?_, fun h hlink hhold hlate => ?_⟩
    · change execUpDelay port s = _
      simp [execUpDelay, hrun, hsince, hgood, hlink, Nat.not_lt.mpr hdue, answer]
    · change execUpDelay port s = _
      simp [execUpDelay, hrun, hsince, hgood, hlink, Nat.not_lt.mpr hdue, hhold, Nat.not_le.mpr hearly, answer]
    · change execUpDelay port s = _
      simp [execUpDelay, hrun, hsince, hgood, hlink, Nat.not_lt.mpr hdue, hhold, hlate, answer]
  · intro g at_ s hrun hwait hdue hactive hlive
    change execWaitToRestore g s = _
    simp [execWaitToRestore, hrun, hwait, hdue, hactive, hlive, answer]
  · intro port declared s hrun hframed henabled
    constructor
    · change execFramedDefect port .los declared s = _
      simp [execFramedDefect, hrun, hframed, henabled, answer]
    · change execFramedDefect port .lof declared s = _
      simp [execFramedDefect, hrun, hframed, henabled, answer]
  · intro port f tti s hrun hf hframed henabled hlos hlof
    refine ⟨fun hnew => ?_, fun hsame hfew => ?_, fun hsame hmany => ?_⟩
    · change execTtiMultiframe port tti s = _
      simp [execTtiMultiframe, hrun, hf, hframed, henabled, hlos, hlof, hnew, answer]
    · have hcount : min ((portOf s port).ttiSeen.2 + 1) 3 = (portOf s port).ttiSeen.2 + 1 := by omega
      have hfew' : (portOf s port).ttiSeen.2 + 1 < 3 := by omega
      change execTtiMultiframe port tti s = _
      simp only [execTtiMultiframe, hrun, hf, hframed, henabled, hlos, hlof, hsame, if_true, hcount, hfew', answer]
      rfl
    · have hcount : min ((portOf s port).ttiSeen.2 + 1) 3 = 3 := by omega
      have hmany' : ¬ (portOf s port).ttiSeen.2 + 1 < 3 := by omega
      change execTtiMultiframe port tti s = _
      simp only [execTtiMultiframe, hrun, hf, hframed, henabled, hlos, hlof, hsame, if_true, hcount, hmany', answer]
      rfl

end Sys2Proof.Machine

/-! PROOFS. The events of the ingress path and of the packet buffer (R27, R199 to R246). -/

namespace Sys2Proof.Machine

/-! ### Ingress -/

/-- A visit of a packet that waits for its next stage. -/
theorem stageVisit_visits {n : Nat} {k : Pkt} {s : State} (hk : mget s.pkts n = some k) (hon : trafficOn s = true)
    (hpipe : pktPipeOk k s = true) (hready : k.ready = false) (hstage : k.stage < (if k.egress then 8 else 16)) :
    stageVisit n s =
      let e := entering n k s
      let u := dc1Packet n s
      let r := if isFinal e then (e, u)
        else visitStage (stageOf (pktBank e u) (if e.egress then 16 + e.stage else e.stage)) (pktBank e u) e u
      { r.2 with pkts := mset r.2.pkts n { r.1 with stage := e.stage + 1 } } := by
  simp only [stageVisit, hk, hon, hpipe, hready, Nat.not_le.mpr hstage]
  rfl

/-- A packet that may leave the last ingress stage is decided (R207). -/
theorem endOfIngress_decides {n : Nat} {k k' : Pkt} {s u : State} (hk : mget s.pkts n = some k) (hon : trafficOn s = true)
    (hegress : k.egress = false) (hready : k.ready = false) (hstage : 16 ≤ k.stage) (horder : behindEarlier n k s = false)
    (hcredit : bridgeOn s = true → dc0Credit s = true) (hdecide : decide207 k s = (k', u)) :
    endOfIngress n s = if k'.group.isSome || hasCopies k' then sendDc0 n k' u else { u with pkts := mdel u.pkts n } := by
  have hbridge : (bridgeOn s && !dc0Credit s) = false := by
    cases h : bridgeOn s
    · rfl
    · simp [hcredit h]
  simp [endOfIngress, hk, hon, hegress, hready, Nat.not_lt.mpr hstage, horder, hbridge, hdecide]

/-- Offering a frame to a sampler changes the samplers, the counters and the free values only. -/
@[simp] theorem offerSampler_frame (k : Nat) (s : State) :
    (offerSampler k s).2.mem = s.mem ∧ (offerSampler k s).2.tables = s.tables ∧ (offerSampler k s).2.ports = s.ports ∧
    (offerSampler k s).2.journal = s.journal ∧ (offerSampler k s).2.nextPkt = s.nextPkt ∧ (offerSampler k s).2.mgt = s.mgt := by
  unfold offerSampler reloadSampler
  dsimp only
  (repeat' split) <;> simp

/-- The sampler of a header changes the samplers, the counters and the free values only. -/
@[simp] theorem sampleMeta_frame (k : Nat) (m : List Byte) (s : State) :
    (sampleMeta k m s).2.mem = s.mem ∧ (sampleMeta k m s).2.tables = s.tables ∧ (sampleMeta k m s).2.ports = s.ports ∧
    (sampleMeta k m s).2.journal = s.journal ∧ (sampleMeta k m s).2.nextPkt = s.nextPkt ∧ (sampleMeta k m s).2.mgt = s.mgt := by
  have hoffer := offerSampler_frame k s
  unfold sampleMeta
  split
  case h_1 u heq => rwa [heq] at hoffer
  case h_2 u heq =>
    rw [heq] at hoffer
    split
    · simpa using hoffer
    · exact hoffer

/-- A header enters its pipeline as the packet of the next number (R27). -/
theorem enterHeader_enters (source pl : Nat) (a : Arrival) (s : State) :
    ∃ k : Pkt, mget (enterHeader source pl a s).pkts s.nextPkt = some k ∧ (enterHeader source pl a s).nextPkt = s.nextPkt + 1 ∧
      k.frame = a.bytes ∧ k.source = source ∧ k.pipe = pl ∧ k.tag = s.mgt.curTag ∧ k.egress = false ∧ k.ready = false ∧
      (enterHeader source pl a s).mem = s.mem ∧ (enterHeader source pl a s).tables = s.tables ∧
      (enterHeader source pl a s).ports = s.ports ∧ (enterHeader source pl a s).journal = s.journal := by
  by_cases hnet : source < 192
  · by_cases hparse : (parse s.bank.parser source (a.bytes.take 512)).status = 0 <;> simp [enterHeader, hnet, hparse]
  · by_cases hparse : (parse s.bank.parser source (a.bytes.take 512)).status = 0 <;> simp [enterHeader, hnet, hparse]

/-- Taking an arrival changes the staging buffers and the injections only. -/
theorem takeArrival_frame {source pl : Nat} {a : Arrival} {s u : State} (h : takeArrival source pl s = some (a, u)) :
    u.mem = s.mem ∧ u.tables = s.tables ∧ u.ports = s.ports ∧ u.journal = s.journal ∧ u.nextPkt = s.nextPkt ∧ u.mgt = s.mgt := by
  unfold takeArrival at h
  (repeat' split at h) <;> cases h <;> exact ⟨rfl, rfl, rfl, rfl, rfl, rfl⟩

/-- Settles O25: entry, visit, decision and arrival, each by its lemma. -/
theorem ingressEventsTakeEffect : Obligations.IngressEventsTakeEffect := by
  refine ⟨?_, ?_, ?_, ?_⟩
  · intro source pl a s u hon hpipe hadmit hslot hsource htake
    obtain ⟨hmem, htab, hports, hjournal, hnext, hmgt⟩ := takeArrival_frame htake
    obtain ⟨k, hk, hnum, hframe, hsrc, hpl, htag, hegress, hready, hmem', htab', hports', hjournal'⟩ := enterHeader_enters source pl a u
    refine ⟨settled s (enterHeader source pl a u), k, ?_, ?_, ?_, hframe, hsrc, hpl, ?_, hegress, hready, hmem'.trans hmem,
      htab'.trans htab, hports'.trans hports, hjournal'.trans hjournal⟩
    · change answer s (parserEntry source pl s) = _
      simp [parserEntry, hon, hpipe, hadmit, hslot, hsource, htake, answer]
    · rw [← hnext]
      exact hk
    · rw [← hnext]
      exact hnum
    · rw [htag, hmgt]
  · rintro n k s hk hon hpipe hready hstage e rfl
    change (isFinal _ = true → answer s (stageVisit n s) = _) ∧ (_ → ∀ k' u, _ → answer s (stageVisit n s) = _)
    rw [stageVisit_visits hk hon hpipe hready hstage]
    refine ⟨fun hfinal => ?_, fun hfinal k' u hvisit => ?_⟩
    · simp [hfinal, answer]
    · simp [hfinal, hvisit, answer]
  · rintro n k k' s u hk hon hegress hready hstage horder hcredit hdecide
    change (_ → answer s (endOfIngress n s) = _) ∧ (_ → _ → answer s (endOfIngress n s) = _)
    rw [endOfIngress_decides hk hon hegress hready hstage horder hcredit hdecide]
    refine ⟨fun hgoes => ?_, fun hgroup hcopies => ?_⟩
    · rw [if_pos (by simpa using hgoes)]
      rfl
    · simp [hgroup, hcopies, answer]
  · rintro m rest s u hon hbridge hdc0 rfl
    refine ⟨?_, ?_, ?_⟩
    · rintro tag rfl
      change answer s (voqEnqueue s) = _
      simp [voqEnqueue, hon, hbridge, hdc0, answer]
    · rintro n k rfl hk hcopy
      have hk' : mget (dc0Take rest s).pkts n = some k := hk
      change answer s (voqEnqueue s) = _
      simp [voqEnqueue, hon, hbridge, hdc0, hk', hcopy, answer]
      rfl
    · rintro n k x rfl hk hcopy
      have hk' : mget (dc0Take rest s).pkts n = some k := hk
      change answer s (voqEnqueue s) = _
      simp [voqEnqueue, hon, hbridge, hdc0, hk', hcopy, answer]
      rfl

end Sys2Proof.Machine

/-! PROOFS. The events of the packet buffer (R229, R241 to R246). -/

namespace Sys2Proof.Machine

/-! ### Reserves -/

/-- A key that rises above a canonical map's first is not before it. -/
theorem mget_of_lt {β : Type} {a k : Nat} {v : β} {m : NMap β} (h : mwf ((a, v) :: m) = true) (hk : k ≤ a) : mget m k = none := by
  induction m generalizing a v with
  | nil => rfl
  | cons p m ih =>
    obtain ⟨b, w⟩ := p
    simp only [mwf, Bool.and_eq_true, decide_eq_true_eq] at h
    obtain ⟨hlt, hrest⟩ := h
    rw [mget, if_neg (by omega)]
    exact ih hrest (by omega)

/-- In a canonical map a removed key is no longer listed. -/
theorem mget_mdel_self {β : Type} {m : NMap β} (h : mwf m = true) (k : Nat) : mget (mdel m k) k = none := by
  induction m with
  | nil => rfl
  | cons p m ih =>
    obtain ⟨a, v⟩ := p
    by_cases ha : a = k
    · rw [mdel, if_pos ha]
      exact mget_of_lt h (by omega)
    · rw [mdel, if_neg ha, mget, if_neg ha]
      refine ih ?_
      cases m with
      | nil => rfl
      | cons q m => exact (Bool.and_eq_true _ _ ▸ h).2

/-- A reserve that is set reads back. -/
theorem reserveOf_setReserve_self {s : State} (h : mwf s.buf.reserves = true) (a n : Nat) : reserveOf (setReserve a n s) a = n := by
  unfold setReserve reserveOf
  by_cases hn : n = 64
  · simp [hn, mgetD, mget_mdel_self h]
  · simp [hn]

/-- Setting a reserve leaves the others. -/
theorem reserveOf_setReserve_other {a b : Nat} (h : a ≠ b) (n : Nat) (s : State) : reserveOf (setReserve a n s) b = reserveOf s b := by
  unfold setReserve reserveOf
  by_cases hn : n = 64
  · simp [hn, mgetD, mget_mdel_other _ h]
  · simp [hn, mgetD_mset_other _ _ _ h]

@[simp] theorem reserveOf_settled (s t : State) (a : Nat) : reserveOf (settled s t) a = reserveOf t a := rfl

/-- One agent's turn of a refill (R229). -/
def refillAgent (s : State) (a : Nat) : State :=
  if reserveOf s a < 64 && 0 < sharedSegs s then setReserve a (reserveOf s a + 1) s else s

/-- A refill changes the reserves only. -/
theorem refillAgent_frame (s : State) (a : Nat) :
    (refillAgent s a).buf.heads = s.buf.heads ∧ (refillAgent s a).buf.bodies = s.buf.bodies ∧
    (refillAgent s a).buf.blocks = s.buf.blocks ∧ (refillAgent s a).counters = s.counters ∧ (refillAgent s a).mem = s.mem := by
  unfold refillAgent
  split <;> exact ⟨rfl, rfl, rfl, rfl, rfl⟩

theorem refillReserves_eq (s : State) : refillReserves s = (List.range 20).foldl refillAgent s := rfl

/-- The turns of the agents change the reserves only. -/
theorem refillReserves_frame (s : State) :
    (refillReserves s).buf.heads = s.buf.heads ∧ (refillReserves s).buf.bodies = s.buf.bodies ∧
    (refillReserves s).buf.blocks = s.buf.blocks ∧ (refillReserves s).counters = s.counters ∧ (refillReserves s).mem = s.mem := by
  rw [refillReserves_eq]
  exact ⟨foldl_keeps (·.buf.heads) refillAgent (fun s a => (refillAgent_frame s a).1) _ s,
    foldl_keeps (·.buf.bodies) refillAgent (fun s a => (refillAgent_frame s a).2.1) _ s,
    foldl_keeps (·.buf.blocks) refillAgent (fun s a => (refillAgent_frame s a).2.2.1) _ s,
    foldl_keeps (·.counters) refillAgent (fun s a => (refillAgent_frame s a).2.2.2.1) _ s,
    foldl_keeps (·.mem) refillAgent (fun s a => (refillAgent_frame s a).2.2.2.2) _ s⟩

/-- The turns of other agents leave a reserve. -/
theorem reserveOf_refillAgents (l : List Nat) (s : State) (b : Nat) (h : b ∉ l) :
    reserveOf (l.foldl refillAgent s) b = reserveOf s b := by
  induction l generalizing s with
  | nil => rfl
  | cons a l ih =>
    rw [List.foldl_cons, ih _ (List.not_mem_of_not_mem_cons h)]
    unfold refillAgent
    split
    · exact reserveOf_setReserve_other (List.ne_of_not_mem_cons h).symm _ s
    · rfl

/-- The first agent's reserve below 64 takes a segment that the shared store holds. -/
theorem reserveOf_refillReserves {s : State} (hwf : mwf s.buf.reserves = true) (hshared : 0 < sharedSegs s)
    (hlow : reserveOf s 0 < 64) : reserveOf (refillReserves s) 0 = reserveOf s 0 + 1 := by
  rw [refillReserves_eq, show List.range 20 = 0 :: (List.range 19).map (· + 1) from rfl, List.foldl_cons,
    reserveOf_refillAgents _ _ 0 (by simp)]
  simp only [refillAgent, hlow, hshared, decide_true, Bool.and_self, if_true]
  exact reserveOf_setReserve_self hwf 0 _

/-! ### Blocks -/

/-- Taking a block draws free values only. -/
theorem takeBlock_frame {s u : State} {b : Option Nat} (h : takeBlock s = (b, u)) :
    u.sched = s.sched ∧ u.buf = s.buf := by
  unfold takeBlock at h
  dsimp only at h
  split at h
  · rw [← (Prod.mk.inj h).2]
    exact ⟨rfl, rfl⟩
  · rw [← (Prod.mk.inj h).2]
    simp

/-- A tail whose first packet is in no fenced bank loses nothing to the fence (R245). -/
theorem dropFencedTail_none {q : QId} {h : Nat} {rest : List Nat} {s : State} (htail : (queueOf s q).tail = h :: rest)
    (hbank : inFencedBank s h = false) (n : Nat) : dropFencedTail q n s = s := by
  cases n with
  | zero => rfl
  | succ n => simp [dropFencedTail, htail, hbank]

/-- A tail that is due, whose pool allows a block, packs one (R241). -/
theorem packing_packs {q : QId} {b h : Nat} {rest : List Nat} {s u : State} (htail : (queueOf s q).tail = h :: rest)
    (hbank : inFencedBank s h = false) (hdue : 4064 ≤ tailOctets s (queueOf s q) ∨ (asRecord s h).enq + 2000 ≤ s.time.uptime)
    (hstopped : packingStopped s (qcfgOf s q).pool = false) (htake : takeBlock s = (some b, u)) :
    packing q s = packInto 64 q b 4064
      (modQueue q (fun x => { x with spill := x.spill ++ [b], spillSeq := (x.spillSeq + 1) % 2 ^ 32 })
        (modPool (asRecord u h).pool (fun p => { p with blocks := p.blocks + 1 })
          { u with buf.blocks := mset u.buf.blocks b { queue := q, seq := (queueOf s q).spillSeq, pool := (asRecord u h).pool, writing := true } })) := by
  have hpacks : packs q s = true := by simpa [packs, htail] using hdue
  simp [packing, hpacks, hstopped, dropFencedTail_none htail hbank, htail, htake]

/-- A queue is changed by what the change makes of it as it stands. -/
theorem modQueue_congr {q : QId} {f g : Queue → Queue} {s : State} (h : f (queueOf s q) = g (queueOf s q)) :
    modQueue q f s = modQueue q g s := by
  unfold modQueue mmod
  by_cases hq : q.egress
  · rw [queueOf, if_pos hq] at h
    simp only [if_pos hq, h]
  · rw [queueOf, if_neg hq] at h
    simp only [if_neg hq, h]

/-- Settles O26: the reserves by the turns of their agents, blocks and refill by the branch of the definition their conditions name. -/
theorem bufferEventsTakeEffect : Obligations.BufferEventsTakeEffect := by
  refine ⟨?_, ?_, ?_, ?_, ?_, ?_⟩
  · intro s hon hwf
    obtain ⟨hheads, hbodies, hblocks, hcounters, hmem⟩ := refillReserves_frame s
    have hreserve := reserveOf_refillReserves hwf
    have hexec : exec .reserveRefill s = .next (settled s (refillReserves s)) := by
      change execReserveRefill s = _
      rw [execReserveRefill, if_pos hon, answer]
    generalize refillReserves s = t at hexec hheads hbodies hblocks hcounters hmem hreserve
    exact ⟨settled s t, hexec, hheads, hbodies, hblocks, hcounters, hmem, hreserve⟩
  · intro q b h rest s u hon htail hbank hdue hstopped htake
    change execPacking q s = _
    have hqueue : queueOf u q = queueOf s q := by rw [queueOf, (takeBlock_frame htake).1, queueOf]
    rw [execPacking, if_pos hon, packing_packs htail hbank hdue hstopped htake, answer, modQueue_congr]
    rw [← hqueue]
    rfl
  · intro b k s hon hk hwriting
    change execBlockWriteComplete b s = _
    simp [execBlockWriteComplete, hon, hk, hwriting, answer]
  · intro q b rest s hon hspill hwritten hlow
    refine ⟨fun hends => ?_, fun l mids done u hgoes hlast hdone hu => ⟨fun hend => ?_, fun hend => ?_⟩⟩
    · change execRefill q s = _
      simp [execRefill, hon, refill, hspill, hwritten, Nat.not_le.mpr hlow, hends, answer]
    · change execRefill q s = _
      subst hdone hu
      simp only [execRefill, hon, refill, hspill, hwritten, Nat.not_le.mpr hlow, hgoes, hlast, hend,
        answer, decide_false, Bool.or_self, if_true, Bool.false_eq_true, if_false, Option.toList_some]
    · change execRefill q s = _
      subst hdone hu
      simp only [execRefill, hon, refill, hspill, hwritten, Nat.not_le.mpr hlow, hgoes, hlast, hend,
        answer, decide_false, Bool.or_self, if_true, Bool.false_eq_true, if_false, Option.toList_some]
  · intro s hon
    change execReclaimSweep s = _
    simp [execReclaimSweep, hon, answer]
  · intro q s hon hfull
    change execAgeScan q s = _
    simp [execAgeScan, hon, hfull, answer]

end Sys2Proof.Machine

/-! PROOFS. What the queues, the buffer store, the ports and their groups leave of the rest of the state. -/

namespace Sys2Proof.Machine

/-- The state without what queues, credit, buffers, ports, groups and the messages about them hold. -/
def beyondQueues (s : State) : State :=
  { s with
    ports := [], groups := [], counters := [], out := [], buf := State.reset.buf
    sched := { s.sched with voqs := [], eqs := [], targets := [] }
    fabric := { s.fabric with peers := [], spray := 0, floodSeq := 0 }
    journal := { s.journal with linkPending := [] }
    pair := { s.pair with bond := 0, txSeq := [], unacked := [], ports := [] } }

/-! ### The parts -/

@[simp] theorem beyondQueues_emit (o : Out) (s : State) : beyondQueues (emit o s) = beyondQueues s := rfl

@[simp] theorem beyondQueues_count (sec elem pos n : Nat) (s : State) : beyondQueues (count sec elem pos n s) = beyondQueues s := by
  simp [beyondQueues]

@[simp] theorem beyondQueues_modPort (p : Nat) (f : Port → Port) (s : State) : beyondQueues (modPort p f s) = beyondQueues s := rfl

@[simp] theorem beyondQueues_modPool (p : Nat) (f : Pool → Pool) (s : State) : beyondQueues (modPool p f s) = beyondQueues s := rfl

@[simp] theorem beyondQueues_modTarget (t : Nat) (f : Target → Target) (s : State) : beyondQueues (modTarget t f s) = beyondQueues s := rfl

@[simp] theorem beyondQueues_modPeer (d : Nat) (f : Peer → Peer) (s : State) : beyondQueues (modPeer d f s) = beyondQueues s := rfl

@[simp] theorem beyondQueues_modQueue (q : QId) (f : Queue → Queue) (s : State) : beyondQueues (modQueue q f s) = beyondQueues s := by
  unfold modQueue
  split <;> rfl

@[simp] theorem beyondQueues_freePkt (seg : Nat) (s : State) : beyondQueues (freePkt seg s) = beyondQueues s := by
  simp [beyondQueues]

@[simp] theorem beyondQueues_dropPkt (h sec elem pos : Nat) (s : State) : beyondQueues (dropPkt h sec elem pos s) = beyondQueues s := by
  simp [dropPkt]

@[simp] theorem beyondQueues_noteLink (o : Nat) (s : State) : beyondQueues (noteLink o s) = beyondQueues s := rfl

@[simp] theorem beyondQueues_pairEmit (cls n : Nat) (words : List Nat) (s : State) : beyondQueues (pairEmit cls n words s) = beyondQueues s := rfl

@[simp] theorem beyondQueues_pairSend (cls : Nat) (words : List Nat) (s : State) : beyondQueues (pairSend cls words s) = beyondQueues s := by
  unfold pairSend
  dsimp only
  (repeat' split) <;> rfl

/-! ### Credit -/

@[simp] theorem beyondQueues_sendCredit (d w : Nat) (s : State) : beyondQueues (sendCredit d w s) = beyondQueues s := rfl

@[simp] theorem beyondQueues_book (t d pos n : Nat) (s : State) : beyondQueues (book t d pos n s) = beyondQueues s := by
  simp [book]

@[simp] theorem beyondQueues_addRequest (t d v o : Nat) (s : State) : beyondQueues (addRequest t d v o s) = beyondQueues s := by
  unfold addRequest
  (repeat' split) <;> simp

@[simp] theorem beyondQueues_dropRequest (t d v o : Nat) (s : State) : beyondQueues (dropRequest t d v o s) = beyondQueues s := rfl

@[simp] theorem beyondQueues_returnCredit (v : Nat) (s : State) : beyondQueues (returnCredit v s) = beyondQueues s := by
  unfold returnCredit
  dsimp only
  (repeat' split) <;> simp

@[simp] theorem beyondQueues_voqSettle (v : Nat) (s : State) : beyondQueues (voqSettle v s) = beyondQueues s := by
  unfold voqSettle
  dsimp only
  (repeat' split) <;> simp

@[simp] theorem beyondQueues_depthRule (t : Nat) (s : State) : beyondQueues (depthRule t s) = beyondQueues s := by
  unfold depthRule
  dsimp only
  (repeat' split) <;> simp

/-! ### Queues -/

@[simp] theorem beyondQueues_joinTail (q : QId) (s : State) : beyondQueues (joinTail q s) = beyondQueues s := by
  unfold joinTail
  dsimp only
  split <;> simp

@[simp] theorem beyondQueues_joinIdle (q : QId) (s : State) : beyondQueues (joinIdle q s) = beyondQueues s := by
  unfold joinIdle
  dsimp only
  split <;> simp

@[simp] theorem beyondQueues_popHead (q : QId) (s : State) : beyondQueues (popHead q s) = beyondQueues s := by
  unfold popHead
  split <;> simp

@[simp] theorem beyondQueues_dropTooLong (e n : Nat) (s : State) : beyondQueues (dropTooLong e n s) = beyondQueues s := by
  induction n generalizing s with
  | zero => rfl
  | succ n ih =>
    unfold dropTooLong
    dsimp only
    (repeat' split) <;> simp [ih]

@[simp] theorem beyondQueues_qSettle (q : QId) (s : State) : beyondQueues (qSettle q s) = beyondQueues s := by
  unfold qSettle
  dsimp only
  (repeat' split) <;> simp

/-! ### Flushes -/

/-- A fold of steps that leave the rest of the state leaves it. -/
theorem beyondQueues_foldl {α : Type} (f : State → α → State) (h : ∀ s a, beyondQueues (f s a) = beyondQueues s) (l : List α) (s : State) :
    beyondQueues (l.foldl f s) = beyondQueues s := foldl_keeps beyondQueues f h l s

@[simp] theorem beyondQueues_dropSpill (q : QId) (s : State) : beyondQueues (dropSpill q s) = beyondQueues s := by
  unfold dropSpill
  simp only [beyondQueues_modQueue]
  refine beyondQueues_foldl _ (fun s b => ?_) _ _
  rw [beyondQueues_modPool]
  exact beyondQueues_foldl _ (fun s h => beyondQueues_freePkt h s) _ s

@[simp] theorem beyondQueues_flushQueue (q : QId) (sec elem pos : Nat) (s : State) :
    beyondQueues (flushQueue q sec elem pos s) = beyondQueues s := by
  unfold flushQueue
  dsimp only
  split
  · rfl
  · simp [beyondQueues_foldl]

@[simp] theorem beyondQueues_flushGroup (egress : Bool) (g : Nat) (c : Nat → Nat × Nat × Nat) (s : State) :
    beyondQueues (flushGroup egress g c s) = beyondQueues s :=
  beyondQueues_foldl _ (fun _ _ => beyondQueues_flushQueue ..) _ s

@[simp] theorem beyondQueues_flushPortQueues (port pos : Nat) (s : State) : beyondQueues (flushPortQueues port pos s) = beyondQueues s :=
  beyondQueues_foldl _ (fun _ _ => beyondQueues_flushGroup ..) _ s

@[simp] theorem beyondQueues_flushDestVoqs (kind device target : Nat) (s : State) :
    beyondQueues (flushDestVoqs kind device target s) = beyondQueues s :=
  beyondQueues_foldl _ (fun _ _ => beyondQueues_flushGroup ..) _ s

/-! ### Groups and the ports of the peer -/

@[simp] theorem beyondQueues_setActive (g a : Nat) (s : State) : beyondQueues (setActive g a s) = beyondQueues s := by
  unfold setActive
  dsimp only
  split <;> rfl

@[simp] theorem beyondQueues_settleWait (g : Nat) (s : State) : beyondQueues (settleWait g s) = beyondQueues s := by
  unfold settleWait
  dsimp only
  (repeat' split) <;> rfl

@[simp] theorem beyondQueues_settleGroups (s : State) : beyondQueues (settleGroups s) = beyondQueues s :=
  beyondQueues_foldl _ (fun _ _ => by simp) _ s

@[simp] theorem beyondQueues_applyPairPort (port st : Nat) (s : State) : beyondQueues (applyPairPort port st s) = beyondQueues s := by
  unfold applyPairPort
  dsimp only
  (repeat' split)
  · rfl
  · rw [beyondQueues_settleGroups, beyondQueues_flushDestVoqs]
    rfl
  · rw [beyondQueues_settleGroups]
    rfl

@[simp] theorem beyondQueues_pairPortsDown (s : State) : beyondQueues (pairPortsDown s) = beyondQueues s := by
  unfold pairPortsDown
  simp [beyondQueues_foldl]

end Sys2Proof.Machine

/-! PROOFS. The events of egress, of the gates and of the grants (R209, R263 to R275). -/

namespace Sys2Proof.Machine

/-- States that agree beyond their queues have the same gates, memory and tables. -/
theorem beyondQueues_gates {s t : State} (h : beyondQueues t = beyondQueues s) :
    t.sched.gates = s.sched.gates ∧ t.mem = s.mem ∧ t.tables = s.tables :=
  ⟨congrArg (·.sched.gates) h, congrArg (·.mem) h, congrArg (·.tables) h⟩

/-! ### Dequeue -/

/-- A sector that the bridge serves sends what its scheduler selects (R263). -/
theorem voqDequeue_sends {sector seg : Nat} {q : QId} {path : List (Nat × Child)} {rest : List Nat} {s u : State}
    (hon : trafficOn s = true) (hbridge : bridgeOn s = true) (hsector : sector < 8) (hfree : isFenced s (resId 0x12 sector) = false)
    (hsel : selectVoq sector s = (some (q, path), u)) (hhead : (queueOf u q).head = seg :: rest)
    (hdest : destLocal u (voqBindOf u (q.num / 8)) = true ∨ spraySet u ≠ []) :
    voqDequeue sector s = sendFromVoq q.num seg (voqBindOf u (q.num / 8)) (chargePath path (frameLen u seg) u) := by
  have hway : (!destLocal u (voqBindOf u (q.num / 8)) && (spraySet u).isEmpty) = false := by
    rcases hdest with h | h <;> simp [h]
  simp [voqDequeue, hon, hbridge, Nat.not_le.mpr hsector, hfree, hsel, hhead, hway]

/-- The state in which the packet that an egress target selects has left its queue. -/
def leftQueue (q : QId) (path : List (Nat × Child)) (seg : Nat) (u : State) : State :=
  qSettle q (popHead q (monEvent 3 q.num ((chargePath path (frameLen u seg) u).time.uptime -
    (mgetD (chargePath path (frameLen u seg) u).buf.heads seg {}).enq) (chargePath path (frameLen u seg) u)))

/-- An egress target that may send dequeues what its scheduler selects, for where its queue is bound (R270). -/
theorem egressDequeue_sends {target seg : Nat} {q : QId} {path : List (Nat × Child)} {rest : List Nat} {s u : State}
    (hon : trafficOn s = true) (htarget : target ≤ 193) (hbridge : bridgeOn s = true) (hcredit : target < 193 → dc1Credit s = true)
    (hsel : selectEgress target s = (some (q, path), u)) (hhead : (queueOf u q).head = seg :: rest) :
    egressDequeue target s =
      if inFencedBank (leftQueue q path seg u) seg then bankDrop seg (leftQueue q path seg u)
      else if (eqBindOf u (q.num / 8)).kind = 1 then toPort (eqBindOf u (q.num / 8)).target q.num seg (leftQueue q path seg u)
      else if (eqBindOf u (q.num / 8)).kind = 2 then toSlice (eqBindOf u (q.num / 8)).target q.num seg (leftQueue q path seg u)
      else toPair (eqBindOf u (q.num / 8)).target q.num seg (leftQueue q path seg u) := by
  have hcross : (decide (target < 193) && !dc1Credit s) = false := by
    by_cases h : target < 193
    · simp [hcredit h]
    · simp [h]
  simp only [egressDequeue, hon, Nat.not_lt.mpr htarget, hbridge, hcross, hsel, hhead]
  rfl

/-! ### The end of egress and transmission -/

/-- A packet past the last egress stage, its mirror copy sent, is dropped or ready (R209). -/
theorem endOfEgress_settles {n : Nat} {k : Pkt} {s v : State} (hk : mget s.pkts n = some k) (hon : trafficOn s = true)
    (hegress : k.egress = true) (hready : k.ready = false) (hstage : 8 ≤ k.stage)
    (hcopy : k.mirror = none ∧ v = s ∨ (bridgeOn s = true → dc0Credit s = true) ∧ (∃ x, k.mirror = some x ∧
      v = { sendDc0 s.nextPkt (egressMirrorPkt x k s) s with nextPkt := s.nextPkt + 1 })) :
    endOfEgress n s = if isFinal k then countDrop (12 + k.pipe) (u8 k.meta_ 69) (dropEgress n v)
      else if k.maxFrame < u16 k.meta_ 140 + 4 then countDrop (12 + k.pipe) 0x85 (dropEgress n v)
      else { v with pkts := mset v.pkts n { k with ready := true } } := by
  rcases hcopy with ⟨hnone, rfl⟩ | ⟨hcredit, x, hsome, rfl⟩
  · simp [endOfEgress, hk, hon, hegress, hready, Nat.not_lt.mpr hstage, hnone]
  · have hbridge : (bridgeOn s && !dc0Credit s) = false := by
      cases h : bridgeOn s
      · rfl
      · simp [hcredit h]
    simp [endOfEgress, hk, hon, hegress, hready, Nat.not_lt.mpr hstage, hsome, hbridge]

/-- What follows an emission at a port: its counters, its stamp and its transit time. -/
def afterEmission (port : Nat) (k : Pkt) (s : State) : State :=
  let s := count 0x02 port 1 (u16 k.meta_ 140) (count 0x02 port 0 1 s)
  let s := if gateOverrun port k s then count 0x02 port 8 1 s else s
  let s := if bit (u8 k.meta_ 248) 0 then logStamp port s.time.ntime (u16 k.meta_ 250) s else s
  recordTransit port k.meta_ s

@[simp] theorem recordTransit_frame (port : Nat) (m : List Byte) (s : State) :
    (recordTransit port m s).mem = s.mem ∧ (recordTransit port m s).tables = s.tables ∧ (recordTransit port m s).pkts = s.pkts ∧
    (recordTransit port m s).buf = s.buf ∧ (recordTransit port m s).sched = s.sched ∧ (recordTransit port m s).out = s.out := by
  unfold recordTransit
  (repeat' split) <;> simp

@[simp] theorem logStamp_frame (port ntime tsId : Nat) (s : State) :
    (logStamp port ntime tsId s).mem = s.mem ∧ (logStamp port ntime tsId s).tables = s.tables ∧ (logStamp port ntime tsId s).pkts = s.pkts ∧
    (logStamp port ntime tsId s).buf = s.buf ∧ (logStamp port ntime tsId s).sched = s.sched ∧ (logStamp port ntime tsId s).out = s.out := by
  simp [logStamp]

/-- What follows an emission changes counters, time stamps and monitors only. -/
theorem afterEmission_frame (port : Nat) (k : Pkt) (s : State) :
    (afterEmission port k s).mem = s.mem ∧ (afterEmission port k s).tables = s.tables ∧ (afterEmission port k s).pkts = s.pkts ∧
    (afterEmission port k s).buf = s.buf ∧ (afterEmission port k s).sched = s.sched ∧ (afterEmission port k s).out = s.out := by
  unfold afterEmission
  dsimp only
  (repeat' split) <;> simp

/-- A ready packet of a port that transmits is secured and emitted with its FCS (R114). -/
theorem transmit_emits {n : Nat} {k : Pkt} {bytes : List Byte} {secured : Bool} {s u : State} (hk : mget s.pkts n = some k)
    (hon : trafficOn s = true) (hegress : k.egress = true) (hready : k.ready = true)
    (henabled : (portOf (dropEgress n s) (u16 k.meta_ 128)).enabled = true)
    (hfault : faultAnswer (portOf (dropEgress n s) (u16 k.meta_ 128)) = 3)
    (hsec : macsecTx (u16 k.meta_ 128) (if k.frame.length < 60 then fit 60 k.frame else k.frame) (dropEgress n s) = (some (bytes, secured), u)) :
    transmit n s = afterEmission (u16 k.meta_ 128) k (emit (.frame (u16 k.meta_ 128) (withFcs bytes) secured) u) := by
  simp only [transmit, hk, hon, hegress, hready, henabled, hfault, hsec]
  rfl

/-- A change that is settled keeps what was put out. -/
theorem mem_out_settled {o : Out} {s t : State} (h : o ∈ t.out) : o ∈ (settled s t).out := List.mem_append_right _ h

/-- Settles O28: each event by its lemma, its clauses the branches of what it answers. -/
theorem egressEventsTakeEffect : Obligations.EgressEventsTakeEffect := by
  refine ⟨?_, ?_, ?_, ?_⟩
  · intro sector seg q path rest s u hon hbridge hsector hfree hsel hhead hdest
    change answer s (voqDequeue sector s) = _
    rw [voqDequeue_sends hon hbridge hsector hfree hsel hhead hdest, answer]
  · rintro target seg q path rest s u v hon htarget hbridge hcredit hsel hhead rfl
    change (_ → answer s (egressDequeue target s) = _) ∧ (_ → _ → answer s (egressDequeue target s) = _) ∧
      (_ → _ → answer s (egressDequeue target s) = _) ∧ (_ → _ → answer s (egressDequeue target s) = _)
    rw [egressDequeue_sends hon htarget hbridge hcredit hsel hhead, ← leftQueue]
    refine ⟨fun hbank => ?_, fun hbank hkind => ?_, fun hbank hkind => ?_, fun hbank hkind => ?_⟩
    · simp [hbank, answer]
    · simp [hbank, hkind, answer]
    · simp [hbank, hkind, answer]
    · simp [hbank, hkind, answer]
  · intro n k s v hk hon hegress hready hstage hcopy
    change (_ → answer s (endOfEgress n s) = _) ∧ (_ → _ → answer s (endOfEgress n s) = _) ∧ (_ → _ → answer s (endOfEgress n s) = _)
    rw [endOfEgress_settles hk hon hegress hready hstage hcopy]
    refine ⟨fun hfinal => ?_, fun hfinal hlong => ?_, fun hfinal hfits => ?_⟩
    · simp [hfinal, answer]
    · simp [hfinal, hlong, answer]
    · simp [hfinal, Nat.not_lt.mpr hfits, answer]
  · intro n k s hk hon hegress hready
    refine ⟨fun hoff => ?_, fun henabled hfault => ?_, fun bytes secured u henabled hfault hsec => ?_⟩
    · change answer s (transmit n s) = _
      simp [transmit, hk, hon, hegress, hready, hoff, answer]
    · change answer s (transmit n s) = _
      simp [transmit, hk, hon, hegress, hready, henabled, hfault, answer]
    · obtain ⟨hmem, htab, hpkts, hbuf, hsched, hout⟩ :=
        afterEmission_frame (u16 k.meta_ 128) k (emit (.frame (u16 k.meta_ 128) (withFcs bytes) secured) u)
      refine ⟨settled s (transmit n s), rfl, ?_⟩
      rw [transmit_emits hk hon hegress hready henabled hfault hsec]
      exact ⟨mem_out_settled (hout ▸ List.mem_cons_self ..), hmem, htab, hpkts, hbuf, hsched⟩

/-! ### Gates and grants -/

@[simp] theorem gateNow_lists (s : State) (g : Gate) : (gateNow s g).oper = g.oper ∧ (gateNow s g).admin = g.admin := by
  unfold gateNow
  dsimp only
  (repeat' split) <;> exact ⟨rfl, rfl⟩

/-- A list that starts is the operational one of its port's gate; every other gate, memory and the tables stay (R275). -/
theorem gateListStart_starts {port : Nat} {l : GateList} {s : State} (hrun : running s = true) (hadmin : (gateOf s port).admin = some l)
    (hstart : l.start ≤ s.time.ntime) :
    (gateListStart port s).sched.gates =
      (modGate port (fun g => gateNow s { g with admin := none, oper := some l, fitAdj := l.fitAdj }) s).sched.gates ∧
    (gateListStart port s).mem = s.mem ∧ (gateListStart port s).tables = s.tables := by
  have hdue : (decide (s.time.ntime < l.start) || !running s) = false := by simp [hrun, hstart]
  unfold gateListStart
  simp only [hadmin, hdue, Bool.false_eq_true, if_false]
  exact beyondQueues_gates (beyondQueues_foldl _ (fun s e => beyondQueues_qSettle ⟨true, e⟩ s) _ _)

/-- Settles O29: a list that starts by what the settling of the queues leaves, a grant by the branches of its definition. -/
theorem schedulingEventsTakeEffect : Obligations.SchedulingEventsTakeEffect := by
  refine ⟨?_, ?_, ?_⟩
  · intro port l s hrun hadmin hstart
    obtain ⟨hgates, hmem, htab⟩ := gateListStart_starts hrun hadmin hstart
    refine ⟨settled s (gateListStart port s), rfl, ?_, ?_, fun p hp => ?_, hmem, htab⟩
    · show (mgetD (gateListStart port s).sched.gates port {}).oper = _
      simp [hgates, modGate, mmod]
    · show (mgetD (gateListStart port s).sched.gates port {}).admin = _
      simp [hgates, modGate, mmod]
    · show mgetD (gateListStart port s).sched.gates p {} = _
      rw [hgates]
      simp [modGate, mmod, mgetD_mset_other _ _ _ (Ne.symm hp), gateOf]
  · intro port s hrun hoper
    change execGateAdvance port s = _
    simp [execGateAdvance, hrun, hoper, answer]
  · rintro n o best rest r u v s hon hn rfl hissues rfl hbest rfl hfind
    change answer s (grantIssue n s) = _
    simp only [grantIssue, hon, Nat.not_le.mpr hn, hissues, hbest, hfind]
    rfl

end Sys2Proof.Machine

/-! PROOFS. Takeover by a standby whose peer failed (R321, R322). -/

namespace Sys2Proof.Machine

/-! ### What the journal and the safe state leave of the pair -/

/-- The pair without what messages of the pair link and the safe state change. -/
def duties (p : Pair) : Pair := { p with bond := 0, txSeq := [], unacked := [], sentSeq := 0, actOut := false }

@[simp] theorem duties_pairSend (cls : Nat) (words : List Nat) (s : State) : duties (pairSend cls words s).pair = duties s.pair := by
  unfold pairSend
  dsimp only
  (repeat' split) <;> rfl

@[simp] theorem duties_enterSafe (source resource : Nat) (s : State) : duties (enterSafe source resource s).pair = duties s.pair := by
  unfold enterSafe
  dsimp only
  (repeat' split)
  · rfl
  · rw [duties_pairSend]
    simp [duties]
  · simp

@[simp] theorem duties_fatal (source resource : Nat) (d : List Byte) (s : State) : duties (fatal source resource d s).pair = duties s.pair := by
  unfold fatal
  dsimp only
  (repeat' split) <;> simp

@[simp] theorem duties_appendRec (typ : Nat) (rep : Bool) (body : List Byte) (s : State) :
    duties (appendRec typ rep body s).pair = duties s.pair := by
  unfold appendRec
  dsimp only
  split
  · simp
  · split
    · simp only [journalLevels_frame, duties_pairSend]
      rfl
    · simp

@[simp] theorem duties_appendCont (rep : Bool) (d : List Byte) (s : State) : duties (appendCont rep d s).pair = duties s.pair :=
  duties_appendRec ..

@[simp] theorem duties_storePayload (bs : List Byte) (s : State) : duties (storePayload bs s).2.pair = duties s.pair := rfl

@[simp] theorem duties_journalCmd (r : RecInfo) (s : State) : duties (journalCmd r s).2.pair = duties s.pair := by
  unfold journalCmd
  dsimp only
  (repeat' split)
  · simp
  · exact (foldl_keeps (fun s => duties s.pair) (fun s p => appendCont r.replicated p s) (fun s p => duties_appendCont _ p s) _ _).trans
      (duties_appendRec ..)
  · simp
  · simp

/-- The firmware's record of an event leaves the pair's duties. -/
@[simp] theorem duties_journalFw (opcode object resource : Nat) (s : State) :
    duties (journalFw opcode object resource s).2.pair = duties s.pair := duties_journalCmd _ s

/-- A change of role is one in effect (R312). -/
theorem changeRole_role {role arg : Nat} {s : State} : (changeRole role arg s).pair.role = role := by
  unfold changeRole
  split
  · assumption
  · rw [show (journalFw 0x0D00 arg (resId 0x1C 0) (setRole role s)).2.pair.role = (setRole role s).pair.role from
      congrArg (·.role) (duties_journalFw 0x0D00 arg (resId 0x1C 0) (setRole role s))]
    unfold setRole
    split
    · assumption
    · rfl

/-! ### The peer's ports -/

/-- What the ports of a failed peer leave of the pair, the commits and the journal. -/
theorem pairPortsDown_keeps (s : State) :
    (pairPortsDown s).pair.role = s.pair.role ∧ (pairPortsDown s).pair.actIn = s.pair.actIn ∧
    (pairPortsDown s).pair.received = s.pair.received ∧ (pairPortsDown s).pair.takeovers = s.pair.takeovers ∧
    (pairPortsDown s).mgt = s.mgt ∧ (pairPortsDown s).journal.head = s.journal.head ∧
    journalFree (pairPortsDown s).journal = journalFree s.journal := by
  have h := beyondQueues_pairPortsDown s
  exact ⟨congrArg (·.pair.role) h, congrArg (·.pair.actIn) h, congrArg (·.pair.received) h, congrArg (·.pair.takeovers) h,
    congrArg (·.mgt) h, congrArg (·.journal.head) h, congrArg (fun s => journalFree s.journal) h⟩

/-! ### Settling -/

/-- A member that takes no records and awaits no takeover has nothing to settle. -/
theorem peerSettle_idle {s : State} (hrole : s.pair.role = 4 ∨ s.pair.role = 5) : peerSettle s = s := by
  have happlies : applies s = false := by rcases hrole with h | h <;> simp [applies, h]
  have hdrain : drainPeer (s.pair.received.length + 1) s = s := by simp [drainPeer, happlies]
  unfold peerSettle
  rw [hdrain]
  rcases hrole with h | h
  · cases hs : s.pair.switchHead <;> simp [settleSwitch, h, hs]
  · cases hs : s.pair.switchHead <;> simp [settleSwitch, h, hs]

/-- While what was received is still being applied nothing is settled. -/
theorem peerSettle_busy {s : State} (hbusy : peerBusy s = true) : peerSettle s = s := by
  have hdrain : drainPeer (s.pair.received.length + 1) s = s := by simp [drainPeer, hbusy]
  unfold peerSettle
  rw [hdrain]
  cases hs : s.pair.switchHead <;> simp [settleSwitch, caughtUp, hbusy, hs]

/-! ### Takeover -/

/-- A marker with room is one record and leaves the pair. -/
theorem journalMarker_room {s : State} (h : journalFree s.journal ≠ 0) (cause arg : Nat) :
    (journalMarker cause arg s).journal.head = s.journal.head + 1 ∧ (journalMarker cause arg s).pair = s.pair := by
  refine ⟨(appendRec_room h ..).2.1, ?_⟩
  simp [journalMarker, appendRec, h]

/-- The member as it takes over, before its marker is written. -/
def takenOver (s : State) : State := setRole 4 (activeState { s with pair.syncPoint := none, pair.peerRole := 0 })

/-- A standby that takes over is ACTIVE with its ACT output high. -/
theorem takenOver_active {s : State} (hrole : s.pair.role = 3) :
    (takenOver s).pair.role = 4 ∧ (takenOver s).pair.actOut = true ∧ (takenOver s).pair.takeovers = s.pair.takeovers ∧
    (takenOver s).journal = s.journal := by
  simp [takenOver, setRole, activeState, hrole]

/-- A takeover with room for its marker makes the member ACTIVE, its ACT output high, TAKEOVERS one higher and the marker one record (R322). -/
theorem takeOverNow_takes {s : State} (hrole : s.pair.role = 3) (h : journalFree s.journal ≠ 0) :
    (takeOverNow s).pair.role = 4 ∧ (takeOverNow s).pair.actOut = true ∧
    (takeOverNow s).pair.takeovers = (s.pair.takeovers + 1) % 2 ^ 16 ∧ (takeOverNow s).journal.head = s.journal.head + 1 := by
  obtain ⟨hrole', hact, htaken, hjournal⟩ := takenOver_active hrole
  obtain ⟨hhead, hpair⟩ := journalMarker_room (s := takenOver s) (by rwa [hjournal]) 6 s.pair.appliedSeq
  refine ⟨?_, ?_, ?_, ?_⟩
  · exact (congrArg (·.role) hpair).trans hrole'
  · exact (congrArg (·.actOut) hpair).trans hact
  · exact congrArg (fun n => (n + 1) % 2 ^ 16) htaken
  · exact hhead.trans (congrArg (·.head + 1) hjournal)

/-- A standby whose peer failed goes on alone, its peer's ports down. -/
theorem peerFailed_standby {s : State} (hrole : s.pair.role = 3) : peerFailed s = standbyAlone (pairPortsDown s) := by
  simp only [peerFailed, (pairPortsDown_keeps s).1, hrole]

/-- Settles O35: one that sees ACT is ISOLATED, one that still applies waits, one that has nothing left takes over. -/
theorem standbyTakesOver : Obligations.StandbyTakesOver := by
  intro s t hrun henable hrole hlink hside hexec
  have hstep : exec .peerFailed s = .next (settled s (peerSettle (standbyAlone (pairPortsDown s)))) := by
    change execPeerFailed s = _
    simp [execPeerFailed, hrun, henable, hrole, hlink, hside, peerFailed_standby hrole, answer]
  obtain ⟨hrole', hact', hreceived, htakeovers, hmgt, hhead, hfree⟩ := pairPortsDown_keeps s
  rw [hstep] at hexec
  obtain rfl := Host.Outcome.next.inj hexec
  clear hstep hexec
  generalize pairPortsDown s = u at *
  refine ⟨fun hact => ?_, fun hact hbusy => ?_, fun hact hbusy hunit hroom => ?_⟩
  · have halone : (standbyAlone u).pair.role = 5 := by
      rw [standbyAlone, if_pos (hact'.trans hact)]
      exact changeRole_role
    rw [peerSettle_idle (.inr halone)]
    exact halone
  · have hbusy' : peerBusy u = true := by rw [peerBusy, hmgt]; exact hbusy
    have halone : standbyAlone u = { u with pair.takingOver := true } := by simp [standbyAlone, hact', hact, takeOver, hbusy']
    rw [halone, peerSettle_busy (s := { u with pair.takingOver := true }) hbusy']
    exact ⟨hrole'.trans hrole, rfl⟩
  · have hbusy' : peerBusy u = false := by rw [peerBusy, hmgt]; exact hbusy
    have hunit' : unitReceived u = false := by rw [unitReceived, hreceived]; exact hunit
    have halone : standbyAlone u = takeOverNow u := by simp [standbyAlone, hact', hact, takeOver, hbusy', hunit']
    obtain ⟨hactive, hout, hcount, hmarker⟩ := takeOverNow_takes (hrole'.trans hrole) (hfree ▸ hroom)
    rw [halone, peerSettle_idle (.inl hactive)]
    exact ⟨hactive, hout, htakeovers ▸ hcount, hhead ▸ hmarker⟩

end Sys2Proof.Machine

/-! PROOFS. The events of credit, cells, presence and lanes (R280 to R302, R306). -/

namespace Sys2Proof.Machine

/-! ### Credit messages -/

/-- A credit message of a present device is taken by its rule. -/
theorem onMsg_live {m : CreditMsg} {s : State} (h : creditLive m s = true) (f : CreditMsg → State → State) :
    onMsg f m s = .next (settled s (f m s)) := by
  rw [onMsg, if_pos h, answer]

/-- Settles O30: each message by its rule, the branches those its conditions name. -/
theorem creditMessagesTakeEffect : Obligations.CreditMessagesTakeEffect := by
  intro m s hlive
  refine ⟨⟨fun hnew hroom => ?_, fun hnew hfull => ?_⟩, ?_, ?_, ?_, ?_, ?_, ?_⟩
  · refine (onMsg_live hlive onRequest).trans ?_
    simp only [onRequest, addRequest, hnew, Nat.not_le.mpr hroom, Bool.false_eq_true, if_false]
  · refine (onMsg_live hlive onRequest).trans ?_
    simp only [onRequest, addRequest, hnew, hfull, Bool.false_eq_true, if_false, if_true]
  · exact onMsg_live hlive offRequest
  · rintro a k u rfl rfl hlow rfl
    refine ⟨fun hnone => (onMsg_live hlive onGrant).trans ?_, fun hlost => (onMsg_live hlive onGrant).trans ?_⟩
    · simp only [onGrant, hnone, show ¬ 2 ^ 15 ≤ 0 by decide, if_false, if_true]
    · simp only [onGrant, Nat.not_le.mpr hlow, hlost, if_false]
  · exact onMsg_live hlive onReturn
  · exact onMsg_live hlive onLost
  · rintro next j ahead rfl rfl rfl hold
    refine (onMsg_live hlive onAuditGrant).trans ?_
    simp only [onAuditGrant, hold, if_false]
  · rintro b d rfl rfl
    refine ⟨fun hne hnear => (onMsg_live hlive onAuditReturn).trans ?_, fun hfar hover => (onMsg_live hlive onAuditReturn).trans ?_⟩
    · simp only [onAuditReturn]
      rw [if_neg hne, if_pos (by simpa only [Bool.or_eq_true, decide_eq_true_eq] using hnear)]
    · have hne : ¬ (m.value % 2 ^ 29 + 2 ^ 29 - (mgetD (targetOf s m.target).books m.device (0, 0, 0)).2.2 % 2 ^ 29) % 2 ^ 29 = 0 := by omega
      simp only [onAuditReturn]
      rw [if_neg hne, if_neg (by simpa only [Bool.or_eq_true, decide_eq_true_eq, not_or, Nat.not_lt] using ⟨hfar, hover⟩)]

/-! ### Timers and cells -/

/-- One whole cell with an intact header is taken, and nothing follows it (R285). -/
theorem delineate_whole {lane n crc : Nat} {h : CellHead} {bs : List Byte} {s : State} (hhead : readHead bs = some (h, crc))
    (hlen : bs.length = 16 + 16 * (h.paylen + 4)) : delineate lane (n + 1) bs s = takeCell lane h crc (bs.drop 16) s := by
  have hpay : (bs.drop 16).take (16 * (h.paylen + 4)) = bs.drop 16 := List.take_of_length_le (by simp [hlen])
  have hrest : bs.drop (16 + 16 * (h.paylen + 4)) = [] := List.drop_of_length_le (by omega)
  have hshort : ¬ bs.length < 16 := by omega
  have hwhole : ¬ bs.length < 16 + 16 * (h.paylen + 4) := by omega
  simp only [delineate, hhead, hshort, hwhole, hpay, hrest, if_false]
  cases n <;> simp [delineate]

/-- Settles O31: each timer when its time has come, a whole cell by one pass of the delineation. -/
theorem creditTimersAndCellsTakeEffect : Obligations.CreditTimersAndCellsTakeEffect := by
  refine ⟨?_, ?_, ?_, ?_, ?_, ?_⟩
  · intro s hon hfab
    change execAuditSend s = _
    simp [execAuditSend, hon, hfab, answer]
  · intro v s hon hv hreq hkind
    refine ⟨fun hlocal => ?_, fun hfar => ?_⟩
    · change execRequestRepeat v s = _
      simp [execRequestRepeat, hon, Nat.not_le.mpr hv, hreq, hkind, hlocal, answer]
    · change execRequestRepeat v s = _
      simp [execRequestRepeat, hon, Nat.not_le.mpr hv, hreq, hkind, hfar, answer]
  · intro d s hon hfab hmsgs hspray hdue
    have hwait : (decide ((peerOf s d).msgs.length < 8) && !waitedSince 50 ((peerOf s d).msgs.head?.map (·.2)) s) = false := by
      rcases hdue with hmany | ⟨m, hm, hold⟩
      · simp [Nat.not_lt.mpr hmany]
      · simp [hm, waitedSince, hold]
    change execCreditCellSend d s = _
    simp [execCreditCellSend, hon, hfab, hmsgs, hspray, hwait, answer]
  · intro d r s hon hfab hpend hspray hhead hold
    change execCellFill d s = _
    simp [execCellFill, hon, hfab, hpend, hspray, hhead, waitedSince, hold, answer]
  · intro lane crc h bs s hon hlo hhi hstate hhead hlen
    change execCellReceive lane bs s = _
    simp [execCellReceive, hon, isFabricLane, hlo, hhi, hstate, delineate_whole hhead hlen, answer]
  · intro d c s hon hc hold
    have hne : (peerOf s d).held ≠ [] := List.ne_nil_of_mem hc
    have hany : (peerOf s d).held.any (fun c => decide (c.2.at_ + s.fabric.reorderUs * 1000 ≤ s.time.uptime)) = true :=
      List.any_eq_true.mpr ⟨c, hc, by simpa using hold⟩
    change execReorderTimeout d s = _
    simp only [execReorderTimeout, hon, hany, List.isEmpty_eq_false_iff.mpr hne, answer]
    rfl

/-! ### Presence -/

/-- Settles O32: each cell and timer under its condition. -/
theorem presenceEventsTakeEffect : Obligations.PresenceEventsTakeEffect := by
  refine ⟨?_, ?_, ?_, ?_, ?_, ?_⟩
  · intro d seq payload s hon hd
    change execPresence d seq payload s = _
    simp [execPresence, hon, hd, answer]
  · intro s hon
    change execPresenceSend s = _
    simp [execPresenceSend, hon, answer]
  · intro d s hon hpresent hold
    change execPresenceTimeout d s = _
    simp [execPresenceTimeout, hon, hpresent, hold, answer]
  · intro d seq payload s hon hd
    change execPortStatus d seq payload s = _
    simp only [execPortStatus, hon, hd, answer]
    rfl
  · intro d inc s hon hpresent hinc
    change execDeviceDown d inc s = _
    simp [execDeviceDown, onDeviceDown, hon, hpresent, hinc, answer]
  · intro s hrun hsafe hfab
    change execDeviceDownFlood s = _
    simp [execDeviceDownFlood, hrun, hsafe, hfab, answer]

/-! ### Lanes -/

@[simp] theorem laneOf_modLane_self (l : Nat) (f : Lane → Lane) (s : State) : laneOf (modLane l f s) l = f (laneOf s l) := by
  simp [laneOf, modLane, mmod]

/-- What the FEC of a lane counts leaves the lanes. -/
@[simp] theorem laneOf_laneFec (l k : Nat) (s : State) : laneOf (laneFec l s) k = laneOf s k := by
  simp [laneFec, laneOf]

/-- What the FEC of a lane counts leaves time and power. -/
@[simp] theorem laneFec_keeps (l : Nat) (s : State) : running (laneFec l s) = running s ∧ (laneFec l s).time = s.time := by
  simp [laneFec, running]

/-- A lane that is not FAILED is not reported. -/
theorem noteFailed_up {l : Nat} {old s : State} (h : (laneOf s l).state ≠ 5) : noteFailed l old s = s := by
  simp [noteFailed, h]

/-- A marker on a lane that verifies or is ACTIVE: what the FEC counts, then the lane's rule. -/
theorem exec_laneMarker {l d i : Nat} {r : Bool} {s : State} (hrun : running s = true) (hstate : (laneOf s l).state = 3 ∨ (laneOf s l).state = 4) :
    exec (.laneMarker l d i r) s = .next (settled s (noteFailed l (laneFec l s) (laneMarker l r (laneFec l s)))) := by
  change execLaneMarker l d i r s = _
  rcases hstate with h | h <;> simp [execLaneMarker, hrun, h, answer]

/-- Settles O33: each event by the rule of the lane's state. -/
theorem laneEventsTakeEffect : Obligations.LaneEventsTakeEffect := by
  intro l s hrun
  refine ⟨fun hstate => ?_, fun hstate => ?_, ?_, fun hstate cause hcause => ?_, fun hstate => ?_, fun hstate hold husable => ?_,
    fun hstate hold => ?_, fun hbond => ?_⟩
  · change execLaneTrainingDone l s = _
    simp [execLaneTrainingDone, hrun, hstate, answer]
  · change execLaneLock l s = _
    simp [execLaneLock, hrun, hstate, answer]
  · rintro u rfl
    refine ⟨fun hstate d i r hwait => ?_, fun hstate hmany d i => ?_, fun hstate d i => ⟨?_, fun hfirst => ?_, fun hsecond => ?_⟩⟩
    · have hgoes : ¬ (2 ≤ (laneOf s l).markers ∧ r = true) := by
        rintro ⟨hmarkers, rfl⟩
        rcases hwait with h | h
        · exact absurd hmarkers (Nat.not_le.mpr h)
        · exact Bool.noConfusion h
      rw [exec_laneMarker hrun (.inl hstate)]
      simp [laneMarker, hrun, hstate, hgoes, noteFailed_up]
    · rw [exec_laneMarker hrun (.inl hstate)]
      simp [laneMarker, hrun, hstate, hmany]
    · rw [exec_laneMarker hrun (.inr hstate)]
      simp [laneMarker, hrun, hstate, noteFailed_up]
    · rw [exec_laneMarker hrun (.inr hstate)]
      simp [laneMarker, hrun, hstate, hfirst, noteFailed_up]
    · rw [exec_laneMarker hrun (.inr hstate)]
      simp [laneMarker, hrun, hstate, hsecond]
  · change answer s (noteFailed l s (laneFailure l cause s)) = _
    have hrange : 1 ≤ cause ∧ cause ≤ 4 ∧ cause ≠ 3 := by simp at hcause; omega
    simp [laneFailure, hrun, hstate, hrange, answer]
  · change answer s (noteFailed l s (laneFailure l 3 s)) = _
    simp [laneFailure, hrun, hstate, answer]
  · change execLaneRetry l s = _
    simp [execLaneRetry, hrun, hstate, hold, startLane, husable, answer]
  · change answer s (noteFailed l s (laneBringupTimeout l s)) = _
    have hup : [1, 2, 3].contains (laneOf s l).state = true := by simpa using hstate
    simp only [laneBringupTimeout, hrun, hup, hold, answer]
    rfl
  · change execBondRetrain s = _
    simp [execBondRetrain, hrun, hbond, answer]

end Sys2Proof.Machine

/-! PROOFS. The events of the pair (R307 to R327, R405, R470). -/

namespace Sys2Proof.Machine

/-! ### Messages of a reliable class -/

/-- A message that is taken moves the numbers of its class, the bond and what is put out. -/
theorem pairTaken_eq (cls : Nat) (s : State) : ∃ (rx : NMap Nat) (b : Nat) (o : List Out),
    pairTaken cls s = { s with pair.rxSeq := rx, pair.bond := b, out := o } := by
  unfold pairTaken
  split
  · exact ⟨_, _, _, rfl⟩
  · exact ⟨_, _, _, rfl⟩

/-- What a message that is taken leaves of the member. -/
@[simp] theorem pairTaken_leaves (cls : Nat) (s : State) :
    running (pairTaken cls s) = running s ∧ mailboxReady (pairTaken cls s) = mailboxReady s ∧ (pairTaken cls s).faults = s.faults ∧
    (pairTaken cls s).mgt = s.mgt ∧ (pairTaken cls s).pair.cfg = s.pair.cfg ∧ (pairTaken cls s).pair.role = s.pair.role ∧
    (pairTaken cls s).pair.link = s.pair.link ∧ (pairTaken cls s).pair.switching = s.pair.switching ∧
    (pairTaken cls s).pair.snapped = s.pair.snapped ∧ (pairTaken cls s).pair.appliedSeq = s.pair.appliedSeq ∧
    (pairTaken cls s).pair.received = s.pair.received ∧ (pairTaken cls s).pair.takingOver = s.pair.takingOver ∧
    (pairTaken cls s).pair.changes = s.pair.changes ∧ (pairTaken cls s).pair.peerInc = s.pair.peerInc ∧
    takes (pairTaken cls s) = takes s ∧ peerBusy (pairTaken cls s) = peerBusy s := by
  obtain ⟨rx, b, o, h⟩ := pairTaken_eq cls s
  rw [h]
  and_intros <;> rfl

/-- A record is in turn after a message as before it. -/
@[simp] theorem recordDue_pairTaken (seq cls : Nat) (s : State) : recordDue seq (pairTaken cls s) = recordDue seq s := by
  obtain ⟨rx, b, o, h⟩ := pairTaken_eq cls s
  rw [h]
  rfl

@[simp] theorem newPeer_time (inc : Nat) (s : State) : (newPeer inc s).time = s.time := by
  unfold newPeer
  split <;> rfl

/-- Settles O34: each signal under its condition, the loss of the link by the member's role. -/
theorem pairSignalsTakeEffect : Obligations.PairSignalsTakeEffect := by
  refine ⟨?_, ?_, ?_, ?_, ?_, ?_, ?_, ?_, ?_, ?_, ?_, ?_⟩
  · intro b s hrun henable hlink
    change answer s (peerSettle (heartbeat b s)) = _
    simp [heartbeat, hrun, henable, hlink, answer]
  · intro s hrun henable hlink
    change execHeartbeatSend s = _
    simp [execHeartbeatSend, hrun, henable, hlink, answer]
  · intro s hrun henable hsafe hrestart hon
    change execPairBeatToggle s = _
    simp [execPairBeatToggle, hrun, henable, hsafe, hrestart, hon, answer]
  · intro level s hlevel
    change execPairBeatIn level s = _
    rw [execPairBeatIn, if_neg hlevel, answer]
  · intro s
    change execPairActIn true s = _
    cases hact : s.pair.actIn <;> simp [execPairActIn, hact, answer]
  · intro s hrole
    have hstays : (running s && !false && decide (s.pair.role = 3) && decide (s.pair.switching = 2)) = false := by
      rcases hrole with h | h <;> simp [h]
    change execPairActIn false s = _
    simp only [execPairActIn, hstays, answer]
    rfl
  · intro s hrun hrole hswitching
    change execPairActIn false s = _
    simp [execPairActIn, hrun, hrole, hswitching, answer]
  · intro s hrun henable hrole hlink hside
    change execPeerFailed s = _
    simp [execPeerFailed, hrun, henable, hrole, hlink, hside, answer]
  · intro s hrun henable hrole hlink
    change execTakeoverRequest s = _
    simp [execTakeoverRequest, hrun, henable, hrole, hlink, answer]
  · intro s hrun hrole hact hlong hid
    change execSplitBrain s = _
    simp [execSplitBrain, hrun, hrole, hact, hlong, hid, answer]
  · intro s hrun hlink hside
    have hexec : exec .pairLinkDown s = .next (settled s (peerSettle (linkLost s))) := by
      change execPairLinkDown s = _
      simp [execPairLinkDown, hrun, hlink, hside, answer]
    rw [hexec]
    refine ⟨fun hrole => ?_, fun hrole hswitching => ?_, fun hrole hswitching => ?_, fun hrole => ?_⟩
    · simp [linkLost, hrole]
    · simp [linkLost, hrole, hswitching]
    · simp [linkLost, hrole, hswitching]
    · simp [linkLost, hrole]
  · intro s hrun hlink
    change execPairDissolve s = _
    simp [execPairDissolve, hrun, hlink, answer]

/-! ### Replication -/

/-- Settles O36: each message under its condition, the acknowledgement of its class taken first. -/
theorem replicationEventsTakeEffect : Obligations.ReplicationEventsTakeEffect := by
  refine ⟨?_, ?_, ?_, ?_, ?_, ?_, ?_⟩
  · intro s hrun hrole hpeer hlink hpoint hcommits
    change execSyncPoint s = _
    simp [execSyncPoint, hrun, hrole, hpeer, hlink, hpoint, hcommits, answer]
  · rintro cmds s u hready hsafe hrole hlink rfl
    have hmember : ¬ (¬ s.pair.role = 2 ∧ ¬ s.pair.role = 3) := by omega
    change execSnapshot cmds s = _
    simp [execSnapshot, hready, hsafe, hmember, hlink, answer, or_assoc] <;> rfl
  · rintro seq gen op status isCommit c s u hrun hlink htakes hdue rfl
    change execJournalRecord seq gen op status isCommit c s = _
    simp [execJournalRecord, hrun, hlink, htakes, hdue, answer]
  · intro s hon hlink hrole hdeltas
    change execDeltaSend s = _
    simp [execDeltaSend, hon, hlink, Nat.not_lt.mpr hrole, hdeltas, answer]
  · intro n ds s hon hlink
    refine ⟨fun hdue => ?_, fun hold hlow => ?_⟩
    · change execCounterDelta (n, ds) s = _
      simp [execCounterDelta, hon, hlink, hdue, answer]
    · have hseen : (mgetD s.pair.rxSeq 5 0 + 2 ^ 32 - n) % 2 ^ 32 < 2 ^ 31 := by omega
      change execCounterDelta (n, ds) s = _
      simp only [execCounterDelta, hon, hlink, Nat.ne_of_lt hold, hseen, answer]
      rfl
  · intro bs s hon hlink
    change execRedirectRecord bs s = _
    simp [execRedirectRecord, hon, hlink, answer]
  · rintro port st change_ n s hrun hlink hport rfl hlow hhigh
    have hnew : ¬ (change_ + 256 - mgetD s.pair.changes port 0) % 256 = 0 := by omega
    change execPairPortMessage port st change_ s = _
    simp [execPairPortMessage, hrun, hlink, Nat.not_le.mpr hport, hnew, Nat.not_lt.mpr hhigh, answer]

/-! ### Switchover and the pair's time -/

/-- A standby to which nothing is left to apply answers a SWITCH at once (R325). -/
theorem peerSettle_answers {head : Nat} {s : State} (hswitch : s.pair.switchHead = some head) (hrole : s.pair.role = 3)
    (hlink : s.pair.link ≠ 0) (hreceived : s.pair.received = []) (hbusy : peerBusy s = false) (htaking : s.pair.takingOver = false)
    (hhead : head ≤ s.pair.appliedSeq) :
    peerSettle s = pairSend 3 [5] { s with pair.switching := 2, pair.switchHead := none } := by
  have hnone : unitReceived s = false := by simp [unitReceived, hreceived]
  simp [peerSettle, drainPeer, settleSwitch, caughtUp, hnone, hbusy, hreceived, htaking, hrole, hlink, hhead, hswitch]

/-- Settles O37: each event under its condition; a SWITCH with nothing left to apply is answered by `peerSettle_answers`. -/
theorem switchoverEventsTakeEffect : Obligations.SwitchoverEventsTakeEffect := by
  refine ⟨?_, ?_, ?_, ?_, ?_⟩
  · intro at_ s hrun harmed hrole hpeer hlink htime hcommits
    change execSwitchoverStart s = _
    simp [execSwitchoverStart, hrun, harmed, hrole, hpeer, hlink, Nat.not_lt.mpr htime, hcommits, answer]
  · intro head s hrun hrole hlink
    have hexec : exec (.switchMsg head) s = .next (settled s (peerSettle { pairTaken 3 s with pair.switchHead := some head })) := by
      change execSwitchMsg head s = _
      simp [execSwitchMsg, hrun, hrole, hlink, answer]
    refine ⟨hexec, fun hreceived hbusy htaking hhead => ?_⟩
    rw [hexec, peerSettle_answers (s := { pairTaken 3 s with pair.switchHead := some head }) rfl]
    · simpa using hrole
    · simpa using hlink
    · simpa using hreceived
    · show peerBusy (pairTaken 3 s) = false
      simpa using hbusy
    · simpa using htaking
    · simpa using hhead
  · intro s hrun hrole hswitching hlink
    change execSwitchoverAck s = _
    simp [execSwitchoverAck, hrun, hrole, hswitching, hlink, answer]
  · rintro t1 t2 t3 t4 rate off steered s hrun hfollow rfl
    refine ⟨fun hfar => ?_, fun hlow hhigh => ?_⟩
    · change execTimeAlign t1 t2 t3 t4 rate steered s = _
      simp only [execTimeAlign, hrun, hfollow, Bool.or_eq_true, decide_eq_true_eq, hfar, pairSend_frame, answer]
      rfl
    · have hnear : ¬ (1000 < (((t2 : Int) - t1) - ((t4 : Int) - t3)) / 2 ∨ (((t2 : Int) - t1) - ((t4 : Int) - t3)) / 2 < -1000) := by omega
      change execTimeAlign t1 t2 t3 t4 rate steered s = _
      simp only [execTimeAlign, hrun, hfollow, Bool.or_eq_true, decide_eq_true_eq, hnear, pairSend_frame, answer]
      rfl
  · intro kinds at_ expect s hready hlink hsafe
    refine ⟨fun hnone => ?_, fun hkinds hrole hok => ?_, fun hkinds hno => ?_⟩
    · change execActivationArm kinds at_ expect s = _
      simp [execActivationArm, hready, hlink, hsafe, hnone, answer]
    · change execActivationArm kinds at_ expect s = _
      simp [execActivationArm, hready, hlink, hsafe, hkinds, hrole, hok, answer]
    · have hcannot : (decide (s.pair.role = 3) && activationOk s kinds expect) = false := by
        rcases hno with h | h <;> simp [h]
      change execActivationArm kinds at_ expect s = _
      simp only [execActivationArm, hready, hlink, hsafe, hkinds, hcannot, answer]
      rfl

end Sys2Proof.Machine

/-! PROOFS. The host: descriptor rings, frames and jobs, PCIe. -/

namespace Sys2Proof.Machine

/-! ### Descriptor rings -/

/-- A doorbell reaches the index of a ring where its slice runs, its function is awake and no reserved bit is set. -/
theorem ringBell_submits {sl loc v : Nat} {s : State} (hrun : running s = true) (hslice : (sliceOf s sl).state = 1)
    (hawake : asleep s (pf1Key (sliceOf s sl).link) = false) (hring : (mget s.host.rings (dataKey sl loc)).isSome = true)
    (hbits : bitsOf v 62 17 = 0) : ringBell sl loc v s = if loc < 64 then submitBell (dataKey sl loc) v s else consumeBell (dataKey sl loc) v s := by
  have hsome : (mget s.host.rings (dataKey sl loc)).isNone = false := by simpa [Option.isNone_iff_eq_none, Option.isSome_iff_ne_none] using hring
  simp [ringBell, hrun, hslice, hawake, hsome, hbits]

/-- RING_FETCH and FETCH_RETRY are one fetch, told apart by whether the entry was tried before. -/
theorem exec_ringFetch_or_fetchRetry {sl loc : Nat} {e : Option (List Byte)} {r : Ring} {i : Instr} {s : State} (hring : r = dataRing s (dataKey sl loc))
    (hmay : mayFetch s (dataKey sl loc) = true)
    (hinstr : r.refetches = false ∧ i = Instr.ringFetch sl loc e ∨ r.refetches = true ∧ i = Instr.fetchRetry sl loc e) :
    exec i s = .next (settled s (takeEntry (dataKey sl loc) e s)) := by
  subst hring
  rcases hinstr with ⟨hfirst, rfl⟩ | ⟨hagain, rfl⟩
  · change execRingFetch sl loc e s = _
    simp [execRingFetch, hmay, hfirst, answer]
  · change execFetchRetry sl loc e s = _
    simp [execFetchRetry, hmay, hagain, answer]

/-- Settles O38: the fetches go through `exec_ringFetch_or_fetchRetry`, the doorbells through `ringBell_submits`. -/
theorem ringEventsTakeEffect : Obligations.RingEventsTakeEffect := by
  refine ⟨?_, ?_, ?_⟩
  · intro sl loc e r i s hring hmay hinstr
    rw [exec_ringFetch_or_fetchRetry hring hmay hinstr]
    subst hring
    refine ⟨?_, ?_, ?_, ?_⟩
    · rintro bs rfl hphase
      simp only [takeEntry, hphase, if_true]
    · rintro bs rfl hphase htries
      simp only [takeEntry, hphase, if_false, show ¬ 16 ≤ mgetD (dataRing s (dataKey sl loc)).tries (dataRing s (dataKey sl loc)).nextFetch 0 + 1 by omega]
    · rintro bs rfl hphase htries
      simp only [takeEntry, hphase, if_false, if_true, show 16 ≤ mgetD (dataRing s (dataKey sl loc)).tries (dataRing s (dataKey sl loc)).nextFetch 0 + 1 by omega]
    · rintro rfl
      rfl
  · intro sl loc v s hrun hslice hawake hring
    refine ⟨fun hbits hloc => ?_, fun hbits hloc => ?_, fun hbits hloc => ?_, fun hbits hloc => ?_⟩
    · change answer s (ringBell sl loc v s) = _
      rw [ringBell_submits hrun hslice hawake hring hbits, if_pos hloc, answer]
    · change answer s (ringBell sl loc v s) = _
      rw [ringBell_submits hrun hslice hawake hring hbits, if_neg (Nat.not_lt.mpr hloc), answer]
    · change answer s (ringBell sl loc (withBit v 16 true) s) = _
      rw [ringBell_submits hrun hslice hawake hring hbits, if_neg (Nat.not_lt.mpr hloc), answer]
    · change answer s (ringBell sl loc (withBit v 63 true) s) = _
      rw [ringBell_submits hrun hslice hawake hring hbits, if_pos hloc, answer]
  · rintro sl loc a r s rfl htraffic hwrites harmed hdist hwait htime
    change execCoalesceTimeout sl loc s = _
    simp [execCoalesceTimeout, htraffic, hwrites, harmed, hdist, hwait, htime, answer]

/-! ### Frames and jobs -/

@[simp] theorem modData_fenced (k : Nat) (f : Ring → Ring) (s : State) : (modData k f s).faults.fenced = s.faults.fenced := by
  unfold modData
  split <;> rfl

@[simp] theorem modData_groups (k : Nat) (f : Ring → Ring) (r : Nat) (s : State) : isFenced (modData k f s) r = isFenced s r := by
  unfold modData
  split <;> rfl

/-- A field that the change of a ring keeps is what it was, of an absent ring too. -/
theorem dataRing_modData_keeps {α : Type} {π : Ring → α} {k : Nat} {f : Ring → Ring} (hf : ∀ r, π (f r) = π r) (s : State) :
    π (dataRing (modData k f s) k) = π (dataRing s k) := by
  unfold modData dataRing
  cases hring : mget s.host.rings k with
  | none => rfl
  | some r => simp [mgetD, hring, hf]

@[simp] theorem dispatchEntries_pipeline (k n : Nat) (s : State) : (dataRing (dispatchEntries k n s) k).pipeline = (dataRing s k).pipeline :=
  dataRing_modData_keeps (f := fun r => { r with
    consumer := (r.consumer + n) % (2 * r.size), outstanding := r.outstanding + n,
    entries := (List.range n).foldl (fun m i => mdel m ((r.consumer + i) % (2 * r.size))) r.entries }) (fun _ => rfl) s

@[simp] theorem isFenced_dispatchEntries (k n r : Nat) (s : State) : isFenced (dispatchEntries k n s) r = isFenced s r := by
  simp [dispatchEntries]

/-- Settles O39: each event under its condition. -/
theorem frameAndJobEventsTakeEffect : Obligations.FrameAndJobEventsTakeEffect := by
  refine ⟨?_, ?_, ?_, ?_, ?_, ?_, ?_, ?_, ?_⟩
  · rintro sl loc k ds last data s u rfl hready hturn rfl
    refine ⟨fun hpass => ?_, fun hlast hpass f hlen hndesc hheld htag hstatus hbytes => ?_⟩
    · have hcond : (!last || (dataRing s (dataKey sl loc)).passing.isSome) = true := by
        rcases hpass with h | h
        · simp [h]
        · simp [Option.isSome_iff_ne_none.mpr h]
      change answer s (txDispatch (dataKey sl loc) data s) = _
      simp only [txDispatch, hready, hturn, bne_self_eq_false, Bool.false_eq_true, if_false, answer]
      exact congrArg (fun x => Host.Outcome.next (settled s x)) (if_pos hcond)
    · obtain ⟨bytes, len, ndesc, held, tag, status⟩ := f
      simp only at hlen hndesc hheld htag hstatus hbytes
      subst hlen hndesc hheld htag
      have hcond : (!last || (dataRing s (dataKey sl loc)).passing.isSome) = false := by simp [hlast, hpass]
      have hmodel : (if (!txFrameOk ds) = true then 0x14
          else if isFenced (dispatchEntries (dataKey sl loc) ds.length { s with host.txTurn := dataKey sl loc })
            (resId 0x0C (dataRing (dispatchEntries (dataKey sl loc) ds.length { s with host.txTurn := dataKey sl loc }) (dataKey sl loc)).pipeline) = true
          then 0x70 else if data.isNone = true then 0x90 else 0) = status := by
        simp [hstatus]
      change answer s (txDispatch (dataKey sl loc) data s) = _
      simp only [txDispatch, hready, hturn, bne_self_eq_false, Bool.false_eq_true, if_false, answer, hmodel, hbytes]
      exact congrArg (fun x => Host.Outcome.next (settled s x)) (if_neg (Bool.eq_false_iff.mp hcond))
  · intro sl loc s htraffic hdma
    change execTxFrameComplete sl loc s = _
    simp [execTxFrameComplete, htraffic, hdma, answer]
  · rintro e sl loc k src d defs x s u hlow hhigh rfl hready hdrr rfl rfl
    have hexec : exec (.jobDispatch e sl loc src) s = .next (settled s (jobDispatch e (dataKey sl loc) src s)) := by
      change execJobDispatch e sl loc src s = _
      simp [execJobDispatch, hlow, hhigh, answer]
    rw [hexec]
    refine ⟨fun hfenced => ?_, fun hfenced hbad => ?_, fun hok hfenced => ⟨?_, fun hsrc => ?_⟩⟩
    · simp only [jobDispatch, hready, hdrr, bne_self_eq_false, Bool.false_eq_true, if_false, hfenced, if_true]
    · simp only [jobDispatch, hready, hdrr, bne_self_eq_false, Bool.false_eq_true, if_false, hfenced, hbad, Bool.not_false, if_true]
    · rintro rfl
      simp only [jobDispatch, hready, hdrr, bne_self_eq_false, Bool.false_eq_true, if_false, hfenced, hok, Bool.not_true]
    · obtain ⟨bs, rfl⟩ := Option.ne_none_iff_exists'.mp hsrc
      simp only [jobDispatch, hready, hdrr, bne_self_eq_false, Bool.false_eq_true, if_false, hfenced, hok, Bool.not_true]
  · intro e j x s htraffic hlow hjob hdma
    have hexec : exec (.jobComplete e j) s = .next (settled s (jobComplete (e * 2 ^ 32 + j) s)) := by
      change execJobComplete e j s = _
      simp only [execJobComplete, htraffic, hlow, hjob, hdma, answer]
      rfl
    rw [hexec]
    refine ⟨fun st hpreset => ?_, fun hpreset hsrc => ?_, fun bs r hpreset hsrc hr => ?_⟩
    · simp only [jobComplete, hjob, hpreset]
    · simp only [jobComplete, hjob, hpreset, hsrc]
    · subst hr
      simp only [jobComplete, hjob, hpreset, hsrc, Bool.and_eq_true, decide_eq_true_eq]
  · intro p k s hrun hkey hstate hresident hposted hexecuting
    change execDmaReadError (.mailbox p) s = _
    simp [execDmaReadError, dmaReadError, hrun, hkey, hstate, hresident, hposted, hexecuting, answer]
  · intro sl loc s htraffic
    refine ⟨?_, fun hmay => ?_⟩
    · change execDmaReadError (.txFrame sl loc) s = _
      simp [execDmaReadError, dmaReadError, htraffic, answer]
    · change execDmaReadError (.descriptor sl loc) s = _
      simp [execDmaReadError, dmaReadError, takeEntry, htraffic, hmay, answer]
  · intro e j x s htraffic hjob hpreset
    change execDmaReadError (.jobSource e j) s = _
    simp only [execDmaReadError, dmaReadError, htraffic, hjob, hpreset, answer]
    rfl
  · intro sl s hrun hquiesce hdrained
    change execQuiesceDrainEnd sl s = _
    simp [execQuiesceDrainEnd, hrun, hquiesce, hdrained, answer]
  · intro sl at_ us c f s hrun hquiesce htime
    change execQuiesceTimeout sl s = _
    simp [execQuiesceTimeout, hrun, hquiesce, htime, answer]

/-! ### PCIe -/

/-- Settles O40: each event under its condition. -/
theorem pcieEventsTakeEffect : Obligations.PcieEventsTakeEffect := by
  refine ⟨?_, ?_, ?_, ?_, ?_, ?_, ?_, ?_⟩
  · intro s hrun
    change execPf0Flr s = _
    simp [execPf0Flr, hrun, answer]
  · intro l s hrun hlink
    change execPf1Flr l s = _
    simp [execPf1Flr, linkFunctions, hrun, hlink, answer]
  · intro l s hrun hlink hup
    refine ⟨?_, ?_⟩
    · change execHotReset l s = _
      simp [execHotReset, hrun, hlink, hup, answer]
    · change execLinkLoss l s = _
      simp [execLinkLoss, hrun, hup, answer]
  · intro l s hrun hlink hperst
    have hrun' : running { s with host.perst := s.host.perst ++ [l] } = true := hrun
    change execPciePerst l s = _
    simp [execPciePerst, hrun', hlink, hperst, answer]
  · intro l s
    rfl
  · intro l s hrun hlink hperst hup
    change execPcieLinkUp l s = _
    simp [execPcieLinkUp, hrun, hlink, hperst, hup, answer]
  · intro l f s hfunction
    have hsome : (configIds s l f).isNone = false := by simpa [Option.isNone_iff_eq_none, Option.isSome_iff_ne_none] using hfunction
    refine ⟨?_, ?_⟩
    · change execPciePowerState l f true s = _
      simp [execPciePowerState, hsome, answer]
    · change execPciePowerState l f false s = _
      simp [execPciePowerState, hsome, answer]
  · intro s hrun
    change execPcieRefclkLoss s = _
    simp [execPcieRefclkLoss, hrun, answer]

end Sys2Proof.Machine

/-! PROOFS. The threads of the packet cores. -/

namespace Sys2Proof.Machine

/-! ### Issue -/

/-- An instruction that issues runs on the state after its cycle started. -/
theorem issue_of_issues {t : Nat} {s : State} (hissues : issues s t = true) (f : State → Issued) :
    issue t f s = runIssued t f (startIssue t (nextCycle s (threadCore t)) s) := by
  simp only [issues, Bool.and_eq_true, Option.isNone_iff_eq_none] at hissues
  obtain ⟨⟨⟨hcan, hpasses⟩, hown⟩, htrigger⟩ := hissues
  have htakes : takesCycle t (nextCycle s (threadCore t)) s = (true, s) := by simp [takesCycle, hpasses, hown]
  simp [issue, hcan, cycleFor, htakes, htrigger]

section
variable {t : Nat} {s u : State} {f : State → Issued} {r : Issued} (hissues : issues s t = true)
  (hstart : u = startIssue t (nextCycle s (threadCore t)) s) (hop : f u = r)
include hissues hstart hop

theorem answer_issue : answer s (issue t f s) = .next (settled s (runIssued t (fun _ => r) u)) := by
  subst hstart hop
  rw [issue_of_issues hissues]
  rfl

theorem answer_settleResets_issue :
    answer s (settleResets (issue t f s)) = .next (settled s (settleResets (runIssued t (fun _ => r) u))) := by
  subst hstart hop
  rw [issue_of_issues hissues]
  rfl

end

/-! ### What the counters and the channels leave of a thread -/

@[simp] theorem corePmc_threads (t event n : Nat) (s : State) : (corePmc t event n s).tahr.threads = s.tahr.threads := by
  unfold corePmc
  dsimp only
  split <;> rfl

@[simp] theorem threadOf_corePmc (t event n : Nat) (s : State) (t' : Nat) : threadOf (corePmc t event n s) t' = threadOf s t' := by
  simp [threadOf]

@[simp] theorem xreg_corePmc (t event n : Nat) (s : State) (t' r : Nat) : xreg (corePmc t event n s) t' r = xreg s t' r := by
  simp [xreg]

/-! ### Event and channel instructions -/

/-- Settles O41: each instruction issues (`answer_issue`) and its operation is computed at the state after its cycle started. -/
theorem eventAndChannelInstructionsRetire : Obligations.EventAndChannelInstructionsRetire := by
  intro t rd rs1 rs2 imm s u hissues hstart
  refine ⟨?_, ?_, ?_, ?_, ?_, ?_, ?_, ?_, ?_, ?_, ?_, ?_, ?_, ?_, ?_⟩
  · intro hmask
    exact answer_settleResets_issue hissues hstart (by simp [opWfe, hmask])
  · rintro p rfl hevent
    exact answer_settleResets_issue hissues hstart (by simp [opWfe, hevent])
  · intro hmask hevent
    exact answer_settleResets_issue hissues hstart (by simp [opWfe, hmask, hevent])
  · exact answer_issue hissues hstart rfl
  · intro k i hoperand henable hadmits hreserving hfree
    exact answer_issue hissues hstart (by simp [opChRsv, hoperand, henable, hadmits, hreserving, hfree])
  · intro hoperand
    exact answer_issue hissues hstart (by simp [opChRsv, hoperand])
  · intro hoffset
    exact ⟨answer_issue hissues hstart (by simp [opChWr, hoffset]), answer_issue hissues hstart (by simp [opChRd, hoffset])⟩
  · intro k i hoffset hresv hhandle
    exact answer_issue hissues hstart (by simp [opChWr, hoffset, hresv, hhandle])
  · intro k i hoffset hresv hhandle
    exact answer_issue hissues hstart (by simp [opChWr, hoffset, hresv, hhandle])
  · intro k i hresv hhandle
    exact answer_issue hissues hstart (by simp [opChCmt, hresv, hhandle])
  · intro hresv
    exact answer_issue hissues hstart (by simp [opChCmt, hresv])
  · intro k i rest x hoperand hcluster horder hslot hready
    exact answer_issue hissues hstart (by simp [opChGet, hoperand, hcluster, horder, hslot, hready])
  · intro k i x hoffset htaken hslot
    exact answer_issue hissues hstart (by simp [opChRd, hoffset, htaken, hslot])
  · intro k i htaken
    exact answer_issue hissues hstart (by simp [opChRel, htaken])
  · intro htaken
    exact answer_issue hissues hstart (by simp [opChRel, htaken])

/-! ### Packet, table and control instructions -/

/-- Settles O42: PLD and PST fail with the first reason there is, in the order of their operations' tests. -/
theorem packetAndControlInstructionsRetire : Obligations.PacketAndControlInstructionsRetire := by
  rintro t rd rs1 rs2 rs3 value s u v hissues hstart rfl
  refine ⟨?_, ?_, ?_, ?_, ?_, ?_, ?_, ?_⟩
  · intro hfails
    have hsome := Option.isSome_iff_ne_none.mpr hfails
    exact ⟨answer_issue hissues hstart (by simp [opPld, hsome]), answer_issue hissues hstart (by simp [opPst, hsome])⟩
  · intro hpasses hlow hbank
    refine ⟨answer_issue hissues hstart (by
        simp only [opPld, hpasses, Nat.not_le.mpr hlow, hbank, Option.isSome_none, Bool.false_eq_true, if_false]),
      fun hwritable => answer_issue hissues hstart ?_, fun code hrefused => answer_issue hissues hstart ?_⟩
    · simp only [opPst, hpasses, hbank, hwritable, xreg_corePmc, Option.isSome_none, Bool.false_eq_true, if_false]
    · simp only [opPst, hpasses, hbank, hrefused, Option.isSome_none, Bool.false_eq_true, if_false]
  · rintro r rfl
    have hrow : ∀ op, xreg s t rs2 % 16 = op → pdispOf op t rd rs1 rs2 s = .next (settled s (runIssued t (fun _ =>
        doneX t rd (dispose t (xreg u t rs1) (xreg u t rs2) (corePmc t 7 1 u)).1 (dispose t (xreg u t rs1) (xreg u t rs2) (corePmc t 7 1 u)).2) u)) := by
      rintro op hop
      rw [pdispOf, if_pos hop]
      exact answer_issue hissues hstart rfl
    exact ⟨hrow 0, hrow 1, hrow 2, hrow 3, hrow 4⟩
  · rintro w k rfl rfl
    refine ⟨fun hhigh => ?_, fun hlow hfree => ?_, fun hlow hbusy => ?_⟩
    · exact answer_issue hissues hstart (by simp [opTblGo, hhigh, St.badField])
    · exact answer_issue hissues hstart (by simp [opTblGo, Nat.not_lt.mpr hlow, hfree])
    · exact answer_issue hissues hstart (by simp [opTblGo, Nat.not_lt.mpr hlow, hbusy])
  · exact answer_issue hissues hstart rfl
  · exact answer_issue hissues hstart rfl
  · exact answer_issue hissues hstart rfl
  · exact answer_issue hissues hstart rfl

/-! ### RV64IMAC -/

/-- Settles O43: fetch in halves, then the word or the expansion of the compressed one. -/
theorem baseInstructionsRun : Obligations.BaseInstructionsRun := by
  intro t lo s u v hissues hstart hfetch
  refine ⟨fun hi w hlong hfetch' => ?_, fun c hshort hexpand => ?_, fun hshort hexpand => ?_⟩
  · exact answer_settleResets_issue hissues hstart (by simp [rvIssue, hfetch, hlong, hfetch'])
  · exact answer_settleResets_issue hissues hstart (by simp [rvIssue, hfetch, hshort, hexpand])
  · exact answer_settleResets_issue hissues hstart (by simp [rvIssue, hfetch, hshort, hexpand])

/-! ### Events of threads and clusters -/

/-- Settles O45: each event under its condition. -/
theorem threadEventsTakeEffect : Obligations.ThreadEventsTakeEffect := by
  refine ⟨?_, ?_, ?_, ?_, ?_, ?_, ?_⟩
  · intro t s htraffic harmed htime
    change execTimer t s = _
    simp [execTimer, timerEvent, htraffic, harmed, htime, answer]
  · intro t mask rd s htraffic hwaiting hevent hhalted hfaulted hfenced
    change answer s (wfeReturn t s) = _
    simp [wfeReturn, hwaiting, hevent, hhalted, hfaulted, hfenced, htraffic, answer]
  · intro resource r s hreset hready hgrace
    change execGraceExpiry resource s = _
    simp [execGraceExpiry, hreset, hready, hgrace, answer]
  · intro cl s htraffic hstalled hstalls
    change execStall cl s = _
    simp [execStall, htraffic, hstalled, hstalls, answer]
  · rintro cl u s hready hsafe hstalled rfl
    change execStallRecovery cl s = _
    simp [execStallRecovery, hready, hsafe, hstalled, answer]
  · intro cl addr data s hrun hcl haddr
    have hguard : (!running s || 2 ≤ cl || 128 ≤ addr) = false := by simp [hrun, hcl, haddr]
    refine ⟨?_, ?_⟩
    · change execDmiAccess cl true addr data s = _
      simp only [execDmiAccess, hguard, answer]
      rfl
    · change execDmiAccess cl false addr data s = _
      simp only [execDmiAccess, hguard, answer]
      rfl
  · intro t s hready htimeout hhalted hreserving htime
    change execHoldTimeout t s = _
    simp [execHoldTimeout, hready, htimeout, hhalted, hreserving, htime, answer]

end Sys2Proof.Machine

/-! PROOFS. The table engine: register sets, learning and aging. -/

namespace Sys2Proof.Machine

/-! ### Register sets -/

/-- A set that takes a command with GO set and need not wait runs it; one that must wait is busy without a result. -/
theorem setCommand_takes {n w : Nat} {s : State} (htakes : setTakes n s = true) (hgo : bit w 63 = true) :
    setCommand n w s = if setWaits n (setWritten n w s) s = true then modSet n (fun _ => { setWritten n w s with busy := true, waiting := true, result := none }) s
      else modSet n (fun _ => { setWritten n w s with busy := true, waiting := false, result := some (setRun n (setWritten n w s) s).1 }) (setRun n (setWritten n w s) s).2 := by
  simp only [setTakes, Bool.and_eq_true, Bool.not_eq_true'] at htakes
  obtain ⟨⟨hrun, hstag⟩, hidle⟩ := htakes
  simp only [setCommand, hrun, hstag, hidle, hgo, Bool.not_true, Bool.or_self, Bool.false_eq_true, if_false]
  rfl

theorem withBits_two_zero_mod_eight (v op : Nat) : withBits v 2 0 op % 8 = op % 8 := by
  have hlow : bitsOf v 2 0 = v % 8 := by simp [bitsOf]
  simp only [withBits, hlow]
  omega

/-- The operation that a row writes into TBL_CMD is the one that the set then holds, with GO set. -/
theorem written_operation (v op n : Nat) (s : State) (hop : op < 8) :
    (setWritten n (withBits v 2 0 op ||| 2 ^ 63) s).cmd % 8 = op ∧ bit (withBits v 2 0 op ||| 2 ^ 63) 63 = true := by
  refine ⟨?_, by rw [bit, Nat.testBit_or, Nat.testBit_two_pow_self, Bool.or_true]⟩
  have hor : (withBits v 2 0 op ||| 2 ^ 63) % 2 ^ 3 = op := by
    rw [Nat.or_mod_two_pow, show (2 : Nat) ^ 3 = 8 from rfl, withBits_two_zero_mod_eight, Nat.mod_eq_of_lt hop]
    exact Nat.or_zero op
  generalize withBits v 2 0 op ||| 2 ^ 63 = w at hor ⊢
  show (w % 2 ^ 29 &&& 0x1FFF001F) % 2 ^ 3 = op
  rw [Nat.and_mod_two_pow, Nat.mod_mod_of_dvd w (Nat.pow_dvd_pow 2 (by decide)), hor, show 0x1FFF001F % 2 ^ 3 = 2 ^ 3 - 1 by decide, Nat.and_two_pow_sub_one_eq_mod,
    Nat.mod_eq_of_lt hop]

/-- Settles O47: the five rows are `setCommand` of one word, whose operation `written_operation` gives. -/
theorem tableSetsRun : Obligations.TableSetsRun := by
  refine ⟨?_, ?_, ?_⟩
  · rintro n v s htakes p hp w c rfl rfl
    have hrow : p.2 < 8 ∧ exec p.1 s = .next (settled s (setCommand n (withBits v 2 0 p.2 ||| 2 ^ 63) s)) := by
      simp only [List.mem_cons, List.not_mem_nil, or_false] at hp
      rcases hp with rfl | rfl | rfl | rfl | rfl <;> exact ⟨Nat.le_of_ble_eq_true rfl, rfl⟩
    obtain ⟨hop, hexec⟩ := hrow
    obtain ⟨hcmd, hgo⟩ := written_operation v p.2 n s hop
    rw [hexec, setCommand_takes htakes hgo]
    exact ⟨hcmd, fun hfree => by rw [hfree]; rfl, fun hwaits => by rw [if_pos hwaits]⟩
  · intro n s hrun hstag hbusy v
    change answer s (setCommand n (withBits v 2 0 3 ||| 2 ^ 63) s) = _
    simp only [setCommand, hrun, hstag, hbusy, Bool.not_true, Bool.or_self, Bool.false_eq_true, if_false, if_true, answer]
  · intro n r s hbusy hwaiting hresult
    change answer s (deliverSet n (setFinish n s)) = _
    simp [setFinish, hbusy, hwaiting, hresult, answer]

/-! ### Learning and aging -/

/-- A change inside one table leaves everything but the tables. -/
theorem modInst_frame (t i : Nat) (f : TInst → TInst) (s : State) : ∃ ts, modInst t i f s = { s with tables := ts } := by
  unfold modInst modTable
  split
  · exact ⟨_, rfl⟩
  · exact ⟨s.tables, rfl⟩

@[simp] theorem tableBurst_modInst (t i : Nat) (f : TInst → TInst) (s : State) (x : Table) : tableBurst (modInst t i f s) x = tableBurst s x := by
  obtain ⟨ts, h⟩ := modInst_frame t i f s
  rw [h]
  rfl

/-- Where no uncorrectable burst stands in a table's stacks, none is met. -/
theorem tableMet_of_no_burst {s : State} {x : Table} (h : tableBurst s x = false) : tableMet s x = (false, s) := by
  simp [tableMet, h]

/-- Settles O48: each event under its condition, for a table that no burst touches (`tableMet_of_no_burst`). -/
theorem tableEventsTakeEffect : Obligations.TableEventsTakeEffect := by
  refine ⟨?_, ?_, ?_, ?_, ?_⟩
  · intro t i at_ m x s htable hrel htime
    change execRelClear t i s = _
    simp only [execRelClear, htable, hrel, htime, if_true, answer]
  · intro t x s htable hkind
    have hprefix : (decide (x.kind = 1) || decide (x.kind = 2)) = true := by simpa using hkind
    change execTrieFree t s = _
    simp only [execTrieFree, htable, hprefix, if_true, answer]
  · intro t i x key data rest u s htable hkind hqueue htraffic hheld hpaused
    refine ⟨fun hdown => ?_, fun hdown hburst hu => ?_⟩
    · change execLearnEvent t i s = _
      simp [execLearnEvent, htable, hqueue, hdown, answer]
    subst hu
    have hmet := tableMet_of_no_burst ((tableBurst_modInst t i (fun n => { n with learnQ := rest }) s x).trans hburst)
    have hexec : exec (.learnEvent t i) s = execLearnEvent t i s := rfl
    rw [hexec]
    refine ⟨fun hstandby hnone => ?_, fun hlearns hknown => ?_, fun y d hlearns hnew htable' hinsert => ?_, fun y f hlearns hnew htable' hinsert => ?_⟩
    · simp [execLearnEvent, htable, hqueue, htraffic, hheld, hpaused, hkind, hdown, hstandby, hnone, answer]
    all_goals
      have hguard : (!trafficOn s || (instOf x i).held || learningPaused s || x.kind != 0 || tableDown s x) = false := by
        simp [htraffic, hheld, hpaused, hkind, hdown]
      have hlearning : (onStandby (modInst t i (fun n => { n with learnQ := rest }) s) &&
          !(modInst t i (fun n => { n with learnQ := rest }) s).pair.cfg.standbyLearn) = false := by
        cases hon : onStandby (modInst t i (fun n => { n with learnQ := rest }) s) with
        | false => rfl
        | true => simp [hlearns hon]
    · simp only [execLearnEvent, htable, hqueue, hguard, hlearning, hmet, hknown, Bool.false_eq_true, if_false, if_true, answer]
    · simp only [execLearnEvent, htable, hqueue, hguard, hlearning, hmet, hnew, htable', hinsert, Option.isSome_none, Bool.false_eq_true, if_false, answer]
    · simp only [execLearnEvent, htable, hqueue, hguard, hlearning, hmet, hnew, htable', hinsert, Option.isSome_none, Bool.false_eq_true, if_false, answer]
  · intro t i x s htable hkind hage hsweeping hdue hpaused hheld htraffic hstandby
    change execSweepStart t i s = _
    cases hat : (instOf x i).sweepAt with
    | none => simp [execSweepStart, htable, hkind, hage, hsweeping, hat, hpaused, hheld, htraffic, hstandby, answer]
    | some a => simp [execSweepStart, htable, hkind, hage, hsweeping, hat, hdue a hat, hpaused, hheld, htraffic, hstandby, answer]
  · intro t i x s htable hkind hsweeping hpaused hheld htraffic hstandby
    refine ⟨fun hdown => ?_, fun hdown hburst => ⟨fun hnone => ?_, fun p e u hnext hu => ?_⟩⟩
    · change execSweepVisit t i s = _
      simp [execSweepVisit, htable, hdown, answer]
    · change execSweepVisit t i s = _
      simp [execSweepVisit, htable, hkind, hdown, hsweeping, hheld, hpaused, htraffic, hstandby, hnone, answer]
    · have hexec : exec (.sweepVisit t i) s = .next (settled s (if e.static = true then u
          else if e.hit = true then modInst t i (onKey e.key (fun e => { e with hit := false, clearSeen := false })) u
          else if e.clearSeen = false then modInst t i (onKey e.key (fun e => { e with clearSeen := true })) u
          else batchChange t i (instResource x i) true (batchEntry x e.key [] false) (count 0x06 t 3 1
            (modInst t i (removeKey x e.key u.time.uptime) u)))) := by
        subst hu
        change execSweepVisit t i s = _
        simp [execSweepVisit, htable, hkind, hdown, hsweeping, hheld, hpaused, htraffic, hstandby, hnext, tableMet_of_no_burst hburst, answer]
      rw [hexec]
      exact ⟨fun hstatic => by simp [hstatic], fun hstatic hhit => by simp [hstatic, hhit],
        fun hstatic hhit hseen => by simp [hstatic, hhit, hseen], fun hstatic hhit hseen => by simp [hstatic, hhit, hseen]⟩

end Sys2Proof.Machine

/-! PROOFS. HBM: temperature, refresh windows, activations and retraining. -/

namespace Sys2Proof.Machine

/-- A window is due where none runs, or its time is over. -/
theorem windowDue_iff (x : PChan) (s : State) : windowDue x s = true ↔ ∀ a, x.windowAt = some a → a + x.windowNs ≤ s.time.uptime := by
  unfold windowDue
  cases x.windowAt with
  | none => simp
  | some a => simp

theorem windowStarts_eq (rh step now : Nat) : windowStarts rh step now = fun x =>
    if x.mode = 0 ∨ x.mode = 2 then
      (if x.window = true then { x with rhNow := rh, act := [], windowAt := some now, windowNs := 32000000 / 2 ^ step, mode := 3, window := false }
      else { x with rhNow := rh, act := [], windowAt := some now, windowNs := 32000000 / 2 ^ step, window := true })
    else { x with rhNow := rh, act := [], windowAt := some now, windowNs := 32000000 / 2 ^ step } := by
  funext x
  simp only [windowStarts, windowLength, Bool.or_eq_true, decide_eq_true_eq]

/-- Settles O49: each event under its condition. -/
theorem hbmEventsTakeEffect : Obligations.HbmEventsTakeEffect := by
  refine ⟨?_, ?_, ?_, ?_, ?_, ?_, ?_, ?_, ?_, ?_⟩
  · rintro n t s u hrun hn hdomain rfl
    refine ⟨fun hcool => ?_, fun hhot => ?_⟩
    · change execHbmTempRead n t s = _
      simp only [execHbmTempRead, hrun, hn, hdomain, Int.not_lt.mpr hcool, answer]
      rfl
    · change execHbmTempRead n t s = _
      simp only [execHbmTempRead, hrun, hn, hdomain, hhot, answer]
      rfl
  · rintro p rh now ns s hrun hp hready rfl rfl rfl
    refine ⟨fun hdue => ?_, fun a hat hearly => ?_⟩
    · change execRefreshWindow p s = _
      simp only [execRefreshWindow, hrun, hp, hready, (windowDue_iff _ _).mpr hdue, windowStarts_eq, answer]
      rfl
    · have hnot : windowDue (pchanOf s p) s = false := by
        rw [Bool.eq_false_iff, ne_eq, windowDue_iff]
        exact fun h => Nat.not_le.mpr hearly (h a hat)
      change execRefreshWindow p s = _
      simp [execRefreshWindow, hnot, answer]
  · intro p bank row s hholds
    change execHbmActivate p bank row s = _
    simp [execHbmActivate, hholds, answer]
  · rintro p bank row e s hserves hbank hrow hholds hmode rfl
    have hguard : (!pcServes s p || 48 ≤ bank || 16384 ≤ row || bankHolds (pchanOf s p) bank row) = false := by
      simp [hserves, hbank, hrow, hholds]
    refine ⟨fun hreached => ?_, fun hbelow => ?_⟩
    · change execHbmActivate p bank row s = _
      simp only [execHbmActivate, hguard, hmode, hreached, Bool.false_eq_true, if_false, if_true, answer]
    · change execHbmActivate p bank row s = _
      simp only [execHbmActivate, hguard, hmode, Nat.not_le.mpr hbelow, Bool.false_eq_true, if_false, if_true, answer]
  · intro p bank row s hserves hbank hrow hholds hmode
    have hguard : (!pcServes s p || 48 ≤ bank || 16384 ≤ row || bankHolds (pchanOf s p) bank row) = false := by
      simp [hserves, hbank, hrow, hholds]
    change execHbmActivate p bank row s = _
    simp only [execHbmActivate, hguard, hmode, Bool.false_eq_true, if_false, answer]
  · intro p bank row rest s hserves hqueue
    change execNeighbourRefresh p bank s = _
    simp only [execNeighbourRefresh, hqueue, hserves, if_true, answer]
  · intro p s hrun hp hready hfree hphase
    change execRetrainHold p s = _
    simp [execRetrainHold, hrun, hp, hready, hfree, hphase, answer]
  · intro p s hrun hp hready hphase
    change execRetrainPause p s = _
    simp [execRetrainPause, hrun, hp, hready, hphase, answer]
  · rintro p s u hrun hphase rfl
    refine ⟨fun hpaused => ⟨?_, ?_⟩, fun hpaused hholds pass => ?_⟩
    · change execRetrainEnd p true s = _
      simp [execRetrainEnd, hrun, hphase, hpaused, answer]
    · change execRetrainEnd p false s = _
      simp [execRetrainEnd, hrun, hphase, hpaused, answer]
    · change execRetrainEnd p pass s = _
      simp [execRetrainEnd, hrun, hphase, hpaused, hholds, answer]
  · intro n s hrun hn hdomain hready
    change execHbmInitComplete n s = _
    simp only [execHbmInitComplete, hrun, hn, hdomain, hready, answer]
    rfl

end Sys2Proof.Machine

/-! PROOFS. Fault reports, fault records and self-tests. -/

namespace Sys2Proof.Machine

/-! ### Reports -/

/-- A report of a resource of its source is taken (R432). -/
theorem report_taken {src resource : Nat} {s : State} (hrun : running s = true) (hkind : resKind resource = sourceKind src)
    (hvalid : resValid resource = true) (hlane : src = 3 → 192 ≤ resIndex resource ∧ resIndex resource < 496) :
    (!running s || resKind resource != sourceKind src || !resValid resource ||
      (src == 3 && (resIndex resource < 192 || 496 ≤ resIndex resource))) = false := by
  by_cases h : src = 3
  · obtain ⟨hlow, hhigh⟩ := hlane h
    simp [hrun, hkind, hvalid, Nat.not_lt.mpr hlow, Nat.not_le.mpr hhigh]
  · simp [hrun, hkind, hvalid, h]

/-- The self-tests that a fault fails are the one thing it changes before its fence. -/
theorem failTests_frame (ts : List Nat) (s : State) :
    ∃ l, ts.foldl (fun s r => failTests r s) s = { s with faults.tests := l } := by
  induction ts generalizing s with
  | nil => exact ⟨s.faults.tests, rfl⟩
  | cons r rs ih =>
    obtain ⟨l, h⟩ := ih (failTests r s)
    exact ⟨l, h⟩

theorem countBurst_reportCross_uptime (src resource : Nat) (s : State) :
    (countBurst src resource (reportCross resource s)).time = s.time := by
  unfold countBurst reportCross bridgeCross
  (repeat' split) <;> rfl

/-- A report of a contained source without a window, out of the safe state: its targets are fenced where not all are (R437). -/
theorem report_contained {src resource : Nat} {detail : List Byte} {ts : List Nat} {s v w : State}
    (htaken : (!running s || resKind resource != sourceKind src || !resValid resource ||
      (src == 3 && (resIndex resource < 192 || 496 ≤ resIndex resource))) = false)
    (hclass : sourceClass src = some 1) (hform : src = 23 → u8 detail 0 ∉ [0, 1, 14, 15]) (hsafe : v.faults.safe = false)
    (hwindow : sourceWindow src = none) (htargets : reportTargets src resource detail = some ts)
    (hv : v = countBurst src resource (reportCross resource s)) (hw : w = ts.foldl (fun s r => failTests r s) v) :
    report src resource detail s = if (!ts.isEmpty && ts.all (isFenced v)) = true then
        (if sameFence w ts true false = true then w else pendRecord (mkRecord w src resource 1 6 0 0 detail) w)
      else fenceReport src resource 0 ts detail w := by
  have hform' : (decide ((1 : Nat) = 2) || decide (src = 23) && [0, 1, 14, 15].contains (u8 detail 0)) = false := by
    simpa using hform
  obtain ⟨l, hl⟩ := failTests_frame ts v
  have hfenced : ts.all (isFenced w) = ts.all (isFenced v) := by
    rw [hw, hl]
    rfl
  have hnone : windowOf w src = none := by simp [windowOf, hwindow]
  simp only [report, hclass, htaken, ← hv, hform', hsafe, htargets, Option.getD_some, ← hw, hfenced, hnone, beq_self_eq_true, Bool.false_and,
    decide_true, Bool.true_or, Bool.false_eq_true, if_false, if_true]

/-! ### Records -/

/-- What is left of a list keeps the entry added last. -/
theorem getLast?_drop_concat {α : Type} {n : Nat} (l : List α) (x : α) (h : n ≤ l.length) : ((l ++ [x]).drop n).getLast? = some x := by
  rw [List.drop_append_of_le_length h, List.getLast?_concat]

/-- The firmware's record of an event, with room for it, leaves the faults. -/
theorem journalFw_faults {s : State} (h : journalFree s.journal ≠ 0) (opcode object resource : Nat) :
    (journalFw opcode object resource s).2.faults = s.faults := by
  have hroom : ¬ journalFree s.journal < 1 := by omega
  simp only [journalFw, journalCmd, RecInfo.records, List.length_nil, contCount, ceilDiv, appendRec]
  simp [hroom, h, pieces]

/-- A fault record that needs no journal record, or whose journal record has room, leaves the faults, the memory and the tables. -/
theorem recordJournal_keeps {c : Bool} {s : State} (h : c = true ∨ journalFree s.journal ≠ 0) (opcode object resource : Nat) :
    ∃ j t, (if c = true then (0, s) else journalFw opcode object resource s) = (j, t) ∧ t.faults = s.faults ∧ t.mem = s.mem ∧ t.tables = s.tables := by
  cases c with
  | true => exact ⟨0, s, rfl, rfl, rfl, rfl⟩
  | false => exact ⟨(journalFw opcode object resource s).1, (journalFw opcode object resource s).2, rfl, journalFw_faults (by simpa using h) .., by simp, by simp⟩

/-- Writing a pending record changes the device by the journal's record only. -/
theorem faultRecord_writes {r : FRec} {rest : List FRec} {s : State} (hpending : s.faults.pending = r :: rest) (hrun : running s = true)
    (hrestart : s.boot.restarting = false) (hstag : s.faults.stagHeld = false) (hphase : 2 ≤ s.boot.phase)
    (hroom : journalFree s.journal ≠ 0 ∨ s.faults.safe = true) :
    (faultRecord s).faults.pending = rest ∧ (faultRecord s).faults.next = s.faults.next + 1 ∧ (faultRecord s).faults.alert = true ∧
    (faultRecord s).mem = s.mem ∧ (faultRecord s).tables = s.tables ∧
    ∃ j, (faultRecord s).faults.log.getLast? = some { r with seq := s.faults.next, journalSeq := j } := by
  have hguard : (!running s || s.boot.restarting || s.faults.stagHeld || decide (s.boot.phase < 2)) = false := by
    simp only [hrun, hrestart, hstag, Nat.not_lt.mpr hphase, Bool.not_true, decide_false, Bool.or_self]
  have hwritten : (decide (r.action < 1) || decide (4 < r.action) || s.faults.safe && journalFree s.journal == 0) = true ∨ journalFree s.journal ≠ 0 := by
    rcases hroom with h | h
    · exact .inr h
    · by_cases hfree : journalFree s.journal = 0
      · exact .inl (by simp only [h, hfree, beq_self_eq_true, Bool.and_self, Bool.or_true])
      · exact .inr hfree
  obtain ⟨j, t, hjournal, hfaults, hmem, htables⟩ := recordJournal_keeps (s := { s with faults.pending := rest }) hwritten 0x1400 s.faults.next r.target
  simp only [faultRecord, hpending, hguard, Bool.false_eq_true, if_false, hjournal, emit_frame]
  refine ⟨congrArg (·.pending) hfaults, trivial, trivial, hmem, htables, j, ?_⟩
  refine getLast?_drop_concat _ _ ?_
  rw [List.length_append, List.length_singleton]
  omega

/-! ### The obligation -/

/-- Settles O50: a report is decided by its class, the safe state and its targets (`report_contained`); a pending record is written by `faultRecord_writes`. -/
theorem faultEventsTakeEffect : Obligations.FaultEventsTakeEffect := by
  refine ⟨?_, ?_, ?_, ?_⟩
  · intro src resource detail s v hrun hkind hvalid hlane hv
    have htaken := report_taken hrun hkind hvalid hlane
    obtain ⟨hfaults, -⟩ := countBurst_reportCross src resource s
    have htime := countBurst_reportCross_uptime src resource s
    rw [← hv] at hfaults htime
    refine ⟨fun hfatal => ?_, fun cls hclass hnot hform hsafe => ?_, fun ts hclass hform hsafe hwindow htargets hopen => ?_,
      fun ts w hclass hform hsafe hwindow htargets hne hfenced hw => ?_⟩
    · obtain ⟨cls, hclass, hform⟩ : ∃ cls, sourceClass src = some cls ∧
          (decide (cls = 2) || decide (src = 23) && [0, 1, 14, 15].contains (u8 detail 0)) = true := by
        rcases hfatal with h | ⟨rfl, h⟩
        · exact ⟨2, h, rfl⟩
        · exact ⟨1, rfl, by simpa using h⟩
      change answer s (report src resource detail s) = _
      simp only [report, hclass, htaken, ← hv, hform, Bool.false_eq_true, if_false, if_true, answer]
    · have hform' : (decide (cls = 2) || decide (src = 23) && [0, 1, 14, 15].contains (u8 detail 0)) = false := by
        simpa [hnot] using hform
      refine ⟨fun hat => ?_, fun hat => ?_⟩
      · change answer s (report src resource detail s) = _
        simp only [report, hclass, htaken, ← hv, hform', hfaults, htime, hsafe, beq_eq_false_iff_ne.mpr hat, Bool.and_false, Bool.false_eq_true, if_false, if_true, answer]
      · change answer s (report src resource detail s) = _
        simp only [report, hclass, htaken, ← hv, hform', hfaults, htime, hsafe, hat, beq_self_eq_true, Bool.and_self, Bool.false_eq_true, if_false, if_true, answer]
    · have hsafe' : v.faults.safe = false := by rw [hfaults, hsafe]
      change answer s (report src resource detail s) = _
      rw [report_contained htaken hclass hform hsafe' hwindow htargets hv rfl, if_neg (by simp [hopen]), answer]
    · have hsafe' : v.faults.safe = false := by rw [hfaults, hsafe]
      have hall : (!ts.isEmpty && ts.all (isFenced v)) = true := by simp [hfenced, hne]
      have hreport := report_contained htaken hclass hform hsafe' hwindow htargets hv hw
      refine ⟨fun hsame => ?_, fun hother => ?_⟩
      · change answer s (report src resource detail s) = _
        rw [hreport, if_pos hall, if_pos hsame, answer]
      · change answer s (report src resource detail s) = _
        rw [hreport, if_pos hall, if_neg (Bool.eq_false_iff.mp hother), answer]
  · intro r rest s hpending hrun hrestart hstag hphase hroom
    obtain ⟨hrest, hnext, halert, hmem, htables, hlog⟩ := faultRecord_writes hpending hrun hrestart hstag hphase hroom
    exact ⟨settled s (faultRecord s), rfl, hrest, hnext, halert, by simp [settled, pinLevels, halert], hmem, htables, hlog⟩
  · rintro s u hrun rfl
    refine ⟨?_, ?_⟩
    · change execCollectorCompare false s = _
      simp [execCollectorCompare, hrun, answer]
    · change execCollectorCompare true s = _
      simp [execCollectorCompare, hrun, answer]
  · rintro unit x s u v w htest hready rfl rfl rfl
    have hexec : ∀ pass, exec (.selfTestComplete unit pass) s = .next (settled s (endTest x pass s)) := by
      intro pass
      change execSelfTestComplete unit pass s = _
      simp [execSelfTestComplete, htest, hready, answer]
    refine ⟨fun hpassed => ⟨fun hcmd => ?_, fun c hcmd => ?_⟩, fun pass hfailed => ⟨fun hcmd => ?_, fun c hcmd => ?_⟩⟩
    · simp [hexec, endTest, hpassed, hcmd]
    · simp [hexec, endTest, hpassed, hcmd]
    · have hno : (pass && !x.failed) = false := by rcases hfailed with h | h <;> simp [h]
      simp only [hexec, endTest, hno, hcmd, Bool.false_eq_true, if_false]
    · have hno : (pass && !x.failed) = false := by rcases hfailed with h | h <;> simp [h]
      simp only [hexec, endTest, hno, hcmd, Bool.false_eq_true, if_false]

end Sys2Proof.Machine

/-! PROOFS. Observation, registers and the outputs of the time base. -/

namespace Sys2Proof.Machine

/-- A write of the host through BAR 0. -/
theorem exec_registerWrite_bar {addr v : Nat} {s : State} (hrun : running s = true) (haddr : addr < 0x1000000) :
    exec (.registerWrite addr v) s = .next (settled s (barWrite addr v s)) := by
  change execRegisterWrite addr v s = _
  simp only [execRegisterWrite, hrun, haddr, Bool.not_true, Bool.false_eq_true, if_false, if_true, answer]

/-- A write of the firmware to an aligned register. -/
theorem exec_registerWrite_device {off v : Nat} {s : State} (hrun : running s = true) (hoff : off % 8 = 0) :
    exec (.registerWrite (0x80000000 + off) v) s = .next (settled s (regWrite off v s)) := by
  have hhigh : ¬ 0x80000000 + off < 0x1000000 := by omega
  have haligned : (decide (0x80000000 ≤ 0x80000000 + off) && (0x80000000 + off) % 8 == 0) = true := by
    simp only [Bool.and_eq_true, decide_eq_true_eq, beq_iff_eq]
    omega
  change execRegisterWrite (0x80000000 + off) v s = _
  simp only [execRegisterWrite, hrun, hhigh, haligned, Nat.add_sub_cancel_left, Bool.not_true, Bool.false_eq_true, if_false, if_true, answer]

/-- The ranges of BAR 0 that no register stands in (R369). -/
def reservedRange (a : Nat) : Prop := 0x2100 ≤ a ∧ a < 0x20000 ∨ 0x30008 ≤ a ∧ a < 0x800000

/-- A write of a reserved range is dropped and counted. -/
theorem barWrite_reserved {a v : Nat} {s : State} (hanswers : pf0Answers s = true) (h : reservedRange a) : barWrite a v s = dropWrite s := by
  unfold reservedRange at h
  have hpage : ¬ a < 0x2000 := by omega
  have hrings : (decide (a < 0x2100) && decide (a % 0x40 < 0x20)) = false := by simp; omega
  have hmsix : (decide (0x20000 ≤ a) && decide (a < 0x20080)) = false := by simp; omega
  have hpba : (decide (0x30000 ≤ a) && decide (a < 0x30008)) = false := by simp; omega
  have hrecovery : (decide (0x800000 ≤ a) && decide (a < 0x1000000)) = false := by simp; omega
  simp only [barWrite, hanswers, hpage, hrings, hmsix, hpba, hrecovery, Bool.not_true, Bool.false_eq_true, if_false]

theorem barRead_reserved {a : Nat} {s : State} (h : reservedRange a) : barRead s a = 0 := by
  unfold reservedRange at h
  have hpage : ¬ a < 0x2000 := by omega
  have hrings : ¬ a < 0x2100 := by omega
  have hmsix : (decide (0x20000 ≤ a) && decide (a < 0x20080)) = false := by simp; omega
  have hrecovery : (decide (0x800000 ≤ a) && decide (a < 0x1000000)) = false := by simp; omega
  simp only [barRead, hpage, hrings, hmsix, hrecovery, Bool.false_eq_true, if_false]

section
variable {a : Nat} {s : State} (hlow : 0x800000 ≤ a) (hhigh : a < 0x1000000) (hstate : s.boot.rcvState = 0)
include hlow hhigh hstate

/-- Outside recovery boot a write of the recovery window is discarded (R457). -/
theorem barWrite_recovery (hanswers : pf0Answers s = true) (v : Nat) : barWrite a v s = s := by
  have hpage : ¬ a < 0x2000 := by omega
  have hrings : (decide (a < 0x2100) && decide (a % 0x40 < 0x20)) = false := by simp; omega
  have hmsix : (decide (0x20000 ≤ a) && decide (a < 0x20080)) = false := by simp; omega
  have hpba : (decide (0x30000 ≤ a) && decide (a < 0x30008)) = false := by simp; omega
  have hclosed : (!(s.boot.rcvState == 1 || s.boot.rcvState == 3)) = true := by simp [hstate]
  simp only [barWrite, hanswers, hpage, hrings, hmsix, hpba, hlow, hhigh, hclosed, decide_true, Bool.and_self, Bool.not_true, Bool.false_eq_true, if_false, if_true]

theorem barRead_recovery : barRead s a = 0 := by
  have hpage : ¬ a < 0x2000 := by omega
  have hrings : ¬ a < 0x2100 := by omega
  have hmsix : (decide (0x20000 ≤ a) && decide (a < 0x20080)) = false := by simp; omega
  simp only [barRead, recoveryRead, hpage, hrings, hmsix, hlow, hhigh, hstate, decide_true, Bool.and_self, Bool.false_eq_true, if_false, if_true]

end

/-- Settles O53: each event under its condition. -/
theorem observationAndTimeEventsTakeEffect : Obligations.ObservationAndTimeEventsTakeEffect := by
  refine ⟨?_, ?_, ?_, ?_, ?_, ?_, ?_, ?_⟩
  · intro off s hanswers haligned
    have hword : off / 8 * 8 = off := by omega
    change execObservationRead off 8 s = _
    simp [execObservationRead, hanswers, haligned, hword, answer]
  · intro off size s hanswers
    change execObservationWrite off size s = _
    simp [execObservationWrite, hanswers, dropWrite, answer]
  · intro addr v s hrun
    refine ⟨fun hanswers hpage => ?_, fun hanswers hreserved => ?_, fun hanswers hlow hhigh hstate => ?_, fun haddr => ?_, fun o ho haddr => ?_⟩
    · rw [exec_registerWrite_bar hrun (by omega)]
      simp only [barWrite, hanswers, hpage, Bool.not_true, Bool.false_eq_true, if_false, if_true]
    · rw [exec_registerWrite_bar hrun (by omega), barWrite_reserved hanswers hreserved]
      exact ⟨barRead_reserved hreserved, rfl⟩
    · rw [exec_registerWrite_bar hrun hhigh, barWrite_recovery hlow hhigh hstate hanswers]
      exact ⟨barRead_recovery hlow hhigh hstate, rfl⟩
    · subst haddr
      rw [exec_registerWrite_device hrun (by decide)]
      simp [regWrite]
    · subst haddr
      have hblock : (14 * 2 ^ 26 + 8 * o) / 2 ^ 26 = 14 := by omega
      rw [Nat.add_assoc, exec_registerWrite_device hrun (by omega)]
      simp only [regWrite, hblock]
  · intro s hrun hon hnext
    have hexec : exec .ppsOutRise s = .next (settled s { s with time := { s.time with
        ppsHigh := true, ppsFallAt := s.time.uptime + s.time.ppsWidth, ppsNext := edgeAfter s.time.ppsPhase s.time.ntime } }) := by
      change execPpsOutRise s = _
      simp [execPpsOutRise, hrun, hon, hnext, answer]
    exact ⟨_, hexec, rfl, rfl, rfl, by simp [sameDevice, settled]⟩
  · intro s hhigh hfall
    have hexec : exec .ppsOutFall s = .next (settled s { s with time.ppsHigh := false }) := by
      change execPpsOutFall s = _
      simp [execPpsOutFall, hhigh, hfall, answer]
    exact ⟨_, hexec, rfl, rfl⟩
  · intro rising s hrun hon hedge
    refine ⟨fun hcount hearly => ?_, fun hlate => ?_⟩
    · change execPpsIn rising s = _
      simp [execPpsIn, hrun, hon, hedge, hcount, hearly, answer]
    · change execPpsIn rising s = _
      simp [execPpsIn, hrun, hon, hedge, Nat.not_lt.mpr hlate, answer]
  · intro cls depth s htraffic hcls
    change execBridgeDepthSample cls depth s = _
    simp [execBridgeDepthSample, htraffic, hcls, answer]
  · intro s hrun halert
    have hexec : exec .smbusAlertResponse s = .next (settled s (emit (.data (0x58 + s.power.smbAddr)) { s with faults.alert := false })) := by
      change execSmbusAlertResponse s = _
      simp [execSmbusAlertResponse, hrun, halert, answer]
    exact ⟨_, hexec, rfl, rfl, by simp [settled, emit], by simp [sameDevice, settled, emit]⟩

end Sys2Proof.Machine

/-! PROOFS. Power, reset and boot. -/

namespace Sys2Proof.Machine

/-! ### What the firmware's last acts leave of the power state -/

@[simp] theorem makeTomb_power (kind t i : Nat) (s : State) : (makeTomb kind t i s).power = s.power := rfl

@[simp] theorem modTable_power (t : Nat) (f : Table → Table) (s : State) : (modTable t f s).power = s.power := by
  unfold modTable
  split <;> rfl

@[simp] theorem modInst_power (t i : Nat) (f : TInst → TInst) (s : State) : (modInst t i f s).power = s.power := modTable_power ..

@[simp] theorem applyDelete_power (t i : Nat) (key : List Byte) (s : State) : (applyDelete t i key s).power = s.power := by
  unfold applyDelete
  dsimp only
  (repeat' split) <;> simp

@[simp] theorem applyDestroy_power (t : Nat) (s : State) : (applyDestroy t s).power = s.power := by
  have htombs : ∀ (l : List Nat) (s : State), (l.foldl (fun s idx => makeTomb 0 t idx s) s).power = s.power := fun l s =>
    foldl_keeps (·.power) _ (fun s idx => makeTomb_power 0 t idx s) l s
  unfold applyDestroy
  dsimp only
  (repeat' split) <;> simp [htombs]

@[simp] theorem applyDeferred_power (d : Deferred) (s : State) : (applyDeferred d s).power = s.power := by
  cases d with
  | entry t i key => exact applyDelete_power t i key s
  | table t => exact applyDestroy_power t s
  | group g => rfl
  | mirror n => rfl

@[simp] theorem settleHeld_power (s : State) : (settleHeld s).power = s.power := rfl

@[simp] theorem commitRec_power (k : Commit) (status object : Nat) (s : State) : (commitRec k status object s).2.power = s.power := by
  simp [commitRec]

@[simp] theorem writeRecs_power (k : Commit) (s : State) : (writeRecs k s).2.power = s.power :=
  foldl_keeps (fun a : Nat × State => a.2.power) _ (fun a r => by simp) k.recs (0, s)

@[simp] theorem programDone_power (hash header : List Byte) (act : Option (Nat × Nat)) (s : State) : (programDone hash header act s).power = s.power := by
  unfold programDone activationRec
  dsimp only
  split <;> simp

@[simp] theorem answerCommit_power (k : Commit) (seq : Nat) (s : State) : (answerCommit k seq s).power = s.power := by
  unfold answerCommit
  (repeat' split) <;> simp

@[simp] theorem finishCommit_power (k : Commit) (s : State) : (finishCommit k s).power = s.power := by
  unfold finishCommit
  dsimp only
  (repeat' split) <;> simp

@[simp] theorem faultRecord_power (s : State) : (faultRecord s).power = s.power := by
  unfold faultRecord
  dsimp only
  (repeat' split) <;> simp

@[simp] theorem restoreEntries_power (k : Commit) (s : State) : (restoreEntries k s).power = s.power := rfl

@[simp] theorem fwAbort_power (t : Nat) (s : State) : (fwAbort t s).power = s.power := by
  simp [fwAbort]

@[simp] theorem fwAbortOne_power (t : Nat) (s : State) : (fwAbortOne t s).power = s.power := by
  have hrestore : ∀ (l : List Commit) (s : State), (l.foldl (fun s k => restoreEntries k s) s).power = s.power := fun l s =>
    foldl_keeps (·.power) _ (fun s k => restoreEntries_power k s) l s
  unfold fwAbortOne
  dsimp only
  refine (foldl_keeps State.power _ (fun s k => ?_) _ _).trans ?_
  · cases k.cmd <;> simp
  · split <;> simp [hrestore]

@[simp] theorem fwAbortAll_power (s : State) : (fwAbortAll s).power = s.power :=
  foldl_keeps (·.power) _ (fun s t => fwAbortOne_power t s) _ s

/-- What the firmware does before a reset changes no power state (R480). -/
@[simp] theorem firmwareFarewell_power (s : State) : (firmwareFarewell s).power = s.power := by
  have hrecords : ∀ (l : List FRec) (s : State), (l.foldl (fun s _ => faultRecord s) s).power = s.power := fun l s =>
    foldl_keeps (·.power) _ (fun s _ => faultRecord_power s) l s
  have hcommits : ∀ (l : List Commit) (s : State), (l.foldl (fun s k =>
      finishCommit k (k.deferred.foldl (fun s d => applyDeferred d s) s)) s).power = s.power := fun l s =>
    foldl_keeps (·.power) _ (fun s k => (finishCommit_power k _).trans (foldl_keeps (·.power) _ (fun s d => applyDeferred_power d s) k.deferred s)) l s
  have hbatches : ∀ (l : List Batch) (s : State), (l.foldl (fun s b => closeBatch b s) s).power = s.power := fun l s =>
    foldl_keeps (·.power) _ (fun s b => by simp) l s
  unfold firmwareFarewell
  split
  · rfl
  · simp only [fwAbortAll_power, hbatches, hcommits, hrecords]

/-! ### Warm reset -/

@[simp] theorem floodDown_keeps (s : State) : (floodDown s).power = s.power ∧ (floodDown s).pair = s.pair := by
  unfold floodDown
  dsimp only
  split <;> simp

/-- A warm reset that starts latches its cause and counts, and lets go of the pair's ACT output (R480). -/
theorem startWarm_starts {cause : Nat} {s : State} (hrun : running s = true) :
    (startWarm cause s).power = { s.power with
      warm := true, warmAt := (startWarm cause s).time.uptime, lastReset := cause, warmCount := (s.power.warmCount + 1) % 2 ^ 16 } ∧
    (startWarm cause s).pair.actOut = false := by
  unfold startWarm
  simp only [hrun, Bool.not_true, Bool.false_eq_true, if_false]
  split <;> simp

/-! ### Brown-out -/

/-- A brown-out empties the device but for what its flash keeps (R480). -/
theorem brownOut_empties (s : State) :
    (brownOut s).power.brownout = true ∧ (brownOut s).power.brownouts = (s.power.brownouts + 1) % 2 ^ 16 ∧ (brownOut s).power.lastReset = 2 ∧
    (brownOut s).mem = [] ∧ (brownOut s).tables = [] ∧ (brownOut s).journal = State.reset.journal :=
  ⟨rfl, rfl, rfl, rfl, rfl, rfl⟩

/-! ### Power domains -/

@[simp] theorem domainOf_modDomain_self (d : Nat) (f : Domain → Domain) (s : State) : domainOf (modDomain d f s) d = f (domainOf s d) := by
  simp [domainOf, modDomain, mmod]

theorem domainOf_modDomain_other {d e : Nat} (h : e ≠ d) (f : Domain → Domain) (s : State) : domainOf (modDomain d f s) e = domainOf s e := by
  simp only [domainOf, modDomain, mmod]
  exact mgetD_mset_other _ _ _ (Ne.symm h)

/-- The next domain's time is all that following the power-up changes of the domains. -/
theorem nextUp_keeps (s : State) : (nextUp s).power.bringUp = s.power.bringUp ∧ ∀ e, domainOf (nextUp s) e = domainOf s e := by
  unfold nextUp
  split <;> exact ⟨rfl, fun _ => rfl⟩

/-- The power-up of the first domain of the order, within its bound and not held off (R474, R475). -/
theorem powerTick_first {d : Nat} {rest : List Nat} {s : State} (hrun : running s = true) (hfirst : s.power.bringUp = d :: rest)
    (hdue : s.power.bringAt ≤ s.time.uptime) (hoff : (domainOf s d).on = false) (hfree : (domainOf s d).heldOff = false) :
    powerTick s = if (domainOf s d).ramping = true then
        nextUp (modDomain d (fun x => { x with on := true, ramping := false }) { s with power.bringUp := rest })
      else modDomain d (fun x => { x with ramping := true })
        { (drawBelow 500001 s).2 with power.bringAt := s.time.uptime + (drawBelow 500001 s).1 } := by
  simp only [powerTick, hfirst, hrun, hoff, hfree, Nat.not_lt.mpr hdue, Bool.not_true, Bool.or_self, Bool.false_eq_true, if_false]

/-- Settles O57: each event under its condition; the power-up goes through `powerTick_first`. -/
theorem powerEventsTakeEffect : Obligations.PowerEventsTakeEffect := by
  refine ⟨?_, ?_, ?_, ?_, ?_, ?_⟩
  · rintro mv s u hmv hu
    have hexec : exec (.supplySample mv) s = .next (settled s (if 10 ≤ u.power.lowUs && !u.power.porst && !u.power.brownout then brownOut u else u)) := by
      change execSupplySample mv s = _
      rw [execSupplySample, if_neg (Nat.not_lt.mpr hmv), hu]
      rfl
    rw [hexec]
    refine ⟨fun hno => ?_, fun hlow hporst hbrown => ?_⟩
    · have hcond : (decide (10 ≤ u.power.lowUs) && !u.power.porst && !u.power.brownout) = false := by
        rcases hno with h | h | h
        · simp [Nat.not_le.mpr h]
        · simp [h]
        · simp [h]
      rw [hcond]
      rfl
    · have hcond : (decide (10 ≤ u.power.lowUs) && !u.power.porst && !u.power.brownout) = true := by simp [hlow, hporst, hbrown]
      rw [if_pos hcond]
      obtain ⟨hbrownout, hcount, hlast, hmem, htables, hjournal⟩ := brownOut_empties u
      exact ⟨_, rfl, hbrownout, hcount, hlast, (pinLevels_faultN (brownOut u)).mpr (.inr (.inr hbrownout)), hmem, htables, hjournal⟩
  · rintro d s u hrun hpowered rfl
    have hcond : (!running s || !((domainOf s d).on || (domainOf s d).ramping)) = false := by
      rcases hpowered with h | h <;> simp [hrun, h]
    change execRegulatorFault d s = _
    simp only [execRegulatorFault, hcond, Bool.false_eq_true, if_false, answer]
    rfl
  · rintro d s u v w hrun hramping hu hv hw
    have hexec : exec (.domainInRegulation d) s = .next (settled s
        (if (domainOf w d).on = true then (enabledOctets w d).foldl (fun s o => startOctet o s) w else w)) := by
      change execDomainInRegulation d s = _
      subst hu hv hw
      simp only [execDomainInRegulation, hrun, hramping, Bool.not_true, Bool.or_self, Bool.false_eq_true, if_false, answer]
    rw [hexec]
    exact ⟨fun hon => by rw [if_pos hon], fun hoff => by rw [if_neg (Bool.eq_false_iff.mp hoff)]⟩
  · intro d rest s hrun hfirst hdue hoff hfree halone
    rw [powerTick_first hrun hfirst hdue hoff hfree]
    refine ⟨fun e he => ?_, fun hidle => ?_, fun hramping => ?_⟩
    · refine Decidable.byContradiction fun hne => hne (halone e ?_)
      split at he
      · rw [(nextUp_keeps _).2, domainOf_modDomain_other hne] at he
        exact he
      · rw [domainOf_modDomain_other hne] at he
        exact he
    · have hbound : (drawBelow 500001 s).1 ≤ 500000 := Nat.le_of_lt_succ (Nat.mod_lt _ (by decide))
      rw [hidle, if_neg Bool.false_ne_true, domainOf_modDomain_self]
      exact ⟨rfl, hoff, Nat.add_le_add_left hbound _⟩
    · rw [if_pos hramping, (nextUp_keeps _).2, domainOf_modDomain_self, (nextUp_keeps _).1]
      exact ⟨rfl, rfl, rfl⟩
  · intro s hrun hclock
    change execRefclkLoss s = _
    simp [execRefclkLoss, hrun, hclock, answer]
  · intro n s hrun
    change execLaneRefclkLoss n s = _
    simp only [execLaneRefclkLoss, hrun, Bool.not_true, Bool.false_eq_true, if_false, answer]

/-! ### Reset and boot -/

/-- Settles O58: each event under its condition; what a warm reset keeps is `startWarm_starts`. -/
theorem resetEventsTakeEffect : Obligations.ResetEventsTakeEffect := by
  refine ⟨?_, ?_, ?_, ?_, ?_, ?_, ?_, ?_, ?_, ?_⟩
  · intro ns s hlong
    change execPorstAssert ns s = _
    simp only [execPorstAssert, Nat.not_lt.mpr hlong, if_false, answer]
  · intro ns s hshort
    change execPorstAssert ns s = _
    simp only [execPorstAssert, hshort, if_true, answer]
  · intro b s hporst
    refine ⟨fun hbrown => ?_, fun hbrown => ?_⟩
    · change execPorstRelease b s = _
      simp [execPorstRelease, hporst, hbrown, answer]
    · change execPorstRelease b s = _
      simp [execPorstRelease, hporst, hbrown, answer]
  · intro b s hbrown hback
    refine ⟨fun hporst => ?_, fun hporst => ?_⟩
    · change execBrownOutEnd b s = _
      simp [execBrownOutEnd, hbrown, Nat.not_lt.mpr hback, hporst, answer]
    · change execBrownOutEnd b s = _
      simp [execBrownOutEnd, hbrown, Nat.not_lt.mpr hback, hporst, answer]
  · intro ns s hlong hrun
    have hexec : exec (.warmRstN ns) s = .next (settled s { startWarm 4 s with power.warmLow := true }) := by
      change execWarmRstN ns s = _
      simp [execWarmRstN, hrun, Nat.not_lt.mpr hlong, answer]
    obtain ⟨hpower, hact⟩ := startWarm_starts (cause := 4) hrun
    refine ⟨_, hexec, ?_, rfl, ?_, ?_, hact⟩
    · exact congrArg Power.warm hpower
    · exact congrArg Power.lastReset hpower
    · exact congrArg Power.warmCount hpower
  · intro a s hreset htime
    change execWarmResetStart s = _
    simp only [execWarmResetStart, hreset, htime, if_true, answer]
  · intro b s hwarm hporst hbrown htime
    change execWarmResetRelease b s = _
    simp only [execWarmResetRelease, hwarm, hporst, hbrown, Nat.not_lt.mpr htime, decide_false, Bool.not_true, Bool.or_self, Bool.false_eq_true, if_false, answer]
  · intro b a s hwatch hrun htime
    refine ⟨fun hrestart => ?_, fun hrestart => ?_⟩
    · change execBootWatchdog b s = _
      simp [execBootWatchdog, hwatch, hrun, Nat.not_lt.mpr htime, hrestart, answer]
    · change execBootWatchdog b s = _
      simp [execBootWatchdog, hwatch, hrun, Nat.not_lt.mpr htime, hrestart, answer]
  · intro a hangs s harmed hready htime hstage hactivating
    have hdue : (!mailboxReady s || (a.at_ != 0 && decide (s.time.ntime < a.at_)) || s.boot.stage != 0 || s.boot.activating.isSome) = false := by
      rcases htime with h | h
      · simp [hready, hstage, hactivating, h]
      · simp [hready, hstage, hactivating, h]
    change execActivationStart hangs s = _
    simp only [execActivationStart, harmed, hdue, Bool.false_eq_true, if_false, answer]
  · rintro b s u hrun hstate rfl
    have hcond : (!running s || !(s.boot.rcvState == 1 || s.boot.rcvState == 3)) = false := by
      rcases hstate with h | h <;> simp [hrun, h]
    change execRecoveryGo b s = _
    simp only [execRecoveryGo, hcond, Bool.false_eq_true, if_false, answer]

end Sys2Proof.Machine

/-! PROOFS. The idle tick. -/

namespace Sys2Proof.Machine

/-- A device whose NTIME steps with the next tick. Then a gate list starts at port 0 that never opens queue 0, where one segment
waits; its account, 3,073 segments in priority 0, has XOFF in force. -/
def gateStepping : State := { Tests.up with
  time.nextStep := some (0, 0)
  ports := [(0, { txXoff := 1, fwd.flow := 2, fwd.pfcMask := 1 })]
  buf.heads := [(5, { recLen := 64, frame := zeros 64, account := some 0 })]
  buf.pools := [(0, { used := 1 })]
  buf.accounts := [(0, { used := 3073, xoff := true })]
  sched.eqs := [(0, { head := [5], depth := 64 })]
  sched.gates := [(0, { admin := some { base := 0, cycle := 1000, fitAdj := 24, entries := [(0, 1000)], start := 0 } })] }

/-- The gate list that starts drops the segment, and the account's end of XOFF goes out at the port. -/
theorem deviceTick_gateStepping : (portOf (deviceTick gateStepping) 0).txXoff = 0 := by decide

/-- Refutes O2: the tick that applies a step of NTIME starts the gate lists that it reaches; the frame that is too long for one is
dropped, and its priority is released, which the port notes. -/
theorem not_emptyQueueTicks : ¬ Obligations.EmptyQueueTicks := by
  intro h
  obtain ⟨t, ht, -, -, -, hports, -⟩ := h.1 gateStepping rfl rfl rfl
  rw [step_nil rfl] at ht
  obtain rfl : settled gateStepping (deviceTick gateStepping) = t := by simpa using ht
  have hkept : portOf (deviceTick gateStepping) 0 = portOf gateStepping 0 := congrArg (fun m => mgetD m 0 {}) hports
  have hreleased := deviceTick_gateStepping
  rw [hkept] at hreleased
  exact absurd hreleased (by decide)

end Sys2Proof.Machine
